-- ==== Sys2Proof/Word.lean ====
section
/-! DEFINITION. The machine's words (R2, R3): bytes, 32-bit parcels and register values, 64-bit values. -/

namespace Sys2Proof

/-- A byte of memory. -/
abbrev Byte := BitVec 8

/-- A 32-bit register value or code parcel (R104). -/
abbrev Word := BitVec 32

/-- A 64-bit value: a register pair, a header or a management register (R3). -/
abbrev DWord := BitVec 64

/-- One bit for each lane of a warp (R20). -/
abbrev Lanes := BitVec 32

end Sys2Proof
end

