-- ==== Sys2Proof/Config.lean ====
section
/-! DEFINITION. What the ZS-H9M fixes (Tables 1.2 to 1.7, 14.5), and the values the spec leaves open: opaque
constants with no body, so that no claim can rest on one (log entries 2, 7, 8, 10, 13). -/

namespace Sys2Proof.Config

/-- Cores of the module (R12). -/
def cores : Nat := 384
/-- Quadrants of a core (Table 1.4). -/
def quads : Nat := 4
/-- Warp slots of a quadrant (R284); slot 16 stands for the quadrant's handler slot (R312). -/
def slots : Nat := 16
/-- Tenants of the module (R10, Table 19.3). -/
def tenants : Nat := 16
/-- Launch queues of a tenant (R275, Table 19.1). -/
def queues : Nat := 8
/-- Tarsor Link ends: 16 ports, and the far seam's end on each shelf (R321). -/
def links : Nat := 18
/-- HBM4E stacks (R12). -/
def stackCount : Nat := 8
/-- Bytes of one stack (R61). -/
def stackBytes : Nat := 2 ^ 36
/-- End of the fast tier (R61). -/
def fastEnd : Nat := 8 * 2 ^ 36
/-- Base of shelf 0's capacity tier (R61). -/
def cap0 : Nat := 0x100000000000
/-- Base of shelf 1's capacity tier (R61). -/
def cap1 : Nat := 0x180000000000
/-- Populated bytes of one shelf's capacity tier (R61, Table 3.9). -/
def capBytes : Nat := 0xC00000 * 65536
/-- Bytes of a core's pool (R49). -/
def poolBytes : Nat := 0x80000
/-- Tide-table entries of a slice (R247). -/
def tideEntries : Nat := 512
/-- Spill-list capacity of a slice (Table 24.3). -/
def spillEntries : Nat := 4096
/-- Tags of a stack port (R62). -/
def portTags : Nat := 1024
/-- Staging entries of a core (R54). -/
def stagingEntries : Nat := 64
/-- clk in one microsecond of sr.time (R14, Table 11.10). -/
def clkPerUs : Nat := 2100
/-- clk in 2^k sclk, rounded down: 2.1 GHz against 1.6 GHz (R14, DEDUCED, log entry 109). -/
def sclk (n : Nat) : Nat := n * 21 / 16

/-- The free values: draw n is freeBits n, and State.free counts the draws (DESIGN CHOICE, log entry 2). -/
opaque freeBits : Nat → DWord
/-- The implementation's choice inside the bound of Table 8.8, by function and operand (R166, R167). -/
opaque sfu : Nat → DWord → DWord
/-- SHAKE256, named by R324 and R329 and defined outside the spec: message, bytes of output. -/
opaque shake256 : List Byte → Nat → List Byte
/-- ML-DSA-65 verification (R329), defined outside the spec: key, message, signature. -/
opaque mlDsaVerify : List Byte → List Byte → List Byte → Bool
/-- The fused key digest (R329). -/
opaque keyDigest : List Byte
/-- The fused minimum security version (R329). -/
opaque minSvn : Byte
/-- The bytes of the firmware flash at module reset (R329). -/
opaque flash : List (Nat × Byte)
/-- The fuse identifier of each die (R328). -/
opaque dieId : Nat → DWord
/-- PWRDIE.TOK as firmware sets it (Table 16.11). -/
opaque fwTok : Nat → Word
/-- Whether a die's temperature, in 0.1 °C, nears its limit (R332). -/
opaque nearLimit : Nat → Bool
/-- TLCTL.EN of a port as firmware sets it (Table 16.3). -/
opaque fwPortEn : Nat → Bool
/-- PWRSTAT as firmware sets it (Table 16.11). -/
opaque fwPwrStat : DWord
/-- The module's own device number on the Tarsor fabric (R306), which no register of the spec holds. -/
opaque ownDevice : Nat
/-- How far a core's sr.clk stands from the module's count: R258 relates no two cores' values. -/
opaque clkSkew : Nat → DWord
/-- The row of a stack in which a physical address of the fast tier is stored, and firmware's threshold of corrected errors for a
row (R377): the spec gives neither. -/
opaque stackRow : Nat → Nat
opaque rowThreshold : Nat
/-- Bytes of the recovery SRAM that IMAGE fills (R329). -/
opaque recoveryBytes : Nat
/-- How a save lays out an item whose inner layout the spec does not give: item, fields; and the fields that other bytes in its place stand
for (Table 13.7) (DESIGN CHOICE, log entry 52). -/
opaque saveLayout : Nat → List Nat → List Byte
opaque saveFields : Nat → List Byte → List Nat
/-- Where an element's scale byte stands in its scale tensor, which the spec lays out nowhere (Table 9.5): geometry,
extents and coordinates give the byte offset from SCALE (DESIGN CHOICE, log entry 25). -/
opaque scaleOffset : Nat → List Nat → List Nat → Nat
/-- Bytes of the firmware flash, which R329 checks LEN against. -/
opaque flashBytes : Nat
/-- Buffers a receiver keeps for each channel: what FREE counts at link-up (R322). -/
opaque linkBuffers : Nat → BitVec 14
/-- The 256-byte blocks that the cells of channels 0 and 1 carry, by kind and payload in order (R324 gives no framing). -/
opaque linkBlocks : List (Nat × List Byte) → List (List Byte)
/-- The payloads of the data cells that carry a block in full (R324). -/
opaque blockCells : List Byte → List (List Byte)
/-- The phase bit of the completion ring's first pass (R326 says only that it flips). -/
opaque mbPhase : Bool

end Sys2Proof.Config
end

