-- ==== Sys2Proof/Syntax.lean ====
section
/-! DEFINITION. The instruction set as syntax: the forms of Tables 6.5 and 6.6, the operands of the device's own
steps, and the one inductive Instr with a constructor for every row of the opcode table. Rows with an encoding carry
the fields of their form, because R355 makes an instruction check its own fields when it issues; rows that are steps
of the device (spec/95) carry which agent acts and what reaches the device from outside. -/

namespace Sys2Proof

/-- The long form of Table 6.5; with a literal parcel it is the extended form (R104, R112). -/
structure Long where
  /-- MOD, bits [63:52]. -/
  md : BitVec 12
  /-- GN, bit [51]. -/
  gn : Bool
  /-- GP, bits [50:48]. -/
  gp : BitVec 3
  /-- C, bits [47:39]. -/
  c : BitVec 9
  /-- B, bits [38:30]. -/
  b : BitVec 9
  /-- A, bits [29:21]. -/
  a : BitVec 9
  /-- NOWB, bit [20]. -/
  nowb : Bool
  /-- DST, bits [19:12]. -/
  dst : BitVec 8
  /-- The literal parcel of the extended form. -/
  lit : Option Word
  deriving DecidableEq, Repr

/-- The short form of Table 6.6. -/
structure Short where
  /-- B7, bits [31:25]. -/
  b7 : BitVec 7
  /-- A, bits [24:16]. -/
  a : BitVec 9
  /-- DST, bits [15:8]. -/
  dst : BitVec 8
  deriving DecidableEq, Repr

/-- The layout the stack base die keeps for a frame (R63). -/
inductive Layout where
  /-- Lines interleaved across pseudo-channels and banks. -/
  | plain
  /-- 64 consecutive rows of one bank. -/
  | rowLocal
  /-- Attention-striped (R260). -/
  | striped
  deriving DecidableEq, Repr

/-- Frame metadata of one 64 KiB frame (R63, R260). -/
structure FrameMeta where
  layout : Layout := .plain
  /-- Compressed frame (R64). -/
  cmp : Bool := false
  /-- Pseudo-channel of a row-local or striped frame. -/
  pch : Nat := 0
  /-- Bank of a row-local frame. -/
  bank : Nat := 0
  /-- First row of a row-local frame. -/
  row : Nat := 0
  /-- Stack-ID group of a striped frame. -/
  grp : Nat := 0
  /-- First of the four consecutive rows of each bank, 0 to 15, of a striped frame. -/
  rows : List Nat := []
  deriving DecidableEq, Repr

/-- A 64-byte Tarsor cell (Table 16.1); the CRC is judged by the receiver over these fields. -/
structure Cell where
  seq : BitVec 12
  aseq : BitVec 12
  vc : BitVec 2
  kind : BitVec 6
  fvc : BitVec 2
  free : BitVec 14
  /-- 52 payload bytes. -/
  payload : List Byte
  /-- CRC-32 in bytes 60-63. -/
  crc : Word
  deriving DecidableEq, Repr

/-- A mailbox command as fetched (Table 16.6). -/
structure MbCmd where
  w0 : DWord
  w1 : DWord
  w2 : DWord
  /-- Words 3 to 7 are all zero. -/
  restZero : Bool
  deriving DecidableEq, Repr

/-- What a failing bring-up stage reports (Tables 25.1, 25.2). -/
structure Diag where
  errc : BitVec 8
  unit : BitVec 8
  die : BitVec 4
  detail : Word
  deriving DecidableEq, Repr

/-- The instruction set and the device's steps: one constructor for each row of spec/opcode_table.json. -/
inductive Instr where
  /-- BRA (R139). Branches each lane whose guard holds to the literal-relative target; the other lanes fall through. -/
  | bra (f : Long)
  /-- BRX (R139). Branches each lane whose guard holds to the target held in a register pair. -/
  | brx (f : Long)
  /-- CALL (R139). Writes the fall-through link to the link pair, then transfers to the literal-relative target. -/
  | call (f : Long)
  /-- CALLX (R139). Writes the fall-through link to the link pair, then transfers to the target held in a register pair. -/
  | callx (f : Long)
  /-- RET (R139). Transfers as BRX does, and counts as a return for step-over. -/
  | ret (f : Long)
  /-- EXIT (R140). Makes the guarded lanes no longer live and removes them from RCV holds, barriers and convergence sets. -/
  | exit (f : Long)
  /-- EXIT_SHORT (R140). Short form of EXIT with guard pt. -/
  | exitShort (f : Short)
  /-- RCV (R141). Sets the reconvergence hint of each guarded lane to the literal target. -/
  | rcv (f : Long)
  /-- YIELD (R142). Ends the clause and gives the warp's next issue slot to another eligible warp. -/
  | yield (f : Long)
  /-- YIELD_SHORT (R142). Short form of YIELD. -/
  | yieldShort (f : Short)
  /-- NOP (R142). Has no effect under any guard and captures no latch. -/
  | nop (f : Long)
  /-- NOP_SHORT (R142). Short form of NOP. -/
  | nopShort (f : Short)
  /-- LAUNCH (R143). Releases at .device, reads a launch record image and appends it to one of the tenant's queues, writing a status. -/
  | launch (f : Long)
  /-- SMOV (R146). Uniform move into an s register or pair. -/
  | smov (f : Long)
  /-- SMOV_SHORT (R146). Short form of SMOV.b32. -/
  | smovShort (f : Short)
  /-- SADD (R146). Uniform integer add, optionally saturating. -/
  | sadd (f : Long)
  /-- SADD_SHORT (R146). Short form of SADD.i32. -/
  | saddShort (f : Short)
  /-- SSUB (R146). Uniform integer subtract, optionally saturating. -/
  | ssub (f : Long)
  /-- SSUB_SHORT (R146). Short form of SSUB.i32. -/
  | ssubShort (f : Short)
  /-- SMUL (R146). Uniform integer multiply, low part. -/
  | smul (f : Long)
  /-- SMUL_SHORT (R146). Short form of SMUL.i32. -/
  | smulShort (f : Short)
  /-- SMAD (R146). Uniform integer multiply-add, including 64-bit types. -/
  | smad (f : Long)
  /-- SAND (R146). Uniform bitwise and. -/
  | sand (f : Long)
  /-- SAND_SHORT (R146). Short form of SAND.b32. -/
  | sandShort (f : Short)
  /-- SOR (R146). Uniform bitwise or. -/
  | sor (f : Long)
  /-- SOR_SHORT (R146). Short form of SOR.b32. -/
  | sorShort (f : Short)
  /-- SXOR (R146). Uniform bitwise xor. -/
  | sxor (f : Long)
  /-- SXOR_SHORT (R146). Short form of SXOR.b32. -/
  | sxorShort (f : Short)
  /-- SSHL (R146). Uniform left shift. -/
  | sshl (f : Long)
  /-- SSHL_SHORT (R146). Short form of SSHL.b32. -/
  | sshlShort (f : Short)
  /-- SSHR (R146). Uniform logical right shift. -/
  | sshr (f : Long)
  /-- SSHR_SHORT (R146). Short form of SSHR.n32. -/
  | sshrShort (f : Short)
  /-- SSHA (R146). Uniform arithmetic right shift. -/
  | ssha (f : Long)
  /-- SCMP (R146). Uniform integer compare writing a uniform predicate. -/
  | scmp (f : Long)
  /-- SSEL (R146). Uniform select by a uniform predicate. -/
  | ssel (f : Long)
  /-- SLDP (R147). Reads bytes of the launch's parameter window, zero beyond its size. -/
  | sldp (f : Long)
  /-- SLDP_SHORT (R147). Short form of SLDP.b32 addressing [a + b]. -/
  | sldpShort (f : Short)
  /-- IADD (R148). Per-lane integer add, wrapping or saturating. -/
  | iadd (f : Long)
  /-- IADD_SHORT (R148). Short form of IADD.i32. -/
  | iaddShort (f : Short)
  /-- IADD3 (R148). Per-lane three-input integer add. -/
  | iadd3 (f : Long)
  /-- ISUB (R148). Per-lane integer subtract. -/
  | isub (f : Long)
  /-- ISUB_SHORT (R148). Short form of ISUB.i32. -/
  | isubShort (f : Short)
  /-- IMUL (R148). Per-lane integer multiply, low part. -/
  | imul (f : Long)
  /-- IMUL_SHORT (R148). Short form of IMUL.i32. -/
  | imulShort (f : Short)
  /-- IMULH (R148). Per-lane high half of the exact 64-bit product. -/
  | imulh (f : Long)
  /-- IMULH_I32_SHORT (R148). Short form of IMULH.i32. -/
  | imulhI32Short (f : Short)
  /-- IMULH_N32_SHORT (R148). Short form of IMULH.n32. -/
  | imulhN32Short (f : Short)
  /-- IMAD (R148). Per-lane 32-bit integer multiply-add. -/
  | imad (f : Long)
  /-- IMADW (R148). Per-lane 32x32 multiply with a 64-bit addend and a 64-bit result pair. -/
  | imadw (f : Long)
  /-- IMIN (R148). Per-lane integer minimum. -/
  | imin (f : Long)
  /-- IMIN_I32_SHORT (R148). Short form of IMIN.i32. -/
  | iminI32Short (f : Short)
  /-- IMIN_N32_SHORT (R148). Short form of IMIN.n32. -/
  | iminN32Short (f : Short)
  /-- IMAX (R148). Per-lane integer maximum. -/
  | imax (f : Long)
  /-- IMAX_I32_SHORT (R148). Short form of IMAX.i32. -/
  | imaxI32Short (f : Short)
  /-- IMAX_N32_SHORT (R148). Short form of IMAX.n32. -/
  | imaxN32Short (f : Short)
  /-- IABS (R148). Per-lane integer absolute value, optionally saturating. -/
  | iabs (f : Long)
  /-- IABS_SHORT (R148). Short unary form of IABS.i32. -/
  | iabsShort (f : Short)
  /-- ISAD (R148). Per-lane sum of absolute difference. -/
  | isad (f : Long)
  /-- SHL (R149). Per-lane left shift. -/
  | shl (f : Long)
  /-- SHL_SHORT (R149). Short form of SHL.b32. -/
  | shlShort (f : Short)
  /-- SHR (R149). Per-lane logical right shift. -/
  | shr (f : Long)
  /-- SHR_SHORT (R149). Short form of SHR.n32. -/
  | shrShort (f : Short)
  /-- SHA (R149). Per-lane arithmetic right shift. -/
  | sha (f : Long)
  /-- SHA_SHORT (R149). Short form of SHA.i32. -/
  | shaShort (f : Short)
  /-- SHF (R149). Per-lane funnel shift of a 64-bit word pair. -/
  | shf (f : Long)
  /-- LOP3 (R150). Per-lane three-input Boolean function by a LUT. -/
  | lop3 (f : Long)
  /-- LOP3_AND_SHORT (R150). Short form of LOP3.b32 with table 0x88. -/
  | lop3AndShort (f : Short)
  /-- LOP3_OR_SHORT (R150). Short form of LOP3.b32 with table 0xEE. -/
  | lop3OrShort (f : Short)
  /-- LOP3_XOR_SHORT (R150). Short form of LOP3.b32 with table 0x66. -/
  | lop3XorShort (f : Short)
  /-- POPC (R150). Per-lane population count. -/
  | popc (f : Long)
  /-- POPC_SHORT (R150). Short unary form of POPC.b32. -/
  | popcShort (f : Short)
  /-- CLZ (R150). Per-lane count of leading zeros. -/
  | clz (f : Long)
  /-- CLZ_SHORT (R150). Short unary form of CLZ.b32. -/
  | clzShort (f : Short)
  /-- BREV (R150). Per-lane bit reversal. -/
  | brev (f : Long)
  /-- BREV_SHORT (R150). Short unary form of BREV.b32. -/
  | brevShort (f : Short)
  /-- BFE (R151). Per-lane bitfield extract under a control word. -/
  | bfe (f : Long)
  /-- BFI (R151). Per-lane bitfield insert under a control word. -/
  | bfi (f : Long)
  /-- ICMP (R152). Per-lane integer compare writing a predicate. -/
  | icmp (f : Long)
  /-- ISEL (R152). Per-lane select by a predicate. -/
  | isel (f : Long)
  /-- LEA (R154). Forms a 32-bit address as a shifted index plus a base. -/
  | lea (f : Long)
  /-- LEA64 (R154). Forms a 64-bit address as an optionally sign-extended shifted index plus a base pair. -/
  | lea64 (f : Long)
  /-- PSET (R155). Sets a predicate to whether an operand is nonzero. -/
  | pset (f : Long)
  /-- PLOP (R155). Combines three predicates by a LUT into a predicate. -/
  | plop (f : Long)
  /-- PMOV (R155). Moves predicates to a register or register bits to predicates under a mask. -/
  | pmov (f : Long)
  /-- FADD (R158). Per-lane FP32 add rounded under the named mode. -/
  | fadd (f : Long)
  /-- FADD_SHORT (R158). Short form of FADD.f32 with RNE. -/
  | faddShort (f : Short)
  /-- FMUL (R158). Per-lane FP32 multiply. -/
  | fmul (f : Long)
  /-- FMUL_SHORT (R158). Short form of FMUL.f32 with RNE. -/
  | fmulShort (f : Short)
  /-- FFMA (R158). Per-lane FP32 fused multiply-add with one rounding. -/
  | ffma (f : Long)
  /-- FMIN (R159). Per-lane FP32 minimum returning an operand. -/
  | fmin (f : Long)
  /-- FMIN_SHORT (R159). Short form of FMIN.f32. -/
  | fminShort (f : Short)
  /-- FMAX (R159). Per-lane FP32 maximum returning an operand. -/
  | fmax (f : Long)
  /-- FMAX_SHORT (R159). Short form of FMAX.f32. -/
  | fmaxShort (f : Short)
  /-- FCMP (R160). Per-lane FP32 compare writing a predicate. -/
  | fcmp (f : Long)
  /-- FCLASS (R161). Sets a predicate when the operand's class bit is in a mask. -/
  | fclass (f : Long)
  /-- FRND (R158). Rounds to an integral value in the operand's own format. -/
  | frnd (f : Long)
  /-- FSCALE (R158). Multiplies by a power of two and rounds once. -/
  | fscale (f : Long)
  /-- HADD2 (R162). Packed-half add of two elements per lane. -/
  | hadd2 (f : Long)
  /-- HADD2_F16_SHORT (R162). Short form of HADD2.f16. -/
  | hadd2F16Short (f : Short)
  /-- HADD2_BF16_SHORT (R162). Short form of HADD2.bf16. -/
  | hadd2Bf16Short (f : Short)
  /-- HMUL2 (R162). Packed-half multiply. -/
  | hmul2 (f : Long)
  /-- HMUL2_F16_SHORT (R162). Short form of HMUL2.f16. -/
  | hmul2F16Short (f : Short)
  /-- HMUL2_BF16_SHORT (R162). Short form of HMUL2.bf16. -/
  | hmul2Bf16Short (f : Short)
  /-- HFMA2 (R162). Packed-half fused multiply-add. -/
  | hfma2 (f : Long)
  /-- HMNMX2 (R162). Packed-half minimum or maximum. -/
  | hmnmx2 (f : Long)
  /-- DADD (R162). FP64 add on register pairs. -/
  | dadd (f : Long)
  /-- DADD_SHORT (R162). Short form of DADD.f64. -/
  | daddShort (f : Short)
  /-- DMUL (R162). FP64 multiply on register pairs. -/
  | dmul (f : Long)
  /-- DMUL_SHORT (R162). Short form of DMUL.f64. -/
  | dmulShort (f : Short)
  /-- DFMA (R162). FP64 fused multiply-add. -/
  | dfma (f : Long)
  /-- DCMP (R160). FP64 compare writing a predicate. -/
  | dcmp (f : Long)
  /-- DMNMX (R162). FP64 minimum or maximum. -/
  | dmnmx (f : Long)
  /-- CVT (R163). Converts one element between two types under Round or saturation. -/
  | cvt (f : Long)
  /-- CVT_F32_I32_SHORT (R163). Short unary form of CVT.f32.i32. -/
  | cvtF32I32Short (f : Short)
  /-- CVT_I32_F32_SHORT (R163). Short unary form of CVT.i32.f32.rz. -/
  | cvtI32F32Short (f : Short)
  /-- CVT_BF16_F32_SHORT (R163). Short unary form of CVT.bf16.f32.rne.sat. -/
  | cvtBf16F32Short (f : Short)
  /-- CVT_F32_BF16_SHORT (R163). Short unary form of CVT.f32.bf16. -/
  | cvtF32Bf16Short (f : Short)
  /-- CVTP (R164). Packs one FP32 value per tile lane into narrow elements, optionally choosing an MX scale. -/
  | cvtp (f : Long)
  /-- CVTQ (R165). Quantises FP32 values to CB4 indices against a codebook in registers. -/
  | cvtq (f : Long)
  /-- RCP (R166). Correctly rounded reciprocal. -/
  | rcp (f : Long)
  /-- RCP_SHORT (R166). Short unary form of RCP.f32. -/
  | rcpShort (f : Short)
  /-- RSQ (R166). Reciprocal square root within 1 ulp. -/
  | rsq (f : Long)
  /-- RSQ_SHORT (R166). Short unary form of RSQ.f32. -/
  | rsqShort (f : Short)
  /-- SQRT (R166). Correctly rounded square root. -/
  | sqrt (f : Long)
  /-- SQRT_SHORT (R166). Short unary form of SQRT.f32. -/
  | sqrtShort (f : Short)
  /-- EX2 (R166). Base-2 exponential within 2 ulp. -/
  | ex2 (f : Long)
  /-- EX2_SHORT (R166). Short unary form of EX2.f32. -/
  | ex2Short (f : Short)
  /-- LG2 (R166). Base-2 logarithm within its bound. -/
  | lg2 (f : Long)
  /-- LG2_SHORT (R166). Short unary form of LG2.f32. -/
  | lg2Short (f : Short)
  /-- SIN (R166). Sine within an absolute bound. -/
  | sin (f : Long)
  /-- COS (R166). Cosine within an absolute bound. -/
  | cos (f : Long)
  /-- TANH (R166). Hyperbolic tangent within 2 ulp. -/
  | tanh (f : Long)
  /-- TANH_SHORT (R166). Short unary form of TANH.f32. -/
  | tanhShort (f : Short)
  /-- MOV (R169). Per-lane register move. -/
  | mov (f : Long)
  /-- MOV_SHORT (R169). Short unary form of MOV.b32. -/
  | movShort (f : Short)
  /-- MOVI (R169). Reads the register indexed per lane from a base register, zero out of range. -/
  | movi (f : Long)
  /-- PRMT (R169). Assembles a word from selected bytes of two operands. -/
  | prmt (f : Long)
  /-- SHFL (R170). Gives each active lane another tile lane's value by index, up, down or xor. -/
  | shfl (f : Long)
  /-- SHFL_IDX_SHORT (R170). Short form of SHFL.idx.b32. -/
  | shflIdxShort (f : Short)
  /-- SHFL_UP_SHORT (R170). Short form of SHFL.up.b32. -/
  | shflUpShort (f : Short)
  /-- SHFL_DOWN_SHORT (R170). Short form of SHFL.down.b32. -/
  | shflDownShort (f : Short)
  /-- SHFL_XOR_SHORT (R170). Short form of SHFL.xor.b32. -/
  | shflXorShort (f : Short)
  /-- VOTE (R171). Votes a predicate across the tile's active lanes, optionally with a tally. -/
  | vote (f : Long)
  /-- MATCH (R171). Writes the mask of tile lanes holding an equal value. -/
  | matchLanes (f : Long)
  /-- REDUX (R172). Reduces the active tile lanes' values and writes the result to each. -/
  | redux (f : Long)
  /-- REDUX_ADD_SHORT (R172). Short unary form of REDUX.add.i32. -/
  | reduxAddShort (f : Short)
  /-- REDUX_MAX_SHORT (R172). Short unary form of REDUX.max.i32. -/
  | reduxMaxShort (f : Short)
  /-- SCAN (R172). Writes an inclusive or exclusive prefix fold over the active tile lanes. -/
  | scan (f : Long)
  /-- COMPRESS (R173). Packs the selected lanes' values into the low lanes of the tile, with a count. -/
  | compress (f : Long)
  /-- EXPAND (R173). Spreads low-lane values to the selected lanes of the tile. -/
  | expand (f : Long)
  /-- PART (R174). Sets the warp's tile size from the next clause. -/
  | part (f : Long)
  /-- LDS (R177). Per-lane load from the cluster pool. -/
  | lds (f : Long)
  /-- LDS_B32_SHORT (R177). Short form of LDS.b32 addressing [a + b]. -/
  | ldsB32Short (f : Short)
  /-- LDS_B64_SHORT (R177). Short form of LDS.b64 addressing [a + b]. -/
  | ldsB64Short (f : Short)
  /-- LDSM (R177). Per-lane load of 1 to 8 registers from the pool. -/
  | ldsm (f : Long)
  /-- STS (R177). Per-lane store to the cluster pool. -/
  | sts (f : Long)
  /-- STS_B32_SHORT (R177). Short form of STS.b32 with data from the DST register. -/
  | stsB32Short (f : Short)
  /-- STS_B64_SHORT (R177). Short form of STS.b64 with data from the DST pair. -/
  | stsB64Short (f : Short)
  /-- ATOMS (R178). Pool atomic returning the old value, applied as groups at the target core. -/
  | atoms (f : Long)
  /-- REDS (R178). Pool reduction without a returned value. -/
  | reds (f : Long)
  /-- STG (R181). Writes bytes into the core's staging buffer tagged with a scope. -/
  | stg (f : Long)
  /-- ATOMG (R179). Global atomic sent per address group to the line's home, returning old values. -/
  | atomg (f : Long)
  /-- REDG (R179). Global reduction sent to the line's home without a returned value. -/
  | redg (f : Long)
  /-- GATHER (R183). Copies one global element per lane into the pool, taking tiles and crediting a barrier. -/
  | gather (f : Long)
  /-- TCOPY (R193). Engine copy of a tensor box from global memory into the pool of one or more members. -/
  | tcopy (f : Long)
  /-- TSTORE (R194). Engine copy of a pool box to a global tensor, published at a named scope. -/
  | tstore (f : Long)
  /-- PCOPY (R192). Engine copy of a byte range between pool members, overlap-safe. -/
  | pcopy (f : Long)
  /-- PCOPY_R (R195). Engine copy of a pool record's box densely in destination order. -/
  | pcopyR (f : Long)
  /-- BLOAD (R196). Engine copy of a tensor box into the column store. -/
  | bload (f : Long)
  /-- PREFT (R198). Fills home L2 slices with the box's lines with no visible effect. -/
  | preft (f : Long)
  /-- TOWN (R199). Per-lane query of a pool tile's owner bit and count. -/
  | town (f : Long)
  /-- ROWZF (R253). Zero-fills a 64 KiB frame at its homes and stack, then credits. -/
  | rowzf (f : Long)
  /-- ROWCP (R253). Copies a 64 KiB frame to another frame at the stack, then credits. -/
  | rowcp (f : Long)
  /-- QPOST (R268). Posts a decode query over a KV window to the stacks' bank attention units. -/
  | qpost (f : Long)
  /-- QMERGE (R273). Folds an array of bank triples into one, optionally normalised. -/
  | qmerge (f : Long)
  /-- MMA (R214). Parks the group's lanes at a matrix product until the convergence round closes. -/
  | mma (f : Long)
  /-- MMAS (R220). Engine matrix sweep of pool A panels against column-store B, accumulating D in the pool. -/
  | mmas (f : Long)
  /-- KSET (R209). Claims a convergence register for the warp and sets its convergence set. -/
  | kset (f : Long)
  /-- SIGN (R210). Signs the guarded lanes into, or drops them from, the current round. -/
  | sign (f : Long)
  /-- CHLD (R226). Loads a chain into a block chain slot after its running sweeps finish. -/
  | chld (f : Long)
  /-- CHRUN (R229). Runs a chain once per guarded lane on registers. -/
  | chrun (f : Long)
  /-- CHRUN_TILE (R230). Engine command running a chain over tensors described by iterator slots. -/
  | chrunTile (f : Long)
  /-- ITSET (R227). Stores a tensor record and origin in a warp iterator slot. -/
  | itset (f : Long)
  /-- BINIT (R237). Writes a barrier object's reset values. -/
  | binit (f : Long)
  /-- ARRIVE (R238). Releases, then counts arrivals, drops or joins on barrier objects and returns tokens. -/
  | arrive (f : Long)
  /-- EXPECT (R239). Adds expected bytes to a barrier object's current phase. -/
  | expect (f : Long)
  /-- WAITP (R240). Releases and returns or parks each lane until its token's phase is complete. -/
  | waitp (f : Long)
  /-- BTEST (R241). Tests a token's completion without parking, acquiring when true. -/
  | btest (f : Long)
  /-- FENCE (R242). Phase boundary with release and acquire at a scope. -/
  | fence (f : Long)
  /-- CSYNC (R243). Hardware barrier across the cluster, or the block with .block. -/
  | csync (f : Long)
  /-- DSYNC (R243). Hardware superstep barrier across a die-level index. -/
  | dsync (f : Long)
  /-- GSYNC (R243). Hardware superstep barrier across the launch. -/
  | gsync (f : Long)
  /-- TWAIT (R246). Releases and registers watches at the homes, parking until an answer. -/
  | twait (f : Long)
  /-- XBEGIN (R250). Opens a transaction for the warp. -/
  | xbegin (f : Long)
  /-- XEND (R251). Validates and commits or discards the transaction's write set, then acquires. -/
  | xend (f : Long)
  /-- XABORT (R251). Discards the write set and closes the transaction with a user code. -/
  | xabort (f : Long)
  /-- RDSR (R254). Reads a special register. -/
  | rdsr (f : Long)
  /-- RDSR_SHORT (R254). Short unary form of RDSR taking the register from a direct code. -/
  | rdsrShort (f : Short)
  /-- WRSR (R254). Writes an RW special register. -/
  | wrsr (f : Long)
  /-- TRAP (R255). Stops the guarded lanes with software trap cause 0xE0 + n. -/
  | trap (f : Long)
  /-- BPT (R255). Stops the guarded lanes with cause 0xC1. -/
  | bpt (f : Long)
  /-- TRET (R313). Releases and resumes the trapped warp's stopped lanes, ending the handler. -/
  | tret (f : Long)
  /-- RDTR (R256). Handler reads a trapped-state item of the trapped lane. -/
  | rdtr (f : Long)
  /-- WRTR (R256). Handler writes a trapped-state item of the trapped lane. -/
  | wrtr (f : Long)
  /-- BAREDIT (R257). Handler sets or adds to a barrier object field, then runs FlipCheck. -/
  | baredit (f : Long)
  /-- CLAUSE_ISSUE (R21). The quadrant grants a slot, selects the oldest eligible PC, fetches and checks the clause and runs it with the issue group. -/
  | clauseIssue (c : Nat) (q : Nat) (n : Nat)
  /-- RCV_HOLD_EXPIRY (R23). After 32 issue slots held threads become eligible with their count intact. -/
  | rcvHoldExpiry (c : Nat) (q : Nat) (n : Nat)
  /-- AGE_SWAP (R284). A ready pending warp that waited 2,048 clk displaces the longest-active warp. -/
  | ageSwap (c : Nat) (q : Nat)
  /-- CONGESTION_LEVEL (R285). A congestion-level message from a source sets the core's cap on active warps. -/
  | congestionLevel (c : Nat) (src : Nat) (lvl : Nat)
  /-- CONGESTION_LEVEL_EXPIRY (R285). A level not resent within 4,096 sclk lapses and the cap is recomputed. -/
  | congestionLevelExpiry (c : Nat) (src : Nat)
  /-- POOL_ACCESS_AT_TARGET (R50). A pool access arriving over the Causeway performs at the target core. -/
  | poolAccessAtTarget (c : Nat) (q : Nat) (n : Nat)
  /-- STAGING_EARLY_PUBLISH (R72). The staging buffer publishes an entry to home or system level on its own. -/
  | stagingEarlyPublish (n : Nat)
  /-- HOME_APPLY_PUBLICATION (R55). A publication, engine store or mailbox write is applied at the line's home slice. -/
  | homeApplyPublication (n : Nat)
  /-- PUBLICATION_ACK (R54). A home's acknowledgement raises an entry's level and frees it, letting waiting STGs proceed. -/
  | publicationAck (n : Nat)
  /-- BOUNDARY_RELEASE_COMPLETE (R73). A phase boundary's raised entries reach their level and the group acquires. -/
  | boundaryReleaseComplete (c : Nat) (q : Nat) (n : Nat)
  /-- L2_WRITEBACK (R55). A slice writes back a line's dirty sectors in one WRITE packet. -/
  | l2Writeback (line : Nat)
  /-- ATOMIC_GROUP_APPLY (R178). A global atomic group is applied indivisibly at the line's home. -/
  | atomicGroupApply (n : Nat) (atStack : Bool)
  /-- HOST_ATOMICOP (R180). The PCIe port issues one host AtomicOp per lane after the previous completes. -/
  | hostAtomicop (n : Nat)
  /-- STACK_READ (R64). A READ packet is served by the stack base die, expanding compressed sectors. -/
  | stackRead (n : Nat)
  /-- STACK_WRITE (R64). A WRITE packet is applied by the stack base die, recomputing masks. -/
  | stackWrite (n : Nat)
  /-- STACK_ATOMIC (R62). An ATOMIC packet is applied by the stack base die. -/
  | stackAtomic (n : Nat)
  /-- STACK_QUERY (R270). A QUERY packet is split into chunks after earlier writes to the frame. -/
  | stackQuery (n : Nat)
  /-- STACK_ROWOP (R253). A ROWOP packet performs a zero-fill or copy in DRAM, through the buffer or by streaming. -/
  | stackRowop (n : Nat)
  /-- STACK_CTRL (R63). A CTRL packet sets frame metadata, refresh or retirement. -/
  | stackCtrl (frame : Nat) (md : FrameMeta)
  /-- STACK_REPLY (R62). A stack reply arrives at the slice, matched by tag, freeing the tag. -/
  | stackReply (n : Nat)
  /-- QUERY_CHUNK (R270). A bank serves one row chunk of a query under the sharing rules. -/
  | queryChunk (n : Nat)
  /-- STACK_REFRESH (R270). A bank is refreshed within HBM4E limits, delaying chunks. -/
  | stackRefresh (st : Nat) (mult : Nat) (temp : Nat)
  /-- QUERY_TRIPLE_RETURN (R268). A bank's triple is written to the result area; after the last, the QPOST credits and releases. -/
  | queryTripleReturn (n : Nat)
  /-- ROWOP_COMPLETE (R253). Destination lines are applied and unlocked, source holds released and the command credits. -/
  | rowopComplete (n : Nat)
  /-- IRTCTL_ACT_WRITE (R57). Writing ACT switches the interleave generation after a shelf comparison, or is ignored with ERR. -/
  | irtctlActWrite (v : DWord)
  /-- DRAIN_CLEAR (R57). Old-generation requests complete and write-backs finish, so DRAIN clears. -/
  | drainClear
  /-- ENGINE_TILE_LAND (R52). An engine tile's last bytes land, it is credited and released, and held commands re-examined. -/
  | engineTileLand (n : Nat)
  /-- BARRIER_CREDIT (R190). An engine credit reaches a barrier object on another core and is added to LANDB. -/
  | barrierCredit (n : Nat)
  /-- MMA_RESULT_WRITE (R217). The product's D registers are written and the counter falls. -/
  | mmaResultWrite (n : Nat)
  /-- MMAS_STEP (R220). One row-block, column-group and K-chunk step of a sweep runs, with credits and granule boundaries. -/
  | mmasStep (n : Nat)
  /-- CHRUN_TILE_ROW (R230). One row of a chain sweep is read, computed and written, or parks on migration. -/
  | chrunTileRow (n : Nat)
  /-- HW_BARRIER_COMPLETE (R243). A hardware barrier instance completes after its engine drain and all participants acquire. -/
  | hwBarrierComplete (n : Nat)
  /-- WATCH_REGISTER (R246). A watch reaches its home and is answered on entry or registered in the table or spill list. -/
  | watchRegister (n : Nat)
  /-- WATCH_ANSWER (R248). A watch answer reaches the core and its lanes return with the status. -/
  | watchAnswer (n : Nat)
  /-- TWAIT_TIMEOUT (R248). The timeout passes and the core sends a cancel to the home. -/
  | twaitTimeout (n : Nat)
  /-- WATCH_CANCEL (R248). A cancel reaches the home, which answers timeout unless a satisfying answer was sent. -/
  | watchCancel (n : Nat)
  /-- LAUNCH_RECORD_READ (R276). The scheduler reads the record at RIDX and advances it, or stops an unreadable queue. -/
  | launchRecordRead (t : Nat) (q : Nat)
  /-- LAUNCH_START (R278). A launch whose dependences are met copies its parameters and becomes placeable. -/
  | launchStart (n : Nat)
  /-- DEPENDENCE_WATCH_RETRY (R391). A dependence watch that found no room is retried every 2^16 sclk. -/
  | dependenceWatchRetry (n : Nat)
  /-- CLUSTER_GRANT (R280). With cores free, the scheduler grants a cluster by priority and deficit round robin. -/
  | clusterGrant
  /-- STARVATION_BOOST (R281). A queue ungranted for 2^24 sclk gets BOOST and one priority level more. -/
  | starvationBoost (t : Nat) (q : Nat)
  /-- WARP_RETIRE (R41). A warp retires once its threads exited, staging published and engines credited. -/
  | warpRetire (c : Nat) (q : Nat) (n : Nat)
  /-- LAUNCH_COMPLETE (R279). After its last cluster retires the launch publishes at .system and advances its completion counter. -/
  | launchComplete (n : Nat)
  /-- PREEMPT_PRIORITY (R286). A higher-priority cluster waiting 2^22 sclk triggers a save of a lower-priority victim. -/
  | preemptPriority
  /-- TCTL_SUSP_WRITE (R286). Setting SUSP saves every fitting unit of the tenant and stops its grants. -/
  | tctlSuspWrite (t : Nat) (v : DWord)
  /-- CONTEXT_SAVE_COMPLETE (R287). After drains the saved state is written and the cores freed. -/
  | contextSaveComplete (n : Nat)
  /-- SAVE_HELD_TIMEOUT (R393). A save unfinished after 2^24 sclk appends cause 0x66 once. -/
  | saveHeldTimeout (n : Nat)
  /-- CONTEXT_RESUME (R289). A saved cluster is restored on granted cores and its engine records restarted. -/
  | contextResume (n : Nat)
  /-- QIDX_WIDX_WRITE (R276). A write advancing WIDX appends records, or is ignored with a queue error on overflow. -/
  | qidxWidxWrite (t : Nat) (q : Nat) (v : DWord)
  /-- TLBINV_GO (R297). Writing GO starts a shoot-down, or sets ERR while busy. -/
  | tlbinvGo (v : DWord)
  /-- TLBINV_COMPLETE (R297). Entries dropped, accesses performed, staging published and watches cancelled, so BUSY clears. -/
  | tlbinvComplete
  /-- OPERAND_LOG_REPLAY (R301). A ready log entry replays from translation, performs and frees its entry. -/
  | operandLogReplay (c : Nat) (q : Nat) (n : Nat)
  /-- FAULT_UNIT_MIGRATE (R302). The fault unit takes parks on a page as one request and promotes or demotes it. -/
  | faultUnitMigrate (t : Nat) (va : Nat)
  /-- PAGE_REVIVE (R305). A write to a discarded page revives it into a zeroed fast-tier frame. -/
  | pageRevive (t : Nat) (va : Nat)
  /-- REMOTE_HOME_REQUEST (R306). An owner device's fault unit resolves a peer's translation request and replies. -/
  | remoteHomeRequest (t : Nat) (va : Nat)
  /-- REMOTE_HOME_REPLY (R306). The owner's reply arrives; a peer-window leaf is written and entries marked ready. -/
  | remoteHomeReply (t : Nat) (va : Nat) (ok : Bool) (leaf : DWord)
  /-- REMOTE_HOME_TIMEOUT (R374). No reply within 1 ms reports cause 0x41 subcode 2. -/
  | remoteHomeTimeout (t : Nat) (va : Nat)
  /-- FRAME_RETIRE (R377). A frame reported bad is retired and its page moved. -/
  | frameRetire (pfn : Nat)
  /-- HANDLER_START (R312). A trapped warp's handler starts in the freed handler slot. -/
  | handlerStart (c : Nat) (q : Nat)
  /-- WCTL_RESUME (R317). Resumes a stopped warp as TRET does. -/
  | wctlResume (c : Nat)
  /-- WCTL_KILL (R317). Makes every live thread of the warp exit. -/
  | wctlKill (c : Nat)
  /-- WCTL_HALT (R317). Stops every non-parked live lane at its next clause boundary with cause 0xC4. -/
  | wctlHalt (c : Nat)
  /-- WCTL_STEP_ON (R317). Sets the warp's step bit. -/
  | wctlStepOn (c : Nat)
  /-- WCTL_STEP_OFF (R317). Clears the warp's step bit. -/
  | wctlStepOff (c : Nat)
  /-- TARSOR_CELL_SEND (R322). A sender transmits a cell on a channel once its allowance is positive. -/
  | tarsorCellSend (link : Nat) (cell : Cell)
  /-- TARSOR_DATA_CELL (R323). A data cell is accepted in SEQ order or discarded with a replay request. -/
  | tarsorDataCell (link : Nat) (cell : Cell)
  /-- TARSOR_DEDUP_REFERENCE (R324). A reference cell delivers a history entry or triggers a replay. -/
  | tarsorDedupReference (link : Nat) (cell : Cell)
  /-- TARSOR_REPLAY_REQUEST (R323). A replay request makes the sender resend unacknowledged cells in order. -/
  | tarsorReplayRequest (link : Nat) (cell : Cell)
  /-- TARSOR_IDLE_CELL (R322). An idle cell carries acknowledgement and buffer credit only. -/
  | tarsorIdleCell (link : Nat) (cell : Cell)
  /-- LINK_REPLAY_LIMIT (R385). One SEQ replayed 16 times retrains the link. -/
  | linkReplayLimit (link : Nat)
  /-- LINK_ACK_TIMEOUT (R385). No acknowledgement for 100 µs retrains the link. -/
  | linkAckTimeout (link : Nat)
  /-- LINK_TRAINING_DONE (R385). Training ends: the link is up and resends, or after three failures it fails. -/
  | linkTrainingDone (link : Nat) (ok : Bool)
  /-- TLCTL_RETRAIN (R385). Writing RETRAIN retrains a link. -/
  | tlctlRetrain (link : Nat)
  /-- TLCTL_EN_WRITE (R327). Enabling an external port starts its training. -/
  | tlctlEnWrite (link : Nat) (v : DWord)
  /-- MBHEAD_WRITE (R326). The host announces commands, or the write is ignored with MBOVR. -/
  | mbheadWrite (v : DWord)
  /-- MB_WRITE (R326). Mailbox WRITE applies host bytes at their homes published at .system. -/
  | mbWrite (cmd : MbCmd)
  /-- MB_READ (R326). Mailbox READ copies device bytes read at the home to the host. -/
  | mbRead (cmd : MbCmd)
  /-- MB_REGWR (R408). Mailbox REGWR writes a management register named by number. -/
  | mbRegwr (cmd : MbCmd)
  /-- MB_REGRD (R408). Mailbox REGRD returns a management register's value to the host. -/
  | mbRegrd (cmd : MbCmd)
  /-- MB_MIGRATE (R302). Mailbox MIGRATE promotes or demotes a page and reports a status. -/
  | mbMigrate (cmd : MbCmd)
  /-- MB_SAVE (R286). Mailbox SAVE saves one context if the save region holds it. -/
  | mbSave (cmd : MbCmd)
  /-- MB_IMAGE (R399). Mailbox IMAGE places a recovery image chunk and checks it on the last chunk. -/
  | mbImage (cmd : MbCmd)
  /-- MODULE_RESET (R327). Module reset starts bring-up from stage 0. -/
  | moduleReset
  /-- ROM_AND_FUSES (R327). Stage 1 runs ROM self-check and fuse read on each die. -/
  | romAndFuses (fail : Option Diag)
  /-- CALIBRATION (R327). Stage 2 locks PLLs, tests bonds and trains the far seam and HBM4E PHYs. -/
  | calibration (fail : Option Diag)
  /-- ELECTION_IDENTIFIER (R328). A die's identifier arrives; the lowest becomes headland once all five are received. -/
  | electionIdentifier (die : Nat) (src : Nat) (id : DWord)
  /-- ELECTION_TIMEOUT (R328). A die missing after 50 ms fails the election. -/
  | electionTimeout (die : Nat)
  /-- VERIFICATION (R329). The headland checks the firmware image, entering recovery on failure. -/
  | verification
  /-- FIRMWARE_START (R327). Stage 5 starts the verified firmware. -/
  | firmwareStart
  /-- FIRMWARE_START_TIMEOUT (R397). Firmware not reaching stage 6 within 1 s fails the module. -/
  | firmwareStartTimeout
  /-- MEMORY_INITIALISATION (R330). Firmware zeroes memory, sets metadata and fw fields, then sets READY. -/
  | memoryInitialisation (fail : Option Diag)
  /-- THERMAL_TRIP (R333). A die at 105 °C stops issue and clears READY. -/
  | thermalTrip (die : Nat)
  /-- POWER_TOKEN_PASS (R332). Every 1,024 sclk the ring refills each context's budget by weight. -/
  | powerTokenPass (die : Nat)
  /-- EQIDX_CIDX_WRITE (R351). Writing CIDX consumes records, or is ignored if it would exceed the slot count. -/
  | eqidxCidxWrite (n : Nat) (v : DWord)
  /-- EQCTL_CLR (R351). Writing CLR clears the lost-record count. -/
  | eqctlClr (n : Nat)
  /-- TENANT_RESET (R378). Writing TRST GO stops and discards all of one tenant's work. -/
  | tenantReset (t : Nat)
  /-- TENANT_RESET_COMPLETE (R378). After the far seam drains the tenant's cells BUSY clears and cause 0x4A is appended. -/
  | tenantResetComplete (t : Nat)
  /-- REGISTER_WRITE (R5). A write to a register with no row of its own changes only the fields its access codes allow. -/
  | registerWrite (num : Nat) (v : DWord)
  /-- COOLANT_OR_DIE_TEMPERATURE_CHANGE (R333). When coolant flow falls, the inlet warms or a die's temperature nears its limit, firmware lowers PWRDIE.TOK in proportion. -/
  | coolantOrDieTemperatureChange (flow : Nat) (tin : Nat) (tmax : Nat)
  deriving DecidableEq, Repr

end Sys2Proof
end

