-- ==== Sys2Proof/WellFormed.lean ====
section
/-! DEFINITION. Which terms of Instr stand for something the spec admits: the form bit that tells PCOPY from PCOPY.r
and CHRUN from CHRUN.tile (R195, R228), and operands of a device step that name an agent of this module. A field whose
value is reserved is no ill-formed term: the instruction itself checks it when it issues (R111, R355). -/

namespace Sys2Proof

/-- The bit MOD[60] of Table 9.13 and Table 10.14, in the field MOD[63:52]. -/
def Long.form (f : Long) : Bool := f.md.getLsbD 8

/-- Well-formed terms. -/
def Instr.wf : Instr → Bool
  | .bra _ => true
  | .brx _ => true
  | .call _ => true
  | .callx _ => true
  | .ret _ => true
  | .exit _ => true
  | .exitShort _ => true
  | .rcv _ => true
  | .yield _ => true
  | .yieldShort _ => true
  | .nop _ => true
  | .nopShort _ => true
  | .launch _ => true
  | .smov _ => true
  | .smovShort _ => true
  | .sadd _ => true
  | .saddShort _ => true
  | .ssub _ => true
  | .ssubShort _ => true
  | .smul _ => true
  | .smulShort _ => true
  | .smad _ => true
  | .sand _ => true
  | .sandShort _ => true
  | .sor _ => true
  | .sorShort _ => true
  | .sxor _ => true
  | .sxorShort _ => true
  | .sshl _ => true
  | .sshlShort _ => true
  | .sshr _ => true
  | .sshrShort _ => true
  | .ssha _ => true
  | .scmp _ => true
  | .ssel _ => true
  | .sldp _ => true
  | .sldpShort _ => true
  | .iadd _ => true
  | .iaddShort _ => true
  | .iadd3 _ => true
  | .isub _ => true
  | .isubShort _ => true
  | .imul _ => true
  | .imulShort _ => true
  | .imulh _ => true
  | .imulhI32Short _ => true
  | .imulhN32Short _ => true
  | .imad _ => true
  | .imadw _ => true
  | .imin _ => true
  | .iminI32Short _ => true
  | .iminN32Short _ => true
  | .imax _ => true
  | .imaxI32Short _ => true
  | .imaxN32Short _ => true
  | .iabs _ => true
  | .iabsShort _ => true
  | .isad _ => true
  | .shl _ => true
  | .shlShort _ => true
  | .shr _ => true
  | .shrShort _ => true
  | .sha _ => true
  | .shaShort _ => true
  | .shf _ => true
  | .lop3 _ => true
  | .lop3AndShort _ => true
  | .lop3OrShort _ => true
  | .lop3XorShort _ => true
  | .popc _ => true
  | .popcShort _ => true
  | .clz _ => true
  | .clzShort _ => true
  | .brev _ => true
  | .brevShort _ => true
  | .bfe _ => true
  | .bfi _ => true
  | .icmp _ => true
  | .isel _ => true
  | .lea _ => true
  | .lea64 _ => true
  | .pset _ => true
  | .plop _ => true
  | .pmov _ => true
  | .fadd _ => true
  | .faddShort _ => true
  | .fmul _ => true
  | .fmulShort _ => true
  | .ffma _ => true
  | .fmin _ => true
  | .fminShort _ => true
  | .fmax _ => true
  | .fmaxShort _ => true
  | .fcmp _ => true
  | .fclass _ => true
  | .frnd _ => true
  | .fscale _ => true
  | .hadd2 _ => true
  | .hadd2F16Short _ => true
  | .hadd2Bf16Short _ => true
  | .hmul2 _ => true
  | .hmul2F16Short _ => true
  | .hmul2Bf16Short _ => true
  | .hfma2 _ => true
  | .hmnmx2 _ => true
  | .dadd _ => true
  | .daddShort _ => true
  | .dmul _ => true
  | .dmulShort _ => true
  | .dfma _ => true
  | .dcmp _ => true
  | .dmnmx _ => true
  | .cvt _ => true
  | .cvtF32I32Short _ => true
  | .cvtI32F32Short _ => true
  | .cvtBf16F32Short _ => true
  | .cvtF32Bf16Short _ => true
  | .cvtp _ => true
  | .cvtq _ => true
  | .rcp _ => true
  | .rcpShort _ => true
  | .rsq _ => true
  | .rsqShort _ => true
  | .sqrt _ => true
  | .sqrtShort _ => true
  | .ex2 _ => true
  | .ex2Short _ => true
  | .lg2 _ => true
  | .lg2Short _ => true
  | .sin _ => true
  | .cos _ => true
  | .tanh _ => true
  | .tanhShort _ => true
  | .mov _ => true
  | .movShort _ => true
  | .movi _ => true
  | .prmt _ => true
  | .shfl _ => true
  | .shflIdxShort _ => true
  | .shflUpShort _ => true
  | .shflDownShort _ => true
  | .shflXorShort _ => true
  | .vote _ => true
  | .matchLanes _ => true
  | .redux _ => true
  | .reduxAddShort _ => true
  | .reduxMaxShort _ => true
  | .scan _ => true
  | .compress _ => true
  | .expand _ => true
  | .part _ => true
  | .lds _ => true
  | .ldsB32Short _ => true
  | .ldsB64Short _ => true
  | .ldsm _ => true
  | .sts _ => true
  | .stsB32Short _ => true
  | .stsB64Short _ => true
  | .atoms _ => true
  | .reds _ => true
  | .stg _ => true
  | .atomg _ => true
  | .redg _ => true
  | .gather _ => true
  | .tcopy _ => true
  | .tstore _ => true
  | .pcopy f => !f.form
  | .pcopyR f => f.form
  | .bload _ => true
  | .preft _ => true
  | .town _ => true
  | .rowzf _ => true
  | .rowcp _ => true
  | .qpost _ => true
  | .qmerge _ => true
  | .mma _ => true
  | .mmas _ => true
  | .kset _ => true
  | .sign _ => true
  | .chld _ => true
  | .chrun f => !f.form
  | .chrunTile f => f.form
  | .itset _ => true
  | .binit _ => true
  | .arrive _ => true
  | .expect _ => true
  | .waitp _ => true
  | .btest _ => true
  | .fence _ => true
  | .csync _ => true
  | .dsync _ => true
  | .gsync _ => true
  | .twait _ => true
  | .xbegin _ => true
  | .xend _ => true
  | .xabort _ => true
  | .rdsr _ => true
  | .rdsrShort _ => true
  | .wrsr _ => true
  | .trap _ => true
  | .bpt _ => true
  | .tret _ => true
  | .rdtr _ => true
  | .wrtr _ => true
  | .baredit _ => true
  | .clauseIssue c q n => decide (c < Config.cores) && decide (q < Config.quads) && decide (n ≤ Config.slots)
  | .rcvHoldExpiry c q n => decide (c < Config.cores) && decide (q < Config.quads) && decide (n ≤ Config.slots)
  | .ageSwap c q => decide (c < Config.cores) && decide (q < Config.quads)
  | .congestionLevel c src lvl => decide (c < Config.cores) && decide (src < Config.cores) && decide (lvl < 4)
  | .congestionLevelExpiry c src => decide (c < Config.cores) && decide (src < Config.cores)
  | .poolAccessAtTarget c q n => decide (c < Config.cores) && decide (q < Config.quads) && decide (n ≤ Config.slots)
  | .stagingEarlyPublish _ => true
  | .homeApplyPublication _ => true
  | .publicationAck _ => true
  | .boundaryReleaseComplete c q n => decide (c < Config.cores) && decide (q < Config.quads) && decide (n ≤ Config.slots)
  | .l2Writeback _ => true
  | .atomicGroupApply _ _ => true
  | .hostAtomicop _ => true
  | .stackRead _ => true
  | .stackWrite _ => true
  | .stackAtomic _ => true
  | .stackQuery _ => true
  | .stackRowop _ => true
  | .stackCtrl _ _ => true
  | .stackReply _ => true
  | .queryChunk _ => true
  | .stackRefresh st _ _ => decide (st < Config.stackCount)
  | .queryTripleReturn _ => true
  | .rowopComplete _ => true
  | .irtctlActWrite _ => true
  | .drainClear => true
  | .engineTileLand _ => true
  | .barrierCredit _ => true
  | .mmaResultWrite _ => true
  | .mmasStep _ => true
  | .chrunTileRow _ => true
  | .hwBarrierComplete _ => true
  | .watchRegister _ => true
  | .watchAnswer _ => true
  | .twaitTimeout _ => true
  | .watchCancel _ => true
  | .launchRecordRead t q => decide (t < Config.tenants) && decide (q < Config.queues)
  | .launchStart _ => true
  | .dependenceWatchRetry _ => true
  | .clusterGrant => true
  | .starvationBoost t q => decide (t < Config.tenants) && decide (q < Config.queues)
  | .warpRetire c q n => decide (c < Config.cores) && decide (q < Config.quads) && decide (n ≤ Config.slots)
  | .launchComplete _ => true
  | .preemptPriority => true
  | .tctlSuspWrite t _ => decide (t < Config.tenants)
  | .contextSaveComplete _ => true
  | .saveHeldTimeout _ => true
  | .contextResume _ => true
  | .qidxWidxWrite t q _ => decide (t < Config.tenants) && decide (q < Config.queues)
  | .tlbinvGo _ => true
  | .tlbinvComplete => true
  | .operandLogReplay c q n => decide (c < Config.cores) && decide (q < Config.quads) && decide (n ≤ Config.slots)
  | .faultUnitMigrate t va => decide (t < Config.tenants) && decide (va < 2 ^ 60)
  | .pageRevive t va => decide (t < Config.tenants) && decide (va < 2 ^ 60)
  | .remoteHomeRequest t va => decide (t < Config.tenants) && decide (va < 2 ^ 60)
  | .remoteHomeReply t va _ _ => decide (t < Config.tenants) && decide (va < 2 ^ 60)
  | .remoteHomeTimeout t va => decide (t < Config.tenants) && decide (va < 2 ^ 60)
  | .frameRetire pfn => decide (pfn < 2 ^ 31)
  | .handlerStart c q => decide (c < Config.cores) && decide (q < Config.quads)
  | .wctlResume c => decide (c < Config.cores)
  | .wctlKill c => decide (c < Config.cores)
  | .wctlHalt c => decide (c < Config.cores)
  | .wctlStepOn c => decide (c < Config.cores)
  | .wctlStepOff c => decide (c < Config.cores)
  | .tarsorCellSend link cell => decide (link < Config.links) && decide (cell.payload.length = 52)
  | .tarsorDataCell link cell => decide (link < Config.links) && decide (cell.payload.length = 52)
  | .tarsorDedupReference link cell => decide (link < Config.links) && decide (cell.payload.length = 52)
  | .tarsorReplayRequest link cell => decide (link < Config.links) && decide (cell.payload.length = 52)
  | .tarsorIdleCell link cell => decide (link < Config.links) && decide (cell.payload.length = 52)
  | .linkReplayLimit link => decide (link < Config.links)
  | .linkAckTimeout link => decide (link < Config.links)
  | .linkTrainingDone link _ => decide (link < Config.links)
  | .tlctlRetrain link => decide (link < Config.links)
  | .tlctlEnWrite link _ => decide (link < Config.links)
  | .mbheadWrite _ => true
  | .mbWrite _ => true
  | .mbRead _ => true
  | .mbRegwr _ => true
  | .mbRegrd _ => true
  | .mbMigrate _ => true
  | .mbSave _ => true
  | .mbImage _ => true
  | .moduleReset => true
  | .romAndFuses _ => true
  | .calibration _ => true
  | .electionIdentifier die src _ => decide (die < 6) && decide (src < 6)
  | .electionTimeout die => decide (die < 6)
  | .verification => true
  | .firmwareStart => true
  | .firmwareStartTimeout => true
  | .memoryInitialisation _ => true
  | .thermalTrip die => decide (die < 6)
  | .powerTokenPass die => decide (die < 4)
  | .eqidxCidxWrite n _ => decide (n ≤ Config.tenants)
  | .eqctlClr n => decide (n ≤ Config.tenants)
  | .tenantReset t => decide (t < Config.tenants)
  | .tenantResetComplete t => decide (t < Config.tenants)
  | .registerWrite num _ => decide (num < 2 ^ 32)
  | .coolantOrDieTemperatureChange _ _ _ => true

end Sys2Proof
end

