-- ==== Sys2Proof/Decode.lean ====
section
/-! DEFINITION. The decoder and the encoder, from Tables 6.1, 6.5, 6.6, 6.10 and 6.11. Decoding is total on any
parcels and rejects by name. Fields that an instruction requires to hold something are not judged here (R111). -/

namespace Sys2Proof

/-- Why parcels do not begin an instruction. -/
inductive Reject where
  /-- There are fewer parcels than the length code says. -/
  | truncated
  /-- Length code 0b11: a clause header (Table 6.1). -/
  | header
  /-- The long opcode is unassigned (R124, R357). -/
  | opcode (opc : Nat)
  deriving DecidableEq, Repr

/-- The length code of a parcel (Table 6.1). -/
def lengthCode (w : Word) : Nat := w.toNat % 4

/-- Parcels of the item that begins with `w`: 1, 2 or 3; a header counts 2 (Table 6.1). -/
def itemParcels (w : Word) : Nat :=
  match lengthCode w with
  | 0 => 1
  | 1 => 2
  | 2 => 3
  | _ => 2

/-- OPC of a long form (Table 6.5). -/
def opcOf (w : Word) : Nat := (w.extractLsb' 2 10).toNat

/-- The fields of Table 6.5: `w0` holds bits [31:0], `w1` bits [63:32]. -/
def longFields (w0 w1 : Word) (lit : Option Word) : Long :=
  let x : DWord := w1 ++ w0
  { md := x.extractLsb' 52 12, gn := x.getLsbD 51, gp := x.extractLsb' 48 3, c := x.extractLsb' 39 9,
    b := x.extractLsb' 30 9, a := x.extractLsb' 21 9, nowb := x.getLsbD 20, dst := x.extractLsb' 12 8, lit := lit }

/-- The fields of Table 6.6. -/
def shortFields (w : Word) : Short :=
  { b7 := w.extractLsb' 25 7, a := w.extractLsb' 16 9, dst := w.extractLsb' 8 8 }

/-- Group 0x00 of Table 6.10, in the order of OPC[4:0]. -/
def controlGroup : List (Long → Instr) :=
  [.bra, .brx, .call, .callx, .ret, .exit, .rcv, .yield, .nop, .launch]

/-- Group 0x01 of Table 6.10, in the order of OPC[4:0]. -/
def uniformGroup : List (Long → Instr) :=
  [.smov, .sadd, .ssub, .smul, .smad, .sand, .sor, .sxor, .sshl, .sshr, .ssha, .scmp, .ssel, .sldp]

/-- Group 0x02 of Table 6.10, in the order of OPC[4:0]. -/
def integerGroup : List (Long → Instr) :=
  [.iadd, .iadd3, .isub, .imul, .imulh, .imad, .imadw, .imin, .imax, .iabs, .isad, .shl, .shr, .sha, .shf,
   .lop3, .popc, .clz, .brev, .bfe, .bfi, .icmp, .isel]

/-- Group 0x03 of Table 6.10, in the order of OPC[4:0]. -/
def addressGroup : List (Long → Instr) :=
  [.lea, .lea64, .pset, .plop, .pmov]

/-- Group 0x04 of Table 6.10, in the order of OPC[4:0]. -/
def fp32Group : List (Long → Instr) :=
  [.fadd, .fmul, .ffma, .fmin, .fmax, .fcmp, .fclass, .frnd, .fscale]

/-- Group 0x05 of Table 6.10, in the order of OPC[4:0]. -/
def packedGroup : List (Long → Instr) :=
  [.hadd2, .hmul2, .hfma2, .hmnmx2, .dadd, .dmul, .dfma, .dcmp, .dmnmx]

/-- Group 0x06 of Table 6.10, in the order of OPC[4:0]. -/
def conversionGroup : List (Long → Instr) :=
  [.cvt, .cvtp, .cvtq, .rcp, .rsq, .sqrt, .ex2, .lg2, .sin, .cos, .tanh]

/-- Group 0x07 of Table 6.10, in the order of OPC[4:0]. -/
def laneGroup : List (Long → Instr) :=
  [.mov, .movi, .prmt, .shfl, .vote, .redux, .scan, .matchLanes, .compress, .expand, .part]

/-- Group 0x08 of Table 6.10, in the order of OPC[4:0]. -/
def poolGroup : List (Long → Instr) :=
  [.lds, .ldsm, .sts, .atoms, .reds]

/-- Group 0x09 of Table 6.10, in the order of OPC[4:0]. -/
def globalGroup : List (Long → Instr) :=
  [.stg, .atomg, .redg, .gather]

/-- Group 0x0A of Table 6.10, in the order of OPC[4:0]. -/
def engineGroup : List (Long → Instr) :=
  [.tcopy, .tstore, (fun f => if f.form then .pcopyR f else .pcopy f), .bload, .preft, .town]

/-- Group 0x0B of Table 6.10, in the order of OPC[4:0]. -/
def dramGroup : List (Long → Instr) :=
  [.rowzf, .rowcp, .qpost, .qmerge]

/-- Group 0x0C of Table 6.10, in the order of OPC[4:0]. -/
def matrixGroup : List (Long → Instr) :=
  [.mma, .mmas, .kset, .sign, .chld, (fun f => if f.form then .chrunTile f else .chrun f), .itset]

/-- Group 0x0D of Table 6.10, in the order of OPC[4:0]. -/
def syncGroup : List (Long → Instr) :=
  [.binit, .arrive, .expect, .waitp, .btest, .fence, .csync, .dsync, .gsync, .twait, .xbegin, .xend, .xabort]

/-- Group 0x0E of Table 6.10, in the order of OPC[4:0]. -/
def systemGroup : List (Long → Instr) :=
  [.rdsr, .wrsr, .trap, .bpt, .tret, .rdtr, .wrtr, .baredit]

/-- The groups of Table 6.10. -/
def longGroups : List (List (Long → Instr)) :=
  [controlGroup, uniformGroup, integerGroup, addressGroup, fp32Group, packedGroup, conversionGroup, laneGroup,
   poolGroup, globalGroup, engineGroup, dramGroup, matrixGroup, syncGroup, systemGroup]

/-- The instruction of a long opcode (R124). -/
def longInstr (opc : Nat) (f : Long) : Option Instr :=
  match longGroups[opc / 32]? with
  | none => none
  | some g => (g[opc % 32]?).map fun k => k f

/-- Table 6.11, SOP 0x00 to 0x0F. -/
def shortTable0 : List (Short → Instr) :=
  [.nopShort, .movShort, .iaddShort, .isubShort, .imulShort, .imulhI32Short, .imulhN32Short, .iminI32Short,
   .imaxI32Short, .iminN32Short, .imaxN32Short, .iabsShort, .shlShort, .shrShort, .shaShort, .lop3AndShort]

/-- Table 6.11, SOP 0x10 to 0x1F. -/
def shortTable1 : List (Short → Instr) :=
  [.lop3OrShort, .lop3XorShort, .popcShort, .clzShort, .brevShort, .faddShort, .fmulShort, .fminShort,
   .fmaxShort, .rcpShort, .rsqShort, .sqrtShort, .ex2Short, .lg2Short, .tanhShort, .hadd2F16Short]

/-- Table 6.11, SOP 0x20 to 0x2F. -/
def shortTable2 : List (Short → Instr) :=
  [.hmul2F16Short, .hadd2Bf16Short, .hmul2Bf16Short, .daddShort, .dmulShort, .cvtF32I32Short, .cvtI32F32Short,
   .cvtBf16F32Short, .cvtF32Bf16Short, .ldsB32Short, .ldsB64Short, .stsB32Short, .stsB64Short, .shflIdxShort,
   .shflUpShort, .shflDownShort]

/-- Table 6.11, SOP 0x30 to 0x3F. -/
def shortTable3 : List (Short → Instr) :=
  [.shflXorShort, .reduxAddShort, .reduxMaxShort, .smovShort, .saddShort, .ssubShort, .smulShort, .sandShort,
   .sorShort, .sxorShort, .sshlShort, .sshrShort, .sldpShort, .rdsrShort, .yieldShort, .exitShort]

/-- The instruction of a short opcode (R125). -/
def shortInstr (sop : Nat) (f : Short) : Option Instr :=
  ((shortTable0 ++ shortTable1 ++ shortTable2 ++ shortTable3)[sop]?).map fun k => k f

/-- Reading one item from parcels: the instruction and the parcels after it. -/
def decodeParcels : List Word → Except Reject (Instr × List Word)
  | [] => .error .truncated
  | w :: t =>
    match lengthCode w with
    | 0 =>
      match shortInstr (w.extractLsb' 2 6).toNat (shortFields w) with
      | some i => .ok (i, t)
      | none => .error (.opcode (w.extractLsb' 2 6).toNat)
    | 1 =>
      match t with
      | w1 :: t' =>
        match longInstr (opcOf w) (longFields w w1 none) with
        | some i => .ok (i, t')
        | none => .error (.opcode (opcOf w))
      | [] => .error .truncated
    | 2 =>
      match t with
      | w1 :: l :: t' =>
        match longInstr (opcOf w) (longFields w w1 (some l)) with
        | some i => .ok (i, t')
        | none => .error (.opcode (opcOf w))
      | _ => .error .truncated
    | _ => .error .header

/-- A little-endian parcel of four bytes (R3). -/
def parcelOf (b0 b1 b2 b3 : Byte) : Word := b3 ++ b2 ++ b1 ++ b0

/-- Bytes in memory order as parcels; bytes that do not fill a parcel are dropped. -/
def parcelsOf : List Byte → List Word
  | b0 :: b1 :: b2 :: b3 :: t => parcelOf b0 b1 b2 b3 :: parcelsOf t
  | _ => []

/-- Reading one instruction from bytes in memory order. -/
def decodeBytes (bs : List Byte) : Except Reject (Instr × List Word) := decodeParcels (parcelsOf bs)

/-- How an instruction is encoded: its form and code, or not at all (a step of the device). -/
inductive Form where
  | long (opc : BitVec 10) (f : Long)
  | short (sop : BitVec 6) (f : Short)
  | device
  deriving DecidableEq, Repr

/-- The code of each instruction (Tables 6.10, 6.11). -/
def Instr.form : Instr → Form
  | .bra f => .long 0x000 f
  | .brx f => .long 0x001 f
  | .call f => .long 0x002 f
  | .callx f => .long 0x003 f
  | .ret f => .long 0x004 f
  | .exit f => .long 0x005 f
  | .exitShort f => .short 0x3F f
  | .rcv f => .long 0x006 f
  | .yield f => .long 0x007 f
  | .yieldShort f => .short 0x3E f
  | .nop f => .long 0x008 f
  | .nopShort f => .short 0x00 f
  | .launch f => .long 0x009 f
  | .smov f => .long 0x020 f
  | .smovShort f => .short 0x33 f
  | .sadd f => .long 0x021 f
  | .saddShort f => .short 0x34 f
  | .ssub f => .long 0x022 f
  | .ssubShort f => .short 0x35 f
  | .smul f => .long 0x023 f
  | .smulShort f => .short 0x36 f
  | .smad f => .long 0x024 f
  | .sand f => .long 0x025 f
  | .sandShort f => .short 0x37 f
  | .sor f => .long 0x026 f
  | .sorShort f => .short 0x38 f
  | .sxor f => .long 0x027 f
  | .sxorShort f => .short 0x39 f
  | .sshl f => .long 0x028 f
  | .sshlShort f => .short 0x3A f
  | .sshr f => .long 0x029 f
  | .sshrShort f => .short 0x3B f
  | .ssha f => .long 0x02A f
  | .scmp f => .long 0x02B f
  | .ssel f => .long 0x02C f
  | .sldp f => .long 0x02D f
  | .sldpShort f => .short 0x3C f
  | .iadd f => .long 0x040 f
  | .iaddShort f => .short 0x02 f
  | .iadd3 f => .long 0x041 f
  | .isub f => .long 0x042 f
  | .isubShort f => .short 0x03 f
  | .imul f => .long 0x043 f
  | .imulShort f => .short 0x04 f
  | .imulh f => .long 0x044 f
  | .imulhI32Short f => .short 0x05 f
  | .imulhN32Short f => .short 0x06 f
  | .imad f => .long 0x045 f
  | .imadw f => .long 0x046 f
  | .imin f => .long 0x047 f
  | .iminI32Short f => .short 0x07 f
  | .iminN32Short f => .short 0x09 f
  | .imax f => .long 0x048 f
  | .imaxI32Short f => .short 0x08 f
  | .imaxN32Short f => .short 0x0A f
  | .iabs f => .long 0x049 f
  | .iabsShort f => .short 0x0B f
  | .isad f => .long 0x04A f
  | .shl f => .long 0x04B f
  | .shlShort f => .short 0x0C f
  | .shr f => .long 0x04C f
  | .shrShort f => .short 0x0D f
  | .sha f => .long 0x04D f
  | .shaShort f => .short 0x0E f
  | .shf f => .long 0x04E f
  | .lop3 f => .long 0x04F f
  | .lop3AndShort f => .short 0x0F f
  | .lop3OrShort f => .short 0x10 f
  | .lop3XorShort f => .short 0x11 f
  | .popc f => .long 0x050 f
  | .popcShort f => .short 0x12 f
  | .clz f => .long 0x051 f
  | .clzShort f => .short 0x13 f
  | .brev f => .long 0x052 f
  | .brevShort f => .short 0x14 f
  | .bfe f => .long 0x053 f
  | .bfi f => .long 0x054 f
  | .icmp f => .long 0x055 f
  | .isel f => .long 0x056 f
  | .lea f => .long 0x060 f
  | .lea64 f => .long 0x061 f
  | .pset f => .long 0x062 f
  | .plop f => .long 0x063 f
  | .pmov f => .long 0x064 f
  | .fadd f => .long 0x080 f
  | .faddShort f => .short 0x15 f
  | .fmul f => .long 0x081 f
  | .fmulShort f => .short 0x16 f
  | .ffma f => .long 0x082 f
  | .fmin f => .long 0x083 f
  | .fminShort f => .short 0x17 f
  | .fmax f => .long 0x084 f
  | .fmaxShort f => .short 0x18 f
  | .fcmp f => .long 0x085 f
  | .fclass f => .long 0x086 f
  | .frnd f => .long 0x087 f
  | .fscale f => .long 0x088 f
  | .hadd2 f => .long 0x0A0 f
  | .hadd2F16Short f => .short 0x1F f
  | .hadd2Bf16Short f => .short 0x21 f
  | .hmul2 f => .long 0x0A1 f
  | .hmul2F16Short f => .short 0x20 f
  | .hmul2Bf16Short f => .short 0x22 f
  | .hfma2 f => .long 0x0A2 f
  | .hmnmx2 f => .long 0x0A3 f
  | .dadd f => .long 0x0A4 f
  | .daddShort f => .short 0x23 f
  | .dmul f => .long 0x0A5 f
  | .dmulShort f => .short 0x24 f
  | .dfma f => .long 0x0A6 f
  | .dcmp f => .long 0x0A7 f
  | .dmnmx f => .long 0x0A8 f
  | .cvt f => .long 0x0C0 f
  | .cvtF32I32Short f => .short 0x25 f
  | .cvtI32F32Short f => .short 0x26 f
  | .cvtBf16F32Short f => .short 0x27 f
  | .cvtF32Bf16Short f => .short 0x28 f
  | .cvtp f => .long 0x0C1 f
  | .cvtq f => .long 0x0C2 f
  | .rcp f => .long 0x0C3 f
  | .rcpShort f => .short 0x19 f
  | .rsq f => .long 0x0C4 f
  | .rsqShort f => .short 0x1A f
  | .sqrt f => .long 0x0C5 f
  | .sqrtShort f => .short 0x1B f
  | .ex2 f => .long 0x0C6 f
  | .ex2Short f => .short 0x1C f
  | .lg2 f => .long 0x0C7 f
  | .lg2Short f => .short 0x1D f
  | .sin f => .long 0x0C8 f
  | .cos f => .long 0x0C9 f
  | .tanh f => .long 0x0CA f
  | .tanhShort f => .short 0x1E f
  | .mov f => .long 0x0E0 f
  | .movShort f => .short 0x01 f
  | .movi f => .long 0x0E1 f
  | .prmt f => .long 0x0E2 f
  | .shfl f => .long 0x0E3 f
  | .shflIdxShort f => .short 0x2D f
  | .shflUpShort f => .short 0x2E f
  | .shflDownShort f => .short 0x2F f
  | .shflXorShort f => .short 0x30 f
  | .vote f => .long 0x0E4 f
  | .matchLanes f => .long 0x0E7 f
  | .redux f => .long 0x0E5 f
  | .reduxAddShort f => .short 0x31 f
  | .reduxMaxShort f => .short 0x32 f
  | .scan f => .long 0x0E6 f
  | .compress f => .long 0x0E8 f
  | .expand f => .long 0x0E9 f
  | .part f => .long 0x0EA f
  | .lds f => .long 0x100 f
  | .ldsB32Short f => .short 0x29 f
  | .ldsB64Short f => .short 0x2A f
  | .ldsm f => .long 0x101 f
  | .sts f => .long 0x102 f
  | .stsB32Short f => .short 0x2B f
  | .stsB64Short f => .short 0x2C f
  | .atoms f => .long 0x103 f
  | .reds f => .long 0x104 f
  | .stg f => .long 0x120 f
  | .atomg f => .long 0x121 f
  | .redg f => .long 0x122 f
  | .gather f => .long 0x123 f
  | .tcopy f => .long 0x140 f
  | .tstore f => .long 0x141 f
  | .pcopy f => .long 0x142 f
  | .pcopyR f => .long 0x142 f
  | .bload f => .long 0x143 f
  | .preft f => .long 0x144 f
  | .town f => .long 0x145 f
  | .rowzf f => .long 0x160 f
  | .rowcp f => .long 0x161 f
  | .qpost f => .long 0x162 f
  | .qmerge f => .long 0x163 f
  | .mma f => .long 0x180 f
  | .mmas f => .long 0x181 f
  | .kset f => .long 0x182 f
  | .sign f => .long 0x183 f
  | .chld f => .long 0x184 f
  | .chrun f => .long 0x185 f
  | .chrunTile f => .long 0x185 f
  | .itset f => .long 0x186 f
  | .binit f => .long 0x1A0 f
  | .arrive f => .long 0x1A1 f
  | .expect f => .long 0x1A2 f
  | .waitp f => .long 0x1A3 f
  | .btest f => .long 0x1A4 f
  | .fence f => .long 0x1A5 f
  | .csync f => .long 0x1A6 f
  | .dsync f => .long 0x1A7 f
  | .gsync f => .long 0x1A8 f
  | .twait f => .long 0x1A9 f
  | .xbegin f => .long 0x1AA f
  | .xend f => .long 0x1AB f
  | .xabort f => .long 0x1AC f
  | .rdsr f => .long 0x1C0 f
  | .rdsrShort f => .short 0x3D f
  | .wrsr f => .long 0x1C1 f
  | .trap f => .long 0x1C2 f
  | .bpt f => .long 0x1C3 f
  | .tret f => .long 0x1C4 f
  | .rdtr f => .long 0x1C5 f
  | .wrtr f => .long 0x1C6 f
  | .baredit f => .long 0x1C7 f
  | .clauseIssue _ _ _ => .device
  | .rcvHoldExpiry _ _ _ => .device
  | .ageSwap _ _ => .device
  | .congestionLevel _ _ _ => .device
  | .congestionLevelExpiry _ _ => .device
  | .poolAccessAtTarget _ _ _ => .device
  | .stagingEarlyPublish _ => .device
  | .homeApplyPublication _ => .device
  | .publicationAck _ => .device
  | .boundaryReleaseComplete _ _ _ => .device
  | .l2Writeback _ => .device
  | .atomicGroupApply _ _ => .device
  | .hostAtomicop _ => .device
  | .stackRead _ => .device
  | .stackWrite _ => .device
  | .stackAtomic _ => .device
  | .stackQuery _ => .device
  | .stackRowop _ => .device
  | .stackCtrl _ _ => .device
  | .stackReply _ => .device
  | .queryChunk _ => .device
  | .stackRefresh _ _ _ => .device
  | .queryTripleReturn _ => .device
  | .rowopComplete _ => .device
  | .irtctlActWrite _ => .device
  | .drainClear => .device
  | .engineTileLand _ => .device
  | .barrierCredit _ => .device
  | .mmaResultWrite _ => .device
  | .mmasStep _ => .device
  | .chrunTileRow _ => .device
  | .hwBarrierComplete _ => .device
  | .watchRegister _ => .device
  | .watchAnswer _ => .device
  | .twaitTimeout _ => .device
  | .watchCancel _ => .device
  | .launchRecordRead _ _ => .device
  | .launchStart _ => .device
  | .dependenceWatchRetry _ => .device
  | .clusterGrant => .device
  | .starvationBoost _ _ => .device
  | .warpRetire _ _ _ => .device
  | .launchComplete _ => .device
  | .preemptPriority => .device
  | .tctlSuspWrite _ _ => .device
  | .contextSaveComplete _ => .device
  | .saveHeldTimeout _ => .device
  | .contextResume _ => .device
  | .qidxWidxWrite _ _ _ => .device
  | .tlbinvGo _ => .device
  | .tlbinvComplete => .device
  | .operandLogReplay _ _ _ => .device
  | .faultUnitMigrate _ _ => .device
  | .pageRevive _ _ => .device
  | .remoteHomeRequest _ _ => .device
  | .remoteHomeReply _ _ _ _ => .device
  | .remoteHomeTimeout _ _ => .device
  | .frameRetire _ => .device
  | .handlerStart _ _ => .device
  | .wctlResume _ => .device
  | .wctlKill _ => .device
  | .wctlHalt _ => .device
  | .wctlStepOn _ => .device
  | .wctlStepOff _ => .device
  | .tarsorCellSend _ _ => .device
  | .tarsorDataCell _ _ => .device
  | .tarsorDedupReference _ _ => .device
  | .tarsorReplayRequest _ _ => .device
  | .tarsorIdleCell _ _ => .device
  | .linkReplayLimit _ => .device
  | .linkAckTimeout _ => .device
  | .linkTrainingDone _ _ => .device
  | .tlctlRetrain _ => .device
  | .tlctlEnWrite _ _ => .device
  | .mbheadWrite _ => .device
  | .mbWrite _ => .device
  | .mbRead _ => .device
  | .mbRegwr _ => .device
  | .mbRegrd _ => .device
  | .mbMigrate _ => .device
  | .mbSave _ => .device
  | .mbImage _ => .device
  | .moduleReset => .device
  | .romAndFuses _ => .device
  | .calibration _ => .device
  | .electionIdentifier _ _ _ => .device
  | .electionTimeout _ => .device
  | .verification => .device
  | .firmwareStart => .device
  | .firmwareStartTimeout => .device
  | .memoryInitialisation _ => .device
  | .thermalTrip _ => .device
  | .powerTokenPass _ => .device
  | .eqidxCidxWrite _ _ => .device
  | .eqctlClr _ => .device
  | .tenantReset _ => .device
  | .tenantResetComplete _ => .device
  | .registerWrite _ _ => .device
  | .coolantOrDieTemperatureChange _ _ _ => .device

/-- The 64 bits of a long form (Table 6.5); `ext` sets the length code of the extended form. -/
def longWord (opc : BitVec 10) (ext : Bool) (f : Long) : DWord :=
  f.md ++ BitVec.ofBool f.gn ++ f.gp ++ f.c ++ f.b ++ f.a ++ BitVec.ofBool f.nowb ++ f.dst ++ opc ++
    (if ext then 2#2 else 1#2)

/-- The parcel of a short form (Table 6.6). -/
def shortWord (sop : BitVec 6) (f : Short) : Word := f.b7 ++ f.a ++ f.dst ++ sop ++ 0#2

/-- The parcels of a form. -/
def Form.parcels : Form → List Word
  | .short sop f => [shortWord sop f]
  | .long opc f =>
    let x := longWord opc f.lit.isSome f
    [x.extractLsb' 0 32, x.extractLsb' 32 32] ++ f.lit.toList
  | .device => []

/-- The parcels of an instruction; a step of the device has none. -/
def encode (i : Instr) : List Word := i.form.parcels

/-- Parcels of a number, least significant first. -/
def natParcels : Nat → Nat → List Word
  | 0, _ => []
  | k + 1, w => BitVec.ofNat 32 w :: natParcels k (w / 2 ^ 32)

/-- The instruction the decoder reads from the table's word: bit 0 is the least significant bit of the first parcel;
three parcels are the longest item, and every bit above `nbits` is zero. -/
def decodeTableWord (nbits w : Nat) : Option Instr :=
  match decodeParcels (natParcels 3 (w % 2 ^ nbits)) with
  | .ok (i, _) => some i
  | .error _ => none

end Sys2Proof
end

