-- ==== Sys2Proof/Machine/NMap.lean ====
section
/-! DEFINITION. A sparse map from Nat: a list of keys strictly rising, listing nothing equal to what an unlisted key
reads as, so that equal maps are equal data. Memories, register files and register tables are all of this form. -/

namespace Sys2Proof.Machine

/-- Keys and values, keys strictly rising, no value equal to the map's default. -/
abbrev NMap (α : Type) := List (Nat × α)

/-- Reading key `a`; an unlisted key reads `d`. -/
def nget {α : Type} (d : α) : NMap α → Nat → α
  | [], _ => d
  | (k, v) :: t, a => if a = k then v else nget d t a

/-- Placing `x` at key `a`, in the order of the keys. -/
def nput {α : Type} : NMap α → Nat → α → NMap α
  | [], a, x => [(a, x)]
  | (k, v) :: t, a, x => if a < k then (a, x) :: (k, v) :: t else if a = k then (a, x) :: t else (k, v) :: nput t a x

/-- Writing `x` at key `a`; writing `d` removes the entry. -/
def nset {α : Type} [DecidableEq α] (d : α) (m : NMap α) (a : Nat) (x : α) : NMap α :=
  if x = d then m.filter (fun e => e.1 != a) else nput m a x

/-- Every key of the map is above `b`, keys rise strictly, and no entry equals `d`. -/
def nwfAbove {α : Type} [DecidableEq α] (d : α) : Nat → NMap α → Bool
  | _, [] => true
  | b, (k, v) :: t => decide (b < k) && decide (v ≠ d) && nwfAbove d k t

/-- The canonical form. -/
def nwf {α : Type} [DecidableEq α] (d : α) : NMap α → Bool
  | [] => true
  | (k, v) :: t => decide (v ≠ d) && nwfAbove d k t

/-- The canonical form of a memory: addresses strictly rising, no byte equal to what an unlisted address reads as. -/
def Memory.wf (m : NMap Byte) : Bool := nwf 0 m

/-- Writing consecutive keys. -/
def nsetRange {α : Type} [DecidableEq α] (d : α) (m : NMap α) (a : Nat) : List α → NMap α
  | [] => m
  | x :: xs => nsetRange d (nset d m a x) (a + 1) xs

/-- Reading `n` consecutive keys. -/
def ngetRange {α : Type} (d : α) (m : NMap α) (a n : Nat) : List α :=
  (List.range n).map fun j => nget d m (a + j)

/-- Removing every key in [lo, hi). -/
def ndrop {α : Type} (m : NMap α) (lo hi : Nat) : NMap α :=
  m.filter fun e => e.1 < lo || hi ≤ e.1

/-- The entries with keys in [lo, hi). -/
def nslice {α : Type} (m : NMap α) (lo hi : Nat) : NMap α :=
  m.filter fun e => lo ≤ e.1 && e.1 < hi

end Sys2Proof.Machine
end

