-- ==== Sys2Proof/Machine/State.lean ====
section
/-! DEFINITION. The state of the module as plain data: every piece of state the spec names (INVENTORY.md, State),
the model's own free values and agenda, the two ways a step can stop, and the state right after module reset. -/

namespace Sys2Proof.Machine

/-- A soft error (R381, R383): what strikes the module is the world's doing. -/
inductive Upset where
  /-- A corrected error: unit of Table 23.2, which of them, the address and its space. -/
  | corrected (unit inst : Nat) (addr : DWord) (asp : Nat)
  /-- An uncorrected error in the sector of a physical address: in its L2 slice, or where it is stored behind that. -/
  | sector (pa : Nat) (l2 : Bool)
  /-- In a half of staging entry `n`. -/
  | staged (n : Nat) (upper : Bool)
  /-- In an 8-byte word of a core's pool. -/
  | poolWord (core off : Nat)
  /-- In an 8-byte word of a core's column store. -/
  | storeWord (core column off : Nat)
  /-- A parity error in a register of a warp: class 0 v, 1 s, 2 p, 3 latch half, 4 q; its number; the lane, 0 for s and q. -/
  | parity (uid cls num lane : Nat)
  /-- The packet at place `n` of a stack's port has been resent 3 times. -/
  | packetLost (n : Nat)
  /-- On the networks, in a half of staging entry `n`'s publication; in an operand of atomic group `n` of those on their way. -/
  | published (n : Nat) (upper : Bool)
  | requested (n : Nat)
  /-- On the Causeway, in a pool access of a warp; in what an engine command reads next. -/
  | travelling (uid : Nat)
  | fetched (id : Nat)
  deriving DecidableEq, Repr

/-- What step reads before anything else (DESIGN CHOICE, log entry 1): which agent acts next, or that time passes. -/
inductive Stimulus where
  /-- A step of the device, or of the world outside it. -/
  | event (i : Instr)
  /-- A soft error. -/
  | upset (u : Upset)
  /-- A quadrant is granted the next instruction: core, quadrant, slot (16: its handler slot). -/
  | turn (core quad slot : Nat)
  /-- Core clocks pass. -/
  | pass (clk : Nat)
  deriving DecidableEq, Repr

/-- What a parked lane waits for (R21, R244). -/
inductive Wait where
  /-- WAITP: pool address as issued, token (R240). -/
  | token (addr : Word) (tok : BitVec 16)
  /-- A hardware barrier: 0 CSYNC.block, 1 CSYNC, 2 DSYNC, 3 GSYNC; the thread's instance number (R243). -/
  | hw (kind inst : Nat)
  /-- TWAIT: the watch's number (R246). -/
  | tide (id : Nat)
  /-- MMA: the convergence register (R214). -/
  | array (k : Nat)
  deriving DecidableEq, Repr

/-- What happens before an event (R76): for each agent, the order number below which its writes do. Agents: 0 for every writer, 1 for
those outside the cores, 32·uid + lane for a thread, 2^40 + number for an engine command, 2^41 + core for the engines of a core; key
2^50 + order number stands for one write alone. -/
abbrev Past := NMap Nat

/-- A parked lane: its wait, where it goes on, the register its status goes to, the scope of its acquire. -/
structure Park where
  wait : Wait
  ft : DWord
  dst : Nat
  scope : Nat
  /-- An answer kept while a trap stops lanes of the warp (R311): status, and what it acquires. -/
  ans : Option (Option Word × Past) := none
  deriving DecidableEq, Repr

/-- A writer as readers of its write find it (R75): where it runs, core 512 and warp 0 for an agent outside the cores; the agents that
its writes count for; and what happened before its latest release boundary at each scope, 0 to 6. -/
structure Sig where
  core : Nat
  ctx : Nat
  clu : Nat
  bid : Nat
  uid : Nat
  agents : List Nat
  rel : List Past
  deriving DecidableEq, Repr

/-- One latch capture: 64 bits a lane, or one for the warp (R117). -/
structure Latch where
  uni : Bool
  vals : NMap DWord
  /-- Halves whose parity fails (R383): 2·lane + half. -/
  bad : List Nat := []
  deriving DecidableEq, Repr

/-- The clause a warp is running (R105, R109): fetched whole, its latches by slot modulo 4. -/
structure Run where
  /-- Address of the clause header. -/
  hdrAddr : DWord
  /-- The header (Table 6.2). -/
  hdr : DWord
  /-- The issue group (R21). -/
  grp : Lanes
  /-- sr.part.TSZ in force for the clause (R25). -/
  tsz : BitVec 3
  /-- Slot number of the next instruction (R117). -/
  slot : Nat
  /-- Address of the next instruction's first parcel (R106). -/
  pc : DWord
  /-- Parcels of the body from the next instruction on, as fetched. -/
  body : List Word
  /-- Latches b0 to b3. -/
  lat : NMap (Option Latch)
  /-- The instruction's accesses travel to another core over the Causeway (R50). -/
  transit : Bool
  /-- The cores that they lead to, and their place in the order of issue. -/
  targets : List Nat := []
  stamp : Nat := 0
  /-- A data watch has matched them at issue (R316). -/
  met : Bool := false
  /-- A word of them has met an uncorrected error on its way (R381). -/
  struck : Bool := false
  /-- The STG that holds for a staging entry counts on its dependency counter (R54). -/
  counted : Bool := false
  /-- sr.time at which the instruction issued, plus 1, where it counts a timeout from it (R248). -/
  begun : Nat := 0
  /-- The instruction has raised entries at this level and waits for them (R73 step 3): 1 home, 2 system. -/
  bnd : Option Nat
  /-- Steps 1 to 3 of R73 are done for the instruction. -/
  released : Bool
  /-- The request or command whose performing the instruction waits for before its data watch stops its lanes (R316). -/
  watching : Option Nat := none
  /-- Place among the groups that hold for a log entry or payload slot (R376); 0 for none. -/
  slotSince : Nat := 0
  deriving DecidableEq, Repr

/-- A register that an issued instruction has still to write (R120). -/
structure Pend where
  lanes : Lanes
  /-- 0 v, 1 s, 2 p, 3 q. -/
  kind : Nat
  reg : Nat
  /-- The request, log entry or product that will write it. -/
  src : Nat
  deriving DecidableEq, Repr

/-- An operand-log entry (Table 14.7); the lanes' values stand in memory, in its payload slot (R300). -/
structure LogEntry where
  /-- Its number among the warp's four (R300); State lists the entries in use in SEQ order. -/
  ent : Nat := 0
  /-- 0 parked, 1 page in transit, 2 ready to replay. -/
  st : Nat
  seq : BitVec 8
  lane : Nat
  insn : DWord
  lit : Word
  mask : Lanes
  va : DWord
  pc : DWord
  /-- Physical address of the payload slot, and its number in the tenant's pool. -/
  pay : DWord
  payIdx : Nat
  /-- Number its pending registers carry. -/
  src : Nat
  /-- Tiles a parked GATHER keeps: core, tile; its barrier's pool address (R183). -/
  tiles : List (Nat × Nat)
  bar : Word
  /-- Where the lanes of a parked TWAIT go on (R245). -/
  ft : DWord
  /-- The record image that a LAUNCH parked on a queue slot has read (R143). -/
  img : List Byte := []
  /-- sr.time at a TWAIT's issue (R248), and its clause, where it is executed again after a fault (R391). -/
  at0 : Nat := 0
  again : Option Run := none
  /-- The fault unit has reported the entry (R375). -/
  reported : Bool
  deriving DecidableEq, Repr

/-- A tensor record (Table 9.5), axes 0 to 4. -/
structure Tensor where
  base : Nat
  ext : List Nat
  str : List Nat
  box : List Nat
  order : List Nat
  rank : Nat
  space : Bool
  bv : Bool
  fill : Nat
  bar : Nat
  fovr : Bool
  cbi : Nat
  geo : Nat
  fmt : Nat
  scale : Nat
  deriving DecidableEq, Repr

/-- An iterator slot: record and origin (R227). -/
structure Iter where
  tens : Tensor
  org : List Int
  /-- Where the record was read: its address and space (Table 20.1, cause 0x07). -/
  addr : Nat := 0
  asp : Nat := 2
  deriving DecidableEq, Repr

/-- A transaction of a warp (R250). -/
structure Txn where
  isOpen : Bool := false
  doomed : Bool := false
  /-- Read set: line and the write version recorded. -/
  reads : List (Nat × BitVec 16) := []
  /-- Virtual address of each line of the read set. -/
  vas : NMap Nat := []
  deriving DecidableEq, Repr

/-- A trap that has stopped lanes of a warp (R311). -/
structure Trap where
  /-- The fault record's words 0 to 6 (Table 19.1). -/
  record : List DWord
  cause : BitVec 8
  stopped : Lanes
  held : Lanes
  /-- The clause at the stop, its slot the one that TRET resumes at; none between clauses. -/
  run : Option Run
  /-- 0 waits for the handler slot, 1 in the handler, 2 with system software. -/
  phase : Nat
  /-- Lanes whose PC a handler rewrote (R313). -/
  moved : Lanes
  /-- Where the vector entry sends the handler. -/
  entry : DWord
  /-- Order of trap in the quadrant (R312). -/
  order : Nat
  deriving DecidableEq, Repr

/-- A warp (R20), a handler warp included (R312) (DESIGN CHOICE, log entry 3). -/
structure Warp where
  /-- Number of the warp, kept when it is saved and resumed; 0 marks that there is no warp. -/
  uid : Nat := 0
  core : Nat := 0
  quad : Nat := 0
  /-- Warp slot 0 to 15 (R410); 16 is the handler slot. -/
  slot : Nat := 0
  /-- Launch, cluster number in the grid, block in the cluster, warp in the block. -/
  ctx : Nat := 0
  clu : Nat := 0
  bid : Nat := 0
  wid : Nat := 0
  handler : Bool := false
  /-- The trapped warp a handler warp serves, and its slot. -/
  serves : Nat := 0
  hslot : Nat := 0
  tcause : Word := 0
  trec : DWord := 0
  live : Lanes := 0
  dbg : Lanes := 0
  /-- Stopped lanes are those of trap (R311). -/
  trap : Option Trap := none
  park : NMap (Option Park) := []
  pc : NMap DWord := []
  hint : NMap (Option DWord) := []
  /-- Issue slots a lane has been held at its hint (R23). -/
  heldFor : NMap Nat := []
  /-- Issue slots since the lane last issued (R23). -/
  age : NMap Nat := []
  depth : NMap Int := []
  /-- What happens before the start of each lane's phase (R74). -/
  phase : NMap Past := []
  /-- What happened before a lane's latest release boundary at a scope: key 8*lane + scope (R75). -/
  rel : NMap Past := []
  /-- What a lane's next acquire at a scope takes with it, key 8*lane + scope: a FENCE's, for what its atomics have
  read; any acquire's, for released tiles and write sets that it has met (Table 4.4, R85). -/
  obs : NMap Past := []
  obsAny : NMap Past := []
  /-- Hardware-barrier executions: key 4*lane + kind (R243). -/
  hwn : NMap Nat := []
  rctr : NMap Word := []
  /-- v registers: key 32*register + lane. -/
  v : NMap Word := []
  /-- p0 to p6 of each lane, bit i for pi. -/
  p : NMap (BitVec 7) := []
  s : NMap Word := []
  q : BitVec 7 := 0
  part : Word := 5
  vcnt : Word := 0xFFFF
  rseed : Word := 0
  /-- CAUSE and USER of sr.xstat (Table 11.6). -/
  xcause : BitVec 8 := 0
  xuser : BitVec 8 := 0
  txn : Txn := {}
  dc : NMap Nat := []
  iter : NMap (Option Iter) := []
  olog : List LogEntry := []
  seq : BitVec 8 := 0
  pend : List Pend := []
  run : Option Run := none
  /-- Clauses of groups that the step bit has broken off at their next instruction (R318, R119). -/
  paused : List Run := []
  /-- Instruction at which a stop has passed over the lower events of R319 in a lane that has issued none since, and whether the stop was a
  breakpoint, which then does not trigger there again (R313). -/
  skip : NMap (Option (DWord × Bool)) := []
  /-- The warp gives its next slot away (R107, R142). -/
  yielded : Bool := false
  /-- In the quadrant's active set (R284). -/
  active : Bool := true
  /-- clk at which the warp entered or left the active set. -/
  since : Nat := 0
  step : Bool := false
  stepm : BitVec 2 := 0
  /-- A halt was requested (R317). -/
  halt : Bool := false
  /-- Deferred faults that wait for the clause boundary (R348), oldest first: record words, lanes. -/
  deferred : List (List DWord × Lanes) := []
  /-- Latest order number read of each byte, for the monotonic reads of R74. -/
  seen : NMap Nat := []
  /-- Registers whose parity fails (R383): class 0 v, 1 s, 2 p, 4 q; number; lane, 0 for s and q. -/
  parity : List (Nat × Nat × Nat) := []
  deriving DecidableEq, Repr

/-- A staging entry (R54). -/
structure Stage where
  core : Nat
  /-- Physical address of the 64-byte block. -/
  pa : Nat
  bytes : NMap Byte
  mask : DWord
  tenant : Nat
  ctx : Nat
  /-- Scope the STG named (R70). -/
  scope : Nat
  /-- 0 staged, 1 home, 2 system. -/
  level : Nat
  /-- Publication has started, to this level (R72). -/
  going : Option Nat
  /-- Applied at its home, acknowledgement under way. -/
  applied : Bool
  /-- Write set of this warp's open transaction (R250), or 0. -/
  txn : Nat
  /-- Generation tag (R57). -/
  gen : Bool
  /-- Poisoned halves (R381): bit 0 the lower 32 bytes, bit 1 the upper. -/
  bad : BitVec 2 := 0
  /-- Writers of its bytes, by offset (R75). -/
  who : NMap (List Sig) := []
  /-- The next request number when the entry was allocated, and when its publication started. -/
  born : Nat := 0
  sent : Nat := 0
  /-- Requests of its core that have overtaken it (R60). -/
  passed : Nat := 0
  deriving DecidableEq, Repr

/-- An L2 line's tags (R55); its bytes stand in State.l2b. -/
structure Line where
  valid : BitVec 8 := 0
  dirty : BitVec 8 := 0
  /-- Locked by a transaction or row operation (R251, R253). -/
  locked : Bool := false
  /-- Later writes are held (R253 step 2). -/
  holdWr : Bool := false
  deriving DecidableEq, Repr

/-- A packet to a stack base die, or a reply on its way back (Table 3.6). -/
structure Packet where
  stack : Nat
  tag : Nat
  /-- 0 READ, 1 WRITE, 2 ATOMIC, 3 QUERY, 4 ROWOP, 5 CTRL; as a reply the same. -/
  kind : Nat
  reply : Bool
  pa : Nat
  sectors : BitVec 8
  bytes : NMap Byte
  /-- Operation, type and operand of an ATOMIC; first and last token of a QUERY; source frame of a ROWOP. -/
  args : List Nat
  /-- The command or request it serves. -/
  src : Nat
  /-- Sectors of a WRITE that are poisoned (R382). -/
  bad : BitVec 8 := 0
  deriving DecidableEq, Repr

/-- A watch (R246). -/
structure Watch where
  id : Nat
  tenant : Nat
  ctx : Nat
  core : Nat
  /-- The warp, or 0 for a dependence watch of the scheduler (R278). -/
  warp : Nat
  lanes : Lanes
  va : DWord
  pa : Nat
  width : Nat
  cmp : Nat
  signed : Bool
  operand : DWord
  mask : DWord
  scope : Nat
  /-- 0 on its way, 1 in the table, 2 on the spill list, 3 answered, 4 a dependence's that found no room (R391). -/
  st : Nat
  answer : Nat
  /-- clk at which the timeout passes. -/
  deadline : Option Nat
  /-- A cancel is on its way to the home (R248). -/
  cancel : Bool
  /-- The TWAIT's long form and address, for a record (R391). -/
  insn : DWord := 0
  pc : DWord := 0
  /-- The clause that stands at the TWAIT, where it is executed again after a fault (R391). -/
  again : Option Run := none
  /-- Writers of the value that satisfied it (Table 4.4), and the write set that it is part of (R85). -/
  sig : List Sig := []
  set : Past := []
  /-- Generation of the interleave table that homes it: its bank is bank 1 (R57, R248). -/
  gen : Bool := false
  deriving DecidableEq, Repr

/-- A cached leaf (R296). -/
structure Tlb where
  tenant : Nat
  /-- Virtual address of the 64 KiB unit, divided by 65536. -/
  page : Nat
  leaf : DWord
  /-- The page's size: 0 64 KiB, 1 2 MiB, 2 1 GiB. -/
  size : Nat
  deriving DecidableEq, Repr

/-- One lane's part of an atomic group: lane, operand, compare value. -/
structure AtomLane where
  lane : Nat
  x : DWord
  e : DWord
  deriving DecidableEq, Repr

/-- A group at one address (R178). -/
structure AtomGroup where
  pa : Nat
  va : DWord
  lanes : List AtomLane
  deriving DecidableEq, Repr

/-- Atomic groups of one instruction on their way to their homes (R179). -/
structure Req where
  id : Nat
  warp : Nat
  core : Nat
  ctx : Nat
  tenant : Nat
  op : Nat
  ty : Nat
  red : Bool
  dst : Nat
  /-- Address of the instruction. -/
  pc : DWord
  /-- Whether its groups are homed by bank 1 of the interleave table (R57). -/
  gen : Bool
  groups : List AtomGroup
  /-- A group is with a stack base die (ATOMIC packet). -/
  away : Option AtomGroup
  /-- Its place among the requests and publications of its core (R60). -/
  sent : Nat := 0
  /-- Requests of its core that have overtaken it (R60). -/
  passed : Nat := 0
  /-- Its groups that have met poison (R382). -/
  poisoned : List AtomGroup := []
  deriving DecidableEq, Repr

/-- The kinds of engine command (Table 13.8). -/
inductive CmdKind where
  | tcopy | tstore | pcopy | pcopyR | bload | preft | gather | mmas | chrun | qpost | rowzf | rowcp
  deriving DecidableEq, Repr

/-- A unit of an engine command that is parked (R65, R299): the 64 KiB page, by number, and whether the fault unit has reported
it (R375). -/
structure UnitPark where
  unit : Nat
  page : Nat
  reported : Bool := false
  deriving DecidableEq, Repr


/-- An engine command in flight (R52, R189, R288). -/
structure Cmd where
  id : Nat
  kind : CmdKind
  warp : Nat
  core : Nat
  ctx : Nat
  clu : Nat
  bid : Nat
  wid : Nat
  /-- Lanes of the issuing group; its lowest is the issuing thread (R188). -/
  lanes : Lanes
  insn : DWord
  lit : Word
  pc : DWord
  /-- Control word, first and second operand as sampled. -/
  ctl : Word := 0
  a : Word := 0
  b : Word := 0
  /-- A plain PCOPY's length; the pool base of a PCOPY.r source. -/
  len : Nat := 0
  tens : Option Tensor := none
  org : List Int := []
  /-- Element format and geometry in force (R97, R189). -/
  fmt : Nat := 0
  geo : Nat := 0
  vc : Nat := 0xFFFF
  scope : Nat := 0
  /-- Stream graph words, or none (R201). -/
  graph : Option (List DWord) := none
  /-- Codebooks read at issue (R94): those of its pages by index, empty where it was poisoned, and the one a cbq node names. -/
  books : List (Nat × List (BitVec 16)) := []
  codebook2 : List (BitVec 16) := []
  /-- Masks of an expand's groups as read so far (Table 9.9). -/
  masks : List Nat := []
  /-- Tiles taken and still held: core, tile. -/
  tiles : List (Nat × Nat) := []
  /-- Units landed, in destination order (R288), and units in all. -/
  landed : List Nat := []
  units : Nat := 0
  /-- Pool address of the barrier, as each destination sees it. -/
  bar : Word := 0
  cred : Nat := 0
  /-- Bytes of a GATHER read at issue: pool key and byte; keys of poisoned words. -/
  data : List (Nat × Byte) := []
  bad : List Nat := []
  /-- MMAS: descriptor registers; row block, group, K-chunk of the next step (R220). -/
  desc : List Word := []
  rb : Nat := 0
  g : Nat := 0
  kc : Nat := 0
  /-- CHRUN.tile: next row; chain words, iterators, parameters, grid position and counters sampled (R230). -/
  row : Nat := 0
  chain : List DWord := []
  iters : List Iter := []
  params : List Word := []
  gpos : Nat := 0
  rctr : Word := 0
  rseed : Word := 0
  /-- QPOST: the segment record's words, first token, tokens, the query; frames sent and frames answered (R266). A copy
  keeps in `sent` the parts of its box that it has read. -/
  kv : List DWord := []
  first : Nat := 0
  ntok : Nat := 0
  query : List Word := []
  sent : List Nat := []
  done : List Nat := []
  /-- A save waits for its next granule boundary (R222, R231). -/
  saving : Bool := false
  /-- ROWCP: sectors of the source frame that it has read before another row operation replaced them: 32 bytes by number; those poisoned
  are in `bad` (R80). -/
  kept : NMap (List Byte) := []
  /-- A word that it reads next has met an uncorrected error on its way (R381). -/
  struck : Bool := false
  /-- What happens before the issuing thread's phase (R74), and the thread as a writer (R75). -/
  phase : Past := []
  sig : List Sig := []
  /-- Units that are parked, each on its page (R65, R299). -/
  parks : List UnitPark := []
  /-- Order numbers, by byte, of what earlier and later reads of its warp have returned: its own reads lie between them, the
  upper one plus 1, 0 for none (R74). -/
  floor : NMap Nat := []
  cap : NMap Nat := []
  deriving DecidableEq, Repr

/-- A command that a tile at 15 holds back at issue (R52): its core, its warp, its tiles. -/
structure Held where
  core : Nat
  warp : Nat
  tiles : List (Nat × Nat)
  deriving DecidableEq, Repr

/-- A page that a command at issue needs before it can be fixed and is not there (R189 step 4): what asks for it. -/
structure Want where
  tenant : Nat
  page : Nat
  warp : Nat
  lanes : Lanes
  pc : DWord
  insn : DWord
  /-- The fault unit has reported it (R375). -/
  reported : Bool := false
  deriving DecidableEq, Repr

/-- A byte credit on its way to a barrier object on another core (R191). -/
structure Credit where
  ctx : Nat
  clu : Nat
  core : Nat
  off : Nat
  bytes : Nat
  sig : List Sig := []
  deriving DecidableEq, Repr

/-- A product whose D registers are still to be written (R217). -/
structure Product where
  id : Nat
  warp : Nat
  lanes : Lanes
  /-- Key 32*register + lane. -/
  vals : NMap Word
  /-- Counter select DC. -/
  dcSel : Nat
  deriving DecidableEq, Repr

/-- An MMA that lanes have arrived at: its address, long form, literal. -/
structure MmaAt where
  pc : Nat
  insn : DWord
  lit : Option Word
  /-- The clauses of the groups that have arrived, each as it stands at the MMA: one whose registers are lost before the round closes
  executes it again (R383). -/
  runs : List Run := []
  deriving DecidableEq, Repr


/-- A block (R27): its cores and what its warps share. -/
structure Block where
  ctx : Nat
  clu : Nat
  bid : Nat
  /-- Convergence registers (Table 10.2). -/
  conv : NMap (BitVec 256)
  /-- Chain slots: 17 words each (R226). -/
  chains : NMap (Option (List DWord))
  /-- Cores the block's warps run on: more than one for a spread block (R27). -/
  cores : List Nat
  /-- Array codebook register (R206). -/
  cb : Option (List (BitVec 16))
  /-- Energy class of the clause that holds the MMA at MPC, by convergence register (R217). -/
  ecls : NMap Nat := []
  /-- The MMA at MPC as its lanes arrived at it, by convergence register: its address, long form and literal (R214, R215). -/
  mma : NMap (Option MmaAt) := []
  /-- Column-store range [cbase, cbase + cn) (R48). -/
  cbase : Nat
  cn : Nat
  /-- Warps of the block not yet retired. -/
  warpsLeft : Nat
  /-- clk of the grant, or of the latest resumption (R280). -/
  since : Nat
  deriving DecidableEq, Repr

/-- A placed cluster (R29). -/
structure Cluster where
  ctx : Nat
  num : Nat
  /-- Core of each member, in member order. -/
  cores : List Nat
  pbase : Nat
  plim : Nat
  blocksLeft : Nat
  /-- A save is in progress since this clk (R287). -/
  saving : Option Nat
  /-- Cause 0x66 has been appended for the save (R393). -/
  heldReported : Bool
  deriving DecidableEq, Repr

/-- A saved cluster (R287, Table 13.7). -/
structure Saved where
  ctx : Nat
  num : Nat
  cluster : Cluster
  warps : List Warp
  blocks : List Block
  /-- Pool bytes, tile counts, column-store bytes by member-relative key. -/
  pool : NMap Byte
  tiles : NMap Nat
  cstore : NMap Byte
  poolPoison : NMap Bool
  csPoison : NMap Bool
  cmds : List Cmd
  /-- Signals of its tiles and barrier objects (Table 4.4). -/
  tileSigs : NMap (List Sig)
  barSigs : NMap (List Sig)
  /-- 64 KiB units of the save region that it takes, and the bytes written there. -/
  places : List Nat
  image : List Byte
  /-- clk since which it waits for cores (R286). -/
  wait : Nat
  deriving DecidableEq, Repr

/-- A launch (R275, R277). -/
structure Ctx where
  id : Nat
  tenant : Nat
  queue : Nat
  record : List DWord
  /-- Kernel header words (Table 6.16). -/
  khdr : List DWord
  /-- Parameter window (R47). -/
  param : NMap Byte
  psize : Nat
  graphs : List (List DWord)
  chains : List (List DWord)
  /-- 0 waits for its dependences, 1 started, 2 complete. -/
  st : Nat
  /-- Dependences still unmet: index 0 to 3. -/
  deps : List Nat
  /-- Clusters granted, and retired. -/
  granted : Nat
  retired : Nat
  total : Nat
  /-- Die bound to each die-level index (R283). -/
  dies : List Nat
  /-- Energy budget (R331). -/
  budget : Nat
  /-- A held TWAIT answer has made its saved clusters runnable, or a resume was asked (R249). -/
  runnable : Bool
  slotAddr : DWord
  /-- Cores that its clusters have run on; at its completion, the number up to which their staging entries are published (R83). -/
  cores : List Nat := []
  closing : Option Nat := none
  deriving DecidableEq, Repr

/-- A migration or revival request of the fault unit (R302, R305). -/
structure Migr where
  tenant : Nat
  page : Nat
  /-- 0 promotion, 1 demotion to STATE 1, 2 demotion to STATE 0, 3 revival, 4 retirement of its frame. -/
  kind : Nat
  /-- The leaf before. -/
  leaf : DWord
  failed : Bool
  /-- The mailbox command under way asked for it. -/
  mb : Bool
  /-- An uncorrected error has struck a frame that it copies (R302). -/
  err : Bool := false
  /-- The frame that a retirement is for (R377). -/
  frame : Nat := 0
  deriving DecidableEq, Repr

/-- What the fault unit has answered a peer over channel 3 (R306): tenant, page, the leaf with the frame, or none for a refusal. -/
structure RemoteAnswer where
  tenant : Nat
  page : Nat
  leaf : Option DWord
  deriving DecidableEq, Repr

/-- A shoot-down that has completed (R297): tenant, SIZE, virtual address, the number of the next write in coherence order then. -/
structure Shot where
  tenant : Nat
  size : Nat
  va : Nat
  ord : Nat
  deriving DecidableEq, Repr

/-- A request to a peer's fault unit (R306). -/
structure Remote where
  tenant : Nat
  page : Nat
  dev : Nat
  /-- clk at which it was sent. -/
  at0 : Nat
  /-- Shelf whose fault unit sent it (R409). -/
  shelf : Nat := 0
  deriving DecidableEq, Repr

/-- One end of a Tarsor Link (R321 to R324): 0 to 15 the ports, 16 and 17 the ends of the far seam on shelves 0 and 1. -/
structure Link where
  /-- 0 down, 1 training, 2 up, 3 failed. -/
  st : Nat := 0
  next : BitVec 12 := 0
  expect : BitVec 12 := 0
  unacked : List Cell := []
  /-- The block that each unacknowledged reference cell stands for, by SEQ. -/
  refs : NMap (List Byte) := []
  /-- Cells sent on each channel since link-up, modulo 2^14. -/
  sent : NMap (BitVec 14) := []
  /-- Latest FREE received for each channel. -/
  allow : NMap (BitVec 14) := []
  /-- Buffers freed here for each channel. -/
  freed : NMap (BitVec 14) := []
  /-- Kinds and payloads accepted on channels 0 and 1 since training, and those sent and acknowledged or not: what the histories
  of R324 are read from. -/
  rx : List (Nat × List Byte) := []
  tx : List (Nat × List Byte) := []
  /-- Replays of each unacknowledged cell, by SEQ (R385). -/
  replays : NMap Nat := []
  /-- SEQs still to be sent again, oldest first; cells that wait for room among the unacknowledged ones (R323). -/
  redo : List (BitVec 12) := []
  backlog : List Cell := []
  /-- The latest replay request or idle cell as it was sent. -/
  ctl : Option Cell := none
  /-- clk of the latest acknowledgement, or of the first cell sent after it. -/
  ackClk : Nat := 0
  fails : Nat := 0
  /-- Payloads delivered by channel, oldest first. -/
  out : List (BitVec 2 × List Byte) := []
  /-- A replay request is to be sent. -/
  wantReplay : Bool := false
  deriving DecidableEq, Repr

/-- Overwritten bytes, for the reads of R74: address, old value, order number of the write, the core whose store or
atomic it was (R71), 512 for any other writer, and the agents it counts for. -/
structure Hist where
  pa : Nat
  old : Byte
  idx : Nat
  core : Nat
  by_ : List Nat := []
  deriving DecidableEq, Repr

/-- A replica of a line (R58): line, slice, launch; the sectors that were poisoned when it was made. -/
structure Replica where
  line : Nat
  slice : Nat
  ctx : Nat
  bad : BitVec 8 := 0
  deriving DecidableEq, Repr

/-- Bring-up and host-visible status (Tables 16.5, 16.8, 25.2). -/
structure Boot where
  stage : Nat := 0
  ready : Bool := false
  mbovr : Bool := false
  head : Nat := 0
  fwsv : Byte := 0
  errc : Byte := 0
  bdiag : DWord := 0
  /-- Identifiers received in the election: key 8*die + source. -/
  ids : NMap (Option DWord) := []
  mbqbase : DWord := 0
  mbcbase : DWord := 0
  mbhead : BitVec 16 := 0
  mbtail : BitVec 16 := 0
  /-- Flips on each pass round the completion ring (R326). -/
  mbFlip : Bool := false
  /-- The dies have stopped issue (R333). -/
  tripped : Bool := false
  /-- A SAVE command has begun its saves (R286, R326). -/
  mbSave : Bool := false
  /-- clk when the present stage began. -/
  stageClk : Nat := 0
  /-- MSI-X vectors sent, oldest first (R351). -/
  msix : List Nat := []
  deriving DecidableEq, Repr

/-- The state of the module. -/
structure State where
  /-- The model's own: what happens next (DESIGN CHOICE, log entry 1). -/
  agenda : List Stimulus := []
  /-- The model's own: free values drawn so far (DESIGN CHOICE, log entry 2). -/
  free : Nat := 0
  /-- The model's own: next number for requests, watches, commands, warps. -/
  fresh : Nat := 1
  /-- Core clocks since module reset (R258). -/
  clk : Nat := 0
  /-- clk when READY was set; sr.time counts from it. -/
  readyClk : Nat := 0
  /-- The warp whose turn it is. -/
  cur : Warp := {}
  /-- Every other warp, handler warps included. -/
  warps : List Warp := []
  ctxs : List Ctx := []
  clusters : List Cluster := []
  blocks : List Block := []
  saved : List Saved := []
  /-- Pool bytes: key 2^19*core + offset. -/
  pool : NMap Byte := []
  /-- Poisoned 8-byte pool words: key (2^19*core + offset)/8. -/
  poolPoison : NMap Bool := []
  /-- Engine counts of the tiles: key 512*core + tile. -/
  tiles : NMap Nat := []
  /-- Column-store bytes: key 2^22*core + 2^16*column + offset. -/
  cstore : NMap Byte := []
  csPoison : NMap Bool := []
  staging : List Stage := []
  /-- Bytes in the stacks and the capacity tier, by physical address. -/
  dram : NMap Byte := []
  /-- Bytes in the L2 slices, by physical address, where the line's tag is valid. -/
  l2b : NMap Byte := []
  l2 : NMap Line := []
  /-- Write version of each line (R250); 0 at reset (DESIGN CHOICE, log entry 6). -/
  ver : NMap (BitVec 16) := []
  replicas : List Replica := []
  /-- Poisoned 32-byte sectors: key PA/32. -/
  poison : NMap Bool := []
  /-- Sectors that are poisoned where they are stored while a slice holds a clean copy: key PA/32 (R381). -/
  under : NMap Bool := []
  /-- The model's own: overwritten bytes (R74). -/
  hist : List Hist := []
  /-- The model's own: number of the next write in coherence order. -/
  order : Nat := 0
  /-- The model's own: accesses that have reached the home of a moved line before DRAIN cleared (R57); a step that makes one waits. -/
  early : Nat := 0
  /-- Host memory by PCIe bus address, and peer memory by PA[50:0]. -/
  host : NMap Byte := []
  peer : NMap Byte := []
  fmeta : NMap FrameMeta := []
  packets : List Packet := []
  watches : List Watch := []
  tlb : List Tlb := []
  /-- Order number at which a core's instruction cache was last invalidated (R105): key core. -/
  icache : NMap Nat := []
  reqs : List Req := []
  cmds : List Cmd := []
  /-- Commands held at issue by a full tile, oldest first (R52). -/
  held : List Held := []
  /-- Pages that commands at issue wait for (R189). -/
  wants : List Want := []
  /-- Credits on their way to another core (R191). -/
  credits : List Credit := []
  products : List Product := []
  migrs : List Migr := []
  remotes : List Remote := []
  /-- Answers sent to peers' fault units, oldest first (R306). -/
  answers : List RemoteAnswer := []
  /-- Frames never handed out again (R377). -/
  retired : List Nat := []
  /-- Frames in which a stack has reported an uncorrected error, or more corrected ones in a row than the threshold (R377);
  corrected errors of a row of a stack. -/
  failing : List Nat := []
  rowErrs : NMap Nat := []
  /-- Management registers by number (R408); none is the reset value. -/
  mreg : NMap (Option DWord) := []
  /-- Next SEQ of a fault record (R352). -/
  seq : Word := 0
  /-- The next record of a ring carries LOST (R351): key ring. -/
  lost : NMap Bool := []
  links : NMap Link := []
  boot : Boot := {}
  flash : NMap Byte := []
  sram : NMap Byte := []
  /-- Writers of the bytes of memory, by physical address; of a tile whose engine commands have released it, key 512*core + tile; of
  a barrier object's phase, key 65536*pool key + phase (Table 4.4). -/
  sigs : NMap (List Sig) := []
  tileSigs : NMap (List Sig) := []
  barSigs : NMap (List Sig) := []
  /-- Order numbers of committed write sets (R85); of the latest write of a row operation to a line, plus 1 (R253). -/
  sets : List Nat := []
  rows : NMap Nat := []
  /-- Congestion levels received: key 4096*core + 4*source + level, level and clk of the latest message (R285). -/
  congest : NMap (Nat × Nat) := []
  /-- DRR pointer of each priority level (R280). -/
  drr : NMap Nat := []
  /-- clk since which a queue's next cluster has waited for placement, plus 1 (R286). -/
  starve : NMap Nat := []
  /-- clk since which a queue has had a placeable cluster without a grant, plus 1 (R281). -/
  placeable : NMap Nat := []
  /-- Slot of the warp that last issued in a quadrant, plus 1: key 4*core + quadrant (R284). -/
  lastIssue : NMap Nat := []
  /-- Core-cycles charged to a queue since BOOST was set (R281). -/
  boosted : NMap Nat := []
  /-- Highest refresh multiple reported by each stack (R394). -/
  refresh : NMap Nat := []
  /-- Actions of WCTL under way, by core: 1 resume, 2 kill (R317). -/
  wctl : NMap Nat := []
  /-- Tenants told of requests lost since a port failed (R384): port, tenant. -/
  lostTold : List (Nat × Nat) := []
  /-- Ring passes made on each compute die since READY (R332). -/
  ring : NMap Nat := []
  /-- A shoot-down started by system software: its register value (R297). -/
  shoot : Option DWord := none
  /-- The latest shoot-down of each range. -/
  shots : List Shot := []
  /-- Unread records that a tenant's reset under way has discarded (R378). -/
  discarded : NMap Nat := []
  /-- Corrected errors of a unit (R384): key 65536·unit + which; corrections since its last record, and sr.time of that
  record plus 1. -/
  corr : NMap (Nat × Nat) := []
  deriving DecidableEq, Repr

/-- Why the machine stops. -/
inductive Fault where
  /-- exec was asked for an instruction while no clause is running on the focused warp; step never does so.
  Raised by every meaning of an encoded instruction. Safe: nothing runs. -/
  | noIssueGroup
  deriving DecidableEq, Repr

/-- No meaning. -/
inductive Refusal where
  /-- The instruction's meaning is not modelled yet. Raised by Dispatch alone. Safe: nothing runs. -/
  | notModelled (mnemonic : String)
  deriving DecidableEq, Repr

/-- The state right after module reset: stage 0, no warp, every register at its reset value (R5, R327); flash holds
what Config.flash says (DESIGN CHOICE, log entry 10). -/
def State.reset : State := { flash := Config.flash }

end Sys2Proof.Machine
end

