-- ==== Sys2Proof/Machine/Bits.lean ====
section
/-! DEFINITION. Bit fields, lane sets, byte order (R3) and the CRC-32 of R321. -/

namespace Sys2Proof.Machine

/-- Bits [hi:lo] of a number. -/
def bitsN (x hi lo : Nat) : Nat := x / 2 ^ lo % 2 ^ (hi + 1 - lo)

/-- Bits [hi:lo] of a 64-bit word. -/
def fld (x : DWord) (hi lo : Nat) : Nat := bitsN x.toNat hi lo

/-- Bit `i` of a 64-bit word. -/
def fbit (x : DWord) (i : Nat) : Bool := x.getLsbD i

/-- `x` with bits [hi:lo] replaced by `v` modulo the field's size. -/
def putFld (x : DWord) (hi lo v : Nat) : DWord :=
  BitVec.ofNat 64 (x.toNat - bitsN x.toNat hi lo * 2 ^ lo + v % 2 ^ (hi + 1 - lo) * 2 ^ lo)

/-- A 64-bit word from a number, modulo 2^64. -/
def dw (n : Nat) : DWord := BitVec.ofNat 64 n

/-- A 32-bit word from a number, modulo 2^32. -/
def w32 (n : Nat) : Word := BitVec.ofNat 32 n

/-- Whether lane `l` is in the set. -/
def lon (m : Lanes) (l : Nat) : Bool := m.getLsbD l

/-- The lanes of a set, lowest first. -/
def lanesOf (m : Lanes) : List Nat := (List.range 32).filter (lon m)

/-- The set of the listed lanes. -/
def lanesFrom : List Nat → Lanes
  | [] => 0
  | l :: t => (1#32 <<< l) ||| lanesFrom t

/-- The lanes of a set that satisfy `p`. -/
def lanesWhere (m : Lanes) (p : Nat → Bool) : Lanes := lanesFrom ((lanesOf m).filter p)

/-- The lowest lane of a set, 0 for the empty one. -/
def lowLane (m : Lanes) : Nat := ((lanesOf m).head?).getD 0

/-- Every lane. -/
def allLanes : Lanes := BitVec.allOnes 32

/-- A number as `n` bytes, little-endian (R3). -/
def bytesOf : Nat → Nat → List Byte
  | 0, _ => []
  | n + 1, x => BitVec.ofNat 8 x :: bytesOf n (x / 256)

/-- The number that little-endian bytes hold (R3). -/
def ofBytes : List Byte → Nat
  | [] => 0
  | b :: t => b.toNat + 256 * ofBytes t

/-- Sign extension of the low `w` bits of `x`. -/
def signedOf (w x : Nat) : Int :=
  let y := x % 2 ^ w
  if 2 ^ w ≤ 2 * y then (y : Int) - (2 ^ w : Nat) else y

/-- An integer modulo 2^w. -/
def wrapInt (w : Nat) (x : Int) : Nat := (x % (2 ^ w : Nat)).toNat

/-- One bit of the CRC-32 of IEEE 802.3, reflected. -/
def crcBit (c : Word) : Word := if c.getLsbD 0 then (c >>> 1) ^^^ 0xEDB88320#32 else c >>> 1

/-- One byte of the CRC-32. -/
def crcByte (c : Word) (b : Byte) : Word :=
  crcBit (crcBit (crcBit (crcBit (crcBit (crcBit (crcBit (crcBit (c ^^^ b.setWidth 32))))))))

/-- CRC-32 with the IEEE 802.3 polynomial (R321, R347). -/
def crc32 (bs : List Byte) : Word := ~~~ (bs.foldl crcByte 0xFFFFFFFF#32)

/-- Element `i` of a list of words, 0 beyond it. -/
def wordAt (l : List DWord) (i : Nat) : DWord := l.getD i 0

/-- `l` with element `i` replaced. -/
def listSet {α : Type} (l : List α) (i : Nat) (x : α) : List α := l.set i x

/-- The first index of the list at which `p` holds. -/
def findIdx {α : Type} (p : α → Bool) : List α → Option Nat
  | [] => none
  | x :: t => if p x then some 0 else (findIdx p t).map (· + 1)

end Sys2Proof.Machine
end

