-- ==== Sys2Proof/Machine/Float.lean ====
section
/-! DEFINITION. Number formats (R87 to R95) and exact arithmetic: values are a sign, a natural mantissa and a power of
two, so sums and products are exact, and Round (R99) is the one place where a value is rounded. -/

namespace Sys2Proof.Machine

/-- A floating-point format (Table 5.1). -/
structure Fmt where
  /-- E. -/
  eb : Nat
  /-- M. -/
  mb : Nat
  bias : Nat
  /-- Infinity is encoded. -/
  hasInf : Bool
  hasNaN : Bool
  /-- Largest finite encoding, sign aside. -/
  maxEnc : Nat
  /-- Canonical NaN (Table 5.2). -/
  qnan : Nat
  deriving DecidableEq, Repr

/-- FP64. -/
def f64 : Fmt := ⟨11, 52, 1023, true, true, 0x7FEFFFFFFFFFFFFF, 0x7FF8000000000000⟩
/-- FP32. -/
def f32 : Fmt := ⟨8, 23, 127, true, true, 0x7F7FFFFF, 0x7FC00000⟩
/-- FP16. -/
def f16 : Fmt := ⟨5, 10, 15, true, true, 0x7BFF, 0x7E00⟩
/-- BF16. -/
def bf16 : Fmt := ⟨8, 7, 127, true, true, 0x7F7F, 0x7FC0⟩
/-- E5M2. -/
def e5m2 : Fmt := ⟨5, 2, 15, true, true, 0x7B, 0x7F⟩
/-- E4M3. -/
def e4m3 : Fmt := ⟨4, 3, 7, false, true, 0x7E, 0x7F⟩
/-- E3M2. -/
def e3m2 : Fmt := ⟨3, 2, 3, false, false, 0x1F, 0⟩
/-- E2M3. -/
def e2m3 : Fmt := ⟨2, 3, 1, false, false, 0x1F, 0⟩
/-- E2M1. -/
def e2m1 : Fmt := ⟨2, 1, 1, false, false, 0x7, 0⟩

/-- Bits of a format. -/
def Fmt.width (F : Fmt) : Nat := 1 + F.eb + F.mb
/-- Emin: exponent of the smallest normal value. -/
def Fmt.emin (F : Fmt) : Int := 1 - (F.bias : Int)
/-- The sign bit's weight. -/
def Fmt.signBit (F : Fmt) : Nat := 2 ^ (F.eb + F.mb)
/-- The encoding of +∞. -/
def Fmt.infEnc (F : Fmt) : Nat := (2 ^ F.eb - 1) * 2 ^ F.mb
/-- The smallest normal encoding. -/
def Fmt.minNormal (F : Fmt) : Nat := 2 ^ F.mb

/-- An exact value: NaN, an infinity, or (−1)^neg · man · 2^ex, zeros signed. -/
inductive FV where
  | nan
  | inf (neg : Bool)
  | num (neg : Bool) (man : Nat) (ex : Int)
  deriving DecidableEq, Repr

/-- The value of an encoding (R87). -/
def decodeF (F : Fmt) (x : Nat) : FV :=
  let x := x % 2 ^ F.width
  let neg := decide (F.signBit ≤ x)
  let a := x % F.signBit
  let e := a / 2 ^ F.mb
  let m := a % 2 ^ F.mb
  if F.maxEnc < a then (if F.hasInf && a = F.infEnc then .inf neg else .nan)
  else if e = 0 then .num neg m (F.emin - F.mb)
  else .num neg (m + 2 ^ F.mb) (F.emin - F.mb + (e - 1 : Nat))

/-- An encoding of magnitude `a` with a sign. -/
def signed (F : Fmt) (neg : Bool) (a : Nat) : Nat := if neg then F.signBit + a else a

/-- NaNOut of R99. -/
def nanOut (F : Fmt) : Nat := F.qnan

/-- Overflow of R99; modes 0 RNE, 1 RZ, 2 RU, 3 RD, 4 RS. -/
def overflowF (F : Fmt) (neg : Bool) (mode : Nat) (sat wasInf : Bool) : Nat :=
  if sat || !(F.hasInf || F.hasNaN) then signed F neg F.maxEnc
  else if !wasInf && (mode = 1 || (mode = 2 && neg) || (mode = 3 && !neg)) then signed F neg F.maxEnc
  else if F.hasInf then signed F neg F.infEnc
  else signed F neg (F.signBit - 1)

/-- ⌊log2⌋ of a nonzero dyadic. -/
def flog (m : Nat) (e : Int) : Int := (Nat.log2 m : Int) + e

/-- The magnitude encoding that Round reaches before the overflow test; `sticky` says that the exact value lies a
little above the dyadic. -/
def roundMag (F : Fmt) (mode rnd : Nat) (neg : Bool) (m : Nat) (e : Int) (sticky : Bool) : Nat :=
  let ex := max (flog m e) F.emin
  let u := ex - F.mb
  let sh := (u - e).toNat
  let q := if u ≤ e then m * 2 ^ (e - u).toNat else m / 2 ^ sh
  let rem := if u ≤ e then 0 else m % 2 ^ sh
  let half := 2 ^ sh
  let up : Bool := match mode with
    | 0 => decide (half < 2 * rem) || (decide (2 * rem = half) && (sticky || q % 2 == 1))
    | 1 => false
    | 2 => (decide (0 < rem) || sticky) && !neg
    | 3 => (decide (0 < rem) || sticky) && neg
    | _ => decide (2 ^ 32 ≤ rem * 2 ^ 32 / half + rnd)
  ((ex - F.emin).toNat) * 2 ^ F.mb + q + (if up then 1 else 0)

/-- The encoding of 2^−126, below which .ftz flushes a result (R100): 0 in a format whose every nonzero value is larger. -/
def Fmt.flushEnc (F : Fmt) : Nat := (F.bias - 126) * 2 ^ F.mb

/-- Round of R99 on an exact value; `rnd` are the random bits of .rs, `ftz` the flush of R100. -/
def roundF (F : Fmt) (mode rnd : Nat) (sat ftz : Bool) (x : FV) (sticky : Bool := false) : Nat :=
  match x with
  | .nan => nanOut F
  | .inf neg => overflowF F neg mode sat true
  | .num neg m e =>
    if m = 0 then signed F neg 0
    else
      let a := roundMag F mode rnd neg m e sticky
      if F.maxEnc < a then overflowF F neg mode sat false
      else if ftz && a < F.flushEnc then signed F neg 0
      else signed F neg a

/-- The sign of a value; NaN counts as positive. -/
def FV.neg : FV → Bool
  | .nan => false
  | .inf s => s
  | .num s _ _ => s

/-- Negation. -/
def FV.flip : FV → FV
  | .nan => .nan
  | .inf s => .inf !s
  | .num s m e => .num (!s) m e

/-- Whether a value is zero. -/
def FV.isZero : FV → Bool
  | .num _ m _ => m == 0
  | _ => false

/-- Whether a value is NaN. -/
def FV.isNaN : FV → Bool
  | .nan => true
  | _ => false

/-- Whether a value is finite. -/
def FV.finite : FV → Bool
  | .num _ _ _ => true
  | _ => false

/-- The signed mantissa of a number at exponent `k`, not above its own. -/
def mantAt (neg : Bool) (m : Nat) (e k : Int) : Int :=
  let v : Int := m * 2 ^ (e - k).toNat
  if neg then -v else v

/-- The value of an integer mantissa; `z` is the sign of a zero. -/
def ofInt (v : Int) (e : Int) (z : Bool) : FV :=
  if v = 0 then .num z 0 0 else .num (decide (v < 0)) v.natAbs e

/-- Exact sum; a sum of opposite values is −0 under RD and +0 otherwise, of equal zeros that zero (R157). -/
def addFV (mode : Nat) : FV → FV → FV
  | .nan, _ => .nan
  | _, .nan => .nan
  | .inf s, .inf t => if s = t then .inf s else .nan
  | .inf s, _ => .inf s
  | _, .inf t => .inf t
  | .num s m e, .num t n f =>
    if m = 0 ∧ n = 0 then .num (if s = t then s else mode = 3) 0 0
    else
      let k := min e f
      ofInt (mantAt s m e k + mantAt t n f k) k (mode = 3)

/-- Exact sum of terms, with the zero signs of R157: −0 when every term is −0; under RD unless every term is +0. -/
def sumFV (mode : Nat) (ts : List FV) : FV :=
  if ts.any FV.isNaN then .nan
  else
    let pos := ts.any fun t => t == .inf false
    let neg := ts.any fun t => t == .inf true
    if pos && neg then .nan
    else if pos then .inf false
    else if neg then .inf true
    else
      let es := ts.filterMap fun t => match t with
        | .num _ _ e => some e
        | _ => none
      let k := es.foldl min (es.headD 0)
      let v := ts.foldl (fun a t => match t with
        | .num s m e => a + mantAt s m e k
        | _ => a) (0 : Int)
      let isZ := fun (neg : Bool) (t : FV) => t.isZero && t.neg == neg
      if v = 0 then .num (if mode = 3 then !ts.all (isZ false) else !ts.isEmpty && ts.all (isZ true)) 0 0
      else ofInt v k false

/-- Exact product; ∞ · 0 is NaN. -/
def mulFV : FV → FV → FV
  | .nan, _ => .nan
  | _, .nan => .nan
  | .inf s, .inf t => .inf (s != t)
  | .inf s, .num t m _ => if m = 0 then .nan else .inf (s != t)
  | .num s m _, .inf t => if m = 0 then .nan else .inf (s != t)
  | .num s m e, .num t n f => .num (s != t) (m * n) (e + f)

/-- Order of two values: none with a NaN; the zeros are equal. -/
def cmpFV : FV → FV → Option Ordering
  | .nan, _ => none
  | _, .nan => none
  | .inf s, .inf t => some (if s = t then .eq else if s then .lt else .gt)
  | .inf s, _ => some (if s then .lt else .gt)
  | _, .inf t => some (if t then .gt else .lt)
  | .num s m e, .num t n f =>
    let k := min e f
    some (compare (mantAt s m e k) (mantAt t n f k))

/-- Multiplication by 2^k. -/
def scaleFV (k : Int) : FV → FV
  | .num s m e => .num s m (e + k)
  | x => x

/-- Flushing a subnormal FP32 operand to a zero of its sign (R100). -/
def ftzIn (ftz : Bool) (x : Nat) : Nat :=
  if ftz && x % 2 ^ 31 < 2 ^ 23 then x / 2 ^ 31 % 2 * 2 ^ 31 else x

/-- A value's integer part under a rounding mode: the signed integer. -/
def roundInt (mode : Nat) (neg : Bool) (m : Nat) (e : Int) : Int :=
  let q := if 0 ≤ e then m * 2 ^ e.toNat else m / 2 ^ (-e).toNat
  let rem := if 0 ≤ e then 0 else m % 2 ^ (-e).toNat
  let half := if 0 ≤ e then 2 else 2 ^ (-e).toNat
  let up : Bool := match mode with
    | 0 => decide (half < 2 * rem) || (decide (2 * rem = half) && q % 2 == 1)
    | 1 => false
    | 2 => decide (0 < rem) && !neg
    | _ => decide (0 < rem) && neg
  let v : Int := (q + (if up then 1 else 0) : Nat)
  if neg then -v else v

/-- Rounding to an integer type of `w` bits, saturating; NaN gives 0 (R99). -/
def toIntF (mode w : Nat) (isSigned : Bool) (x : FV) : Nat :=
  let hi : Int := if isSigned then 2 ^ (w - 1) - 1 else 2 ^ w - 1
  let lo : Int := if isSigned then -(2 ^ (w - 1)) else 0
  match x with
  | .nan => 0
  | .inf s => wrapInt w (if s then lo else hi)
  | .num s m e => wrapInt w (max lo (min hi (roundInt mode s m e)))

/-- The value of an integer. -/
def intFV (v : Int) : FV := ofInt v 0 false

/-- Element formats by type code (Table 6.10b). -/
def fmtOfType (t : Nat) : Option Fmt :=
  match t with
  | 0x0A => some f64
  | 0x0B => some f32
  | 0x0C => some f16
  | 0x0D => some bf16
  | 0x0E => some e5m2
  | 0x0F => some e4m3
  | 0x10 => some e3m2
  | 0x11 => some e2m3
  | 0x12 => some e2m1
  | _ => none

/-- RandomBits of R101: seed, counter, linear position, element. -/
def randomBits (seed ctr : Word) (g j : Nat) : Nat :=
  let z0 := ((seed.toNat * 2 ^ 32 + ctr.toNat) ^^^ (g * 0x9E3779B97F4A7C15) ^^^ (j * 2 ^ 56)) % 2 ^ 64
  let z1 := (z0 ^^^ (z0 / 2 ^ 30)) * 0xBF58476D1CE4E5B9 % 2 ^ 64
  let z2 := (z1 ^^^ (z1 / 2 ^ 27)) * 0x94D049BB133111EB % 2 ^ 64
  (z2 ^^^ (z2 / 2 ^ 31)) / 2 ^ 32

/-- MatrixChunk of R102 on products and the accumulator. -/
def matrixChunk (c : FV) (ps : List FV) : Nat :=
  let ts := ps ++ [c]
  if ts.any FV.isNaN then f32.qnan
  else
    let pos := ts.any fun t => t == .inf false
    let neg := ts.any fun t => t == .inf true
    if pos && neg then f32.qnan
    else if pos then f32.infEnc
    else if neg then signed f32 true f32.infEnc
    else if ts.all FV.isZero then signed f32 (ts.all FV.neg) 0
    else
      let es := ts.filterMap fun t => match t with
        | .num _ m e => if m = 0 then none else some (flog m e)
        | _ => none
      let q := es.foldl max (es.headD 0) - 47
      let term : FV → Int := fun t => match t with
        | .num s m e =>
          let v : Int := if q ≤ e then m * 2 ^ (e - q).toNat else ((m / 2 ^ (q - e).toNat : Nat) : Int)
          if s then -v else v
        | _ => 0
      let sum := ts.foldl (fun a t => a + term t) 0
      if sum = 0 then 0 else roundF f32 0 0 false false (ofInt sum q false)

/-- INT8 accumulation of one chunk (R103). -/
def intChunk (c : Nat) (ps : List Int) : Nat := wrapInt 32 (ps.foldl (· + ·) (signedOf 32 c))

/-- Value of an E8M0 scale byte (R92): the exponent, none for NaN. -/
def scaleExp (b : Nat) : Option Int := if b = 255 then none else some ((b : Int) - 127)

/-- The value of an element under its scale (R92). -/
def scaled (b : Nat) (x : FV) : FV :=
  match scaleExp b with
  | none => .nan
  | some k => scaleFV k x

/-- MXINT8: the integer times 2^−6 (R92). -/
def mxInt8 (x : Nat) : FV := scaleFV (-6) (intFV (signedOf 8 x))

/-- Magnitude comparison of finite numbers. -/
def magLt : FV → FV → Bool
  | .num _ m e, .num _ n f => let k := min e f; decide (m * 2 ^ (e - k).toNat < n * 2 ^ (f - k).toNat)
  | _, _ => false

/-- The largest magnitude among finite values (R93). -/
def amaxFV (xs : List FV) : Option FV :=
  (xs.filter FV.finite).foldl (fun a x => match a with
    | none => some x
    | some y => if magLt y x then some x else some y) none

/-- MX scale selection (R93); `em` is Emax of the element format. -/
def mxScale (em : Int) (xs : List FV) : Nat :=
  if xs.any FV.isNaN then 0xFF
  else
    match amaxFV xs with
    | some (.num _ m e) => if m = 0 then 0x7F else (max (-127) (min 127 (flog m e - em)) + 127).toNat
    | _ => 0x7F

/-- Codebook quantisation (R95): the index for `x`. Where the codebook holds neither what R95 looks for nor a finite entry, a NaN
or an infinity takes index 0 (DESIGN CHOICE, log entry 120). -/
def cbIndex (cb : List FV) (x : FV) : Nat :=
  let idx := List.range cb.length
  let at_ := fun i => cb.getD i .nan
  let fins := idx.filter fun i => (at_ i).finite
  let best := fun (better : FV → FV → Bool) =>
    (fins.foldl (fun a i => match a with
      | none => some i
      | some j => if better (at_ i) (at_ j) then some i else some j) none).getD 0
  let gt := fun a b => cmpFV a b == some .gt
  let lt := fun a b => cmpFV a b == some .lt
  let dist := fun i => match addFV 0 (at_ i) x.flip with
    | .num _ m e => FV.num false m e
    | y => y
  match x with
  | .nan => ((idx.find? fun i => (at_ i).isNaN)).getD (best gt)
  | .inf s => ((idx.find? fun i => at_ i == .inf s)).getD (best (if s then lt else gt))
  | .num _ _ _ =>
    (fins.foldl (fun a i => match a with
      | none => some i
      | some j => if magLt (dist i) (dist j) then some i else some j) none).getD 0

end Sys2Proof.Machine
end

