-- ==== Sys2Proof/Machine/Regs.lean ====
section
/-! DEFINITION. The management registers by number (R408, R409, Table 16.13), where a core stands (Table 1.2), the
clocks, the free values, and finding warps, launches, clusters and blocks. -/

namespace Sys2Proof.Machine

/-- A register number: DOM, FAM, IDX (R408). -/
def mnum (dom fam idx : Nat) : Nat := dom * 2 ^ 28 + fam * 2 ^ 20 + idx

/-- Reset value of a management register; a fw field holds its value from MEMORY_INITIALISATION on (R330), and reads as this between
module reset and READY, TLCTL.EN of the far seam, which is fixed at 1, apart (DESIGN CHOICE, log entry 132). -/
def mregReset (n : Nat) : DWord :=
  match bitsN n 27 20 with
  | 0x06 => if bitsN n 19 0 = 16 then 3 else 2
  | 0x14 => 1
  | 0x22 => 0x100000
  | _ => 0

/-- A management register's value. -/
def mget (s : State) (n : Nat) : DWord := (nget none s.mreg n).getD (mregReset n)

/-- Setting a management register. -/
def mput (s : State) (n : Nat) (v : DWord) : State :=
  { s with mreg := nset none s.mreg n (if v = mregReset n then none else some v) }

/-- A register that exists on each shelf: shelf `k`'s copy (R409). -/
def shelfReg (s : State) (k fam idx : Nat) : DWord := mget s (mnum k fam idx)

/-- A register of shelf 0 that acts for the package (R409). -/
def pkgReg (s : State) (fam idx : Nat) : DWord := mget s (mnum 0 fam idx)

/-- Setting a register of shelf 0. -/
def pkgPut (s : State) (fam idx : Nat) (v : DWord) : State := mput s (mnum 0 fam idx) v

/-- Setting both shelves' copies. -/
def bothPut (s : State) (fam idx : Nat) (v : DWord) : State := mput (mput s (mnum 0 fam idx) v) (mnum 1 fam idx) v

/-- A core's register: instance `idx` of family `fam` (Table 16.13). -/
def coreReg (s : State) (core fam idx : Nat) : DWord := mget s (mnum 3 fam (core * 2 ^ 11 + idx))

/-- Setting a core's register. -/
def coreRegPut (s : State) (core fam idx : Nat) (v : DWord) : State := mput s (mnum 3 fam (core * 2 ^ 11 + idx)) v

/-- Compute die of a core (Table 1.2): 96 cores a die. -/
def coreDie (core : Nat) : Nat := core / 96

/-- Shelf of a core: dies 0 and 1 stand on shelf 0. -/
def coreShelf (core : Nat) : Nat := coreDie core / 2

/-- Cove of a core: 12 cores a cove (Table 1.2). -/
def coreCove (core : Nat) : Nat := core / 12

/-- sr.time: microseconds since READY was set (R258, Table 11.10). -/
def timeOf (s : State) : DWord := if s.boot.ready then dw ((s.clk - s.readyClk) / Config.clkPerUs) else 0

/-- Drawing a free value (DESIGN CHOICE, log entry 2). -/
def draw (s : State) : DWord × State := (Config.freeBits s.free, { s with free := s.free + 1 })

/-- Free bytes. -/
def freeBytes (s : State) (n : Nat) : List Byte × State :=
  ((List.range n).map fun i => (Config.freeBits (s.free + i)).setWidth 8, { s with free := s.free + n })

/-- A free choice among 0 to n - 1; with one choice nothing is drawn. -/
def choose (s : State) (n : Nat) : Nat × State :=
  if n ≤ 1 then (0, s) else ((Config.freeBits s.free).toNat % n, { s with free := s.free + 1 })

/-- A free element of a list. -/
def chooseFrom {α : Type} (d : α) (s : State) (l : List α) : α × State :=
  let (k, s) := choose s l.length
  (l.getD k d, s)

/-- The next number for a request, watch, command or warp. -/
def takeId (s : State) : Nat × State := (s.fresh, { s with fresh := s.fresh + 1 })

/-- Every warp, the focused one first. -/
def State.allWarps (s : State) : List Warp := if s.cur.uid = 0 then s.warps else s.cur :: s.warps

/-- The warp of a number. -/
def findWarp (s : State) (uid : Nat) : Option Warp := s.allWarps.find? fun w => w.uid == uid && uid != 0

/-- The warp in a slot of a quadrant; slot 16 is the handler slot. -/
def warpAt (s : State) (core quad slot : Nat) : Option Warp :=
  s.allWarps.find? fun w => w.core == core && w.quad == quad && w.slot == slot

/-- Replacing a warp by its number. -/
def putWarp (s : State) (w : Warp) : State :=
  if s.cur.uid = w.uid then { s with cur := w }
  else { s with warps := s.warps.map fun x => if x.uid == w.uid then w else x }

/-- Removing a warp, with what it holds at issue. -/
def dropWarp (s : State) (uid : Nat) : State :=
  let s := { s with held := s.held.filter fun h => h.warp != uid, wants := s.wants.filter fun x => x.warp != uid }
  if s.cur.uid = uid then { s with cur := {} } else { s with warps := s.warps.filter fun x => x.uid != uid }

/-- Making the warp of a number the focused one. -/
def focus (s : State) (uid : Nat) : State :=
  if s.cur.uid = uid then s
  else
    match s.warps.find? fun w => w.uid == uid with
    | none => s
    | some w =>
      let rest := s.warps.filter fun x => x.uid != uid
      { s with cur := w, warps := if s.cur.uid = 0 then rest else s.cur :: rest }

/-- Changing the focused warp. -/
def onCur (s : State) (f : Warp → Warp) : State := { s with cur := f s.cur }

/-- The launch of a number. -/
def findCtx (s : State) (id : Nat) : Option Ctx := s.ctxs.find? fun c => c.id == id

/-- Replacing a launch. -/
def putCtx (s : State) (c : Ctx) : State := { s with ctxs := s.ctxs.map fun x => if x.id == c.id then c else x }

/-- The placed cluster of a launch. -/
def findCluster (s : State) (ctx num : Nat) : Option Cluster := s.clusters.find? fun c => c.ctx == ctx && c.num == num

/-- Replacing a cluster. -/
def putCluster (s : State) (c : Cluster) : State :=
  { s with clusters := s.clusters.map fun x => if x.ctx == c.ctx && x.num == c.num then c else x }

/-- A block. -/
def findBlock (s : State) (ctx clu bid : Nat) : Option Block :=
  s.blocks.find? fun b => b.ctx == ctx && b.clu == clu && b.bid == bid

/-- Replacing a block. -/
def putBlock (s : State) (b : Block) : State :=
  { s with blocks := s.blocks.map fun x => if x.ctx == b.ctx && x.clu == b.clu && x.bid == b.bid then b else x }

/-- The launch of a warp. -/
def ctxOf (s : State) (w : Warp) : Option Ctx := findCtx s w.ctx

/-- The tenant of a warp (Table 11.10). -/
def tenantOf (s : State) (w : Warp) : Nat := ((ctxOf s w).map (·.tenant)).getD 0

/-- Word `i` of a warp's kernel header (Table 6.16). -/
def khdrWord (s : State) (w : Warp) (i : Nat) : DWord := ((ctxOf s w).map fun c => wordAt c.khdr i).getD 0

/-- TRAPCFG of a warp's kernel (Table 6.16, word 3 [47:16]); its bits keep the numbers of the table. -/
def trapCfg (s : State) (w : Warp) (bit : Nat) : Bool := fbit (khdrWord s w 3) bit

/-- Whether a tenant is being reset (TRST.BUSY, Table 22.4). -/
def resetting (s : State) (ten : Nat) : Bool := fbit (pkgReg s 0x26 ten) 1

/-- Whether a launch's engine commands have stopped, its tenant being reset (R378 step 3). -/
def ctxHalted (s : State) (ctx : Nat) : Bool := (findCtx s ctx).any fun x => resetting s x.tenant

/-- The cluster a warp belongs to. -/
def clusterOf (s : State) (w : Warp) : Option Cluster := findCluster s w.ctx w.clu

/-- The block a warp belongs to. -/
def blockOf (s : State) (w : Warp) : Option Block := findBlock s w.ctx w.clu w.bid

/-- Member index of a core in a cluster (R29). -/
def memberOf (c : Cluster) (core : Nat) : Nat := (findIdx (· == core) c.cores).getD 0

end Sys2Proof.Machine
end

