-- ==== Sys2Proof/Machine/Home.lean ====
section
/-! DEFINITION. Physical memory at the home slices: the address map (Table 14.1), home choice (R56), application of
writes in coherence order (R55, R68), evaluation of watches (R247), write-back, staging (R54, R70 to R72), and the
reads of a phase (R74). -/

namespace Sys2Proof.Machine

/-- What stands at a physical address (Table 14.1, R61). -/
inductive PaKind where
  | fast | capacity | host | peer | reserved | unpopulated
  deriving DecidableEq, Repr

/-- Table 14.1 on the ZS-H9M. -/
def paKind (pa : Nat) : PaKind :=
  if pa < Config.fastEnd then .fast
  else if pa < Config.cap0 then .reserved
  else if pa < Config.cap1 then (if pa < Config.cap0 + Config.capBytes then .capacity else .unpopulated)
  else if pa < 0x200000000000 then (if pa < Config.cap1 + Config.capBytes then .capacity else .unpopulated)
  else if pa < 0x4000000000000 then .reserved
  else if pa < 0x8000000000000 then .host
  else if pa < 0x10000000000000 then .peer
  else .reserved

/-- Device-local memory: either tier. -/
def paLocal (pa : Nat) : Bool := paKind pa = .fast || paKind pa = .capacity

/-- The bank of the interleave table in force (R57): IRTCTL.ACT. -/
def irtBank (s : State) (shelf : Nat) : Nat := fld (shelfReg s shelf 0x02 0) 0 0

/-- The hash h of R56. -/
def homeHash (pa : Nat) : Nat := bitsN pa 14 8 ^^^ bitsN pa 21 15 ^^^ bitsN pa 28 22

/-- The home slice in one bank of the table (R56, Table 3.4). -/
def homeIn (s : State) (shelf bank pa : Nat) : Nat :=
  let h := homeHash pa
  let entry := (List.range 32).findSome? fun n =>
    let e := shelfReg s shelf 0x01 (32 * bank + n)
    if fbit e 63 && decide (fld e 21 0 ≤ bitsN pa 51 30) && decide (bitsN pa 51 30 ≤ fld e 43 22) then some e else none
  match entry with
  | none => h
  | some e =>
    match fld e 62 60 with
    | 1 => h % 64
    | 2 => 64 + h % 64
    | 3 => 64 * (fld e 59 58 / 2) + 32 * (fld e 59 58 % 2) + h % 32
    | _ => h

/-- The home slice of a line now, as the copy of the requester's shelf has it (R409). -/
def homeSlice (s : State) (shelf pa : Nat) : Nat := homeIn s shelf (irtBank s 0) pa

/-- Whether a line's home differs between the two generations of a shelf's table (R57). -/
def homeMoved (s : State) (shelf pa : Nat) : Bool := homeIn s shelf 0 pa != homeIn s shelf 1 pa

/-- Whether a line's home changes for the requests of either shelf. -/
def anyMoved (s : State) (pa : Nat) : Bool := homeMoved s 0 pa || homeMoved s 1 pa

/-- A change of generation is draining (R57). -/
def draining (s : State) : Bool := fbit (shelfReg s 0 0x02 0) 1

/-- A request tagged with bank 1 or 0 that its new-generation home holds until DRAIN clears (R57). -/
def drainHolds (s : State) (shelf : Nat) (gen : Bool) (pa : Nat) : Bool :=
  draining s && gen == decide (irtBank s 0 = 1) && homeMoved s shelf pa

/-- The requester's near slice for replicas (R58). -/
def nearSlice (core pa : Nat) : Nat := 64 * coreShelf core + 32 * (coreDie core % 2) + homeHash pa % 32

/-- An L2 line's tags. -/
def lineOf (s : State) (pa : Nat) : Line := nget {} s.l2 (pa / 256)

/-- Whether the sector of `pa` is valid in its home slice. -/
def sectorValid (s : State) (pa : Nat) : Bool := (lineOf s pa).valid.getLsbD (pa / 32 % 8)

/-- The coherence-latest byte at a physical address (R55) (DESIGN CHOICE, log entry 5) (DESIGN CHOICE, log entry 7). -/
def homeByte (s : State) (pa : Nat) : Byte :=
  match paKind pa with
  | .host => nget 0 s.host (pa % 2 ^ 50)
  | .peer => nget 0 s.peer (pa % 2 ^ 51)
  | _ => if sectorValid s pa then nget 0 s.l2b pa else nget 0 s.dram pa

/-- Coherence-latest bytes. -/
def homeBytes (s : State) (pa n : Nat) : List Byte := (List.range n).map fun j => homeByte s (pa + j)

/-- Coherence-latest bytes as a little-endian number. -/
def homeNat (s : State) (pa n : Nat) : Nat := ofBytes (homeBytes s pa n)

/-- Whether sector `k` is poisoned where it is stored: beneath its slice, where that holds it (R381). -/
def storedPoison (s : State) (k : Nat) : Bool := nget false (if sectorValid s (32 * k) then s.under else s.poison) k

/-- Setting that. -/
def setStoredPoison (s : State) (k : Nat) (b : Bool) : State :=
  if sectorValid s (32 * k) then { s with under := nset false s.under k b } else { s with poison := nset false s.poison k b }

/-- A sector comes to its slice, with its poison (R382); what stands beneath stays. -/
def fillWith (s : State) (pa : Nat) (bs : List Byte) : State :=
  if sectorValid s pa then s
  else
    let l := lineOf s pa
    { s with
      l2b := nsetRange 0 s.l2b (pa / 32 * 32) bs
      l2 := nset {} s.l2 (pa / 256) { l with valid := l.valid ||| (1#8 <<< (pa / 32 % 8)) }
      under := nset false s.under (pa / 32) (nget false s.poison (pa / 32)) }

/-- Filling a sector from memory for a merge or a read (R55). -/
def fillSector (s : State) (pa : Nat) : State := fillWith s pa (ngetRange 0 s.dram (pa / 32 * 32) 32)

/-- An access of `n` bytes reaches its homes: the step that makes it has to wait where a home of a moved line holds it until DRAIN clears
(R57). -/
def reachHome (s : State) (pa n : Nat) : State :=
  if draining s && paLocal pa && (List.range ((pa % 256 + n + 255) / 256)).any fun k => anyMoved s ((pa / 256 + k) * 256) then
    { s with early := s.early + 1 }
  else s

/-- A read of bytes at their homes: a miss fills the sectors it asks for (R55). -/
def fillBytes (s : State) (pa n : Nat) : State :=
  let s := reachHome s pa n
  if paLocal pa then (List.range ((pa % 32 + n + 31) / 32)).foldl (fun s k => fillSector s ((pa / 32 + k) * 32)) s else s

/-! Writers (R75). -/

/-- Two views together. -/
def joinView (a b : Past) : Past := b.foldl (fun m e => nset 0 m e.1 (max (nget 0 m e.1) e.2)) a

/-- The view of every write so far. -/
def allBefore (s : State) : Past := nset 0 [] 0 s.order

/-- A thread's number among the agents. -/
def laneAgent (w : Warp) (lane : Nat) : Nat := 32 * w.uid + lane

/-- An agent of the module outside the cores: the mailbox engine and those that act for it, the scheduler, the fault unit. Its writes
before this one are published at .system, as is what the host has seen by then (R82, R279). -/
def hostSig (s : State) : Sig := ⟨512, 0, 0, 0, 0, [1], [[], [], [], [], [], [], allBefore s]⟩

/-- A thread as a writer. -/
def laneSig (w : Warp) (lane : Nat) : Sig :=
  ⟨w.core, w.ctx, w.clu, w.bid, w.uid, [laneAgent w lane], (List.range 7).map fun k => nget [] w.rel (8 * lane + k)⟩

/-- Whether one scope includes both of two agents (R75, Table 0.3): each scope includes the narrower ones that contain the same agent
(R6), so the dies of a bonded cluster's members are one with it; an agent outside the cores is in .device and .system. -/
def Sig.shares (sc : Nat) (a b : Sig) : Bool :=
  let cores := a.uid != 0 && b.uid != 0
  match sc with
  | 0 => false
  | 1 => cores && a.uid == b.uid
  | 2 => cores && a.ctx == b.ctx && a.clu == b.clu && a.bid == b.bid
  | 3 => cores && a.ctx == b.ctx && a.clu == b.clu
  | 4 => cores && (coreDie a.core == coreDie b.core || (a.ctx == b.ctx && a.clu == b.clu))
  | _ => true

/-- What an acquire at a scope by `q` takes from a signal of `g` that it has observed: what happened before g's latest releases at scopes
that include `q`, where the acquire's own scope includes `g` (R75). -/
def Sig.view (sc : Nat) (q g : Sig) : Past :=
  if g.shares sc q then (List.range 7).foldl (fun m k => if g.shares k q then joinView m (g.rel.getD k []) else m) [] else []

/-- The same for several signals. -/
def sigsView (sc : Nat) (q : Sig) (gs : List Sig) : Past := gs.foldl (fun m g => joinView m (g.view sc q)) []

/-- The writers of a unit's bytes. -/
def homeSigs (s : State) (pa n : Nat) : List Sig := ((List.range n).flatMap fun j => nget [] s.sigs (pa + j)).eraseDups

/-- The committed write sets that a read of a unit, standing before order number `t`, has met a value of (R85). -/
def setSeen (s : State) (pa n t : Nat) : Past :=
  (List.range n).foldl (fun m j =>
    match s.hist.find? fun h => h.pa == pa + j && decide (h.idx < t) with
    | some h => if s.sets.contains h.idx then nset 0 m (2 ^ 50 + h.idx) 1 else m
    | none => m) []

/-- Whether a write happens before what a view stands for. -/
def Hist.before (h : Hist) (v : Past) : Bool :=
  decide (h.idx < nget 0 v 0) || nget 0 v (2 ^ 50 + h.idx) != 0 || h.by_.any fun k => decide (h.idx < nget 0 v k)

/-- The order number past the latest write to a unit that happens before a phase that begins with a view (R74, R76). -/
def viewFloor (s : State) (v : Past) (pa n : Nat) : Nat :=
  (s.hist.filter fun h => decide (pa ≤ h.pa) && decide (h.pa < pa + n) && h.before v).foldl (fun m h => max m (h.idx + 1)) 0

/-- A map of views by 8·lane + scope, raised for lanes at every scope. -/
def raiseViews (lanes : List Nat) (f : Nat → Nat → Past) (m : NMap Past) : NMap Past :=
  lanes.foldl (fun m l => (List.range 7).foldl (fun m sc => nset [] m (8 * l + sc) (joinView (nget [] m (8 * l + sc)) (f l sc))) m) m

/-- What lanes of a warp have observed: values of writers `gs`, those of write sets. -/
def observe (lanes : List Nat) (gs : List Sig) (sets : Past) (w : Warp) : Warp :=
  { w with obs := raiseViews lanes (fun l sc => sigsView sc (laneSig w l) gs) w.obs
           obsAny := if sets.isEmpty then w.obsAny else raiseViews lanes (fun _ _ => sets) w.obsAny }

/-- Writing one byte at its home, with the bookkeeping of its sector. -/
def homeByteSet (s : State) (core : Nat) (by_ : List Nat) (pa : Nat) (b : Byte) : State :=
  let s := { s with hist := ⟨pa, homeByte s pa, s.order, core, by_⟩ :: s.hist }
  match paKind pa with
  | .host => { s with host := nset 0 s.host (pa % 2 ^ 50) b }
  | .peer => { s with peer := nset 0 s.peer (pa % 2 ^ 51) b }
  | _ =>
    let s := fillSector s pa
    let l := lineOf s pa
    { s with
      l2b := nset 0 s.l2b pa b
      l2 := nset {} s.l2 (pa / 256) { l with dirty := l.dirty ||| (1#8 <<< (pa / 32 % 8)) } }

/-- Whether any byte of a range lies in a poisoned sector (R381). -/
def poisonedAt (s : State) (pa n : Nat) : Bool := (List.range n).any fun j => nget false s.poison ((pa + j) / 32)

/-- Compare of a watch (Table 11.4): m against operand b under mask c. -/
def watchHolds (w : Watch) (m : Nat) : Bool :=
  let b := w.operand.toNat % 2 ^ (8 * w.width)
  let c := w.mask.toNat % 2 ^ (8 * w.width)
  let lt := if w.signed then signedOf (8 * w.width) m < signedOf (8 * w.width) b else m < b
  match w.cmp with
  | 0 => m == b
  | 1 => m != b
  | 2 => lt
  | 3 => lt || m == b
  | 4 => !(lt || m == b)
  | 5 => !lt
  | _ => m &&& c == b &&& c

/-- The watches of a written line (R247): table watches that hold are satisfied, spilled ones spurious; one whose bytes are poisoned
holds for nothing, and a TWAIT's is answered so (R382). -/
def evalWatch (s : State) (line : Nat) (w : Watch) : Watch :=
  if w.pa / 256 ≠ line then w
  else if w.st = 2 then { w with st := 3, answer := 3 }
  else if w.st = 1 && poisonedAt s w.pa w.width then (if w.warp = 0 then w else { w with st := 3, answer := 5 })
  else if w.st = 1 && watchHolds w (homeNat s w.pa w.width) then { w with st := 3, answer := 0, sig := homeSigs s w.pa w.width, set := setSeen s w.pa w.width s.order }
  else w

/-- What follows a write applied to a line: its version rises (R250), replicas go (R58), watches are evaluated. -/
def lineWritten (s : State) (line : Nat) : State :=
  let s := { s with
    ver := nset 0 s.ver line (nget 0 s.ver line + 1)
    replicas := s.replicas.filter fun r => r.line != line }
  { s with watches := s.watches.map (evalWatch s line) }

/-- The sectors that a list of written addresses covers wholly. -/
def coveredSectors (as : List Nat) : List Nat :=
  (as.map (· / 32)).eraseDups.filter fun k => (List.range 32).all fun j => as.contains (32 * k + j)

/-- A write applied whole at the homes of its bytes (R55): one place in the coherence order, and the writers of each byte. It clears
the poison of the sectors that it covers and carries that of `bad` (R382). -/
def applyWriteBad (core : Nat) (who : Nat → List Sig) (bad : List Nat) (s : State) (ws : List (Nat × Byte)) : State :=
  let s := ws.foldl (fun s w => homeByteSet s core ((who w.1).flatMap (·.agents)) w.1 w.2) s
  let s := { s with order := s.order + 1, sigs := ws.foldl (fun (m : NMap (List Sig)) (w : Nat × Byte) => nset [] m w.1 (who w.1)) s.sigs }
  let as := ws.map (·.1)
  let clear := (coveredSectors as).foldl (fun m k => nset false m k false) s.poison
  let s := { s with poison := bad.foldl (fun m k => nset false m k true) clear }
  ((as.filter paLocal).map (· / 256)).eraseDups.foldl lineWritten s

/-- A write of clean bytes. -/
def applyWriteBy (core : Nat) (who : Nat → List Sig) (s : State) (ws : List (Nat × Byte)) : State := applyWriteBad core who [] s ws

/-- A write of an agent outside the cores: the mailbox, the stacks, the machine's own queues. -/
def applyWrite (s : State) (ws : List (Nat × Byte)) : State := applyWriteBy 512 (fun _ => [hostSig s]) s ws

/-- Consecutive bytes as a write. -/
def atAddr (pa : Nat) (bs : List Byte) : List (Nat × Byte) := (List.range bs.length).zipWith (fun j b => (pa + j, b)) bs

/-- Rows of a bank slice hold 1 KiB: whether a row of a bank holds a token in the window [u0, u1] of its frame, tokens of
`tb` bytes striped over 16 banks (R260, R261). -/
def rowInWindow (u0 u1 tb bank row : Nat) : Bool :=
  (List.range (1024 / max 1 tb)).any fun i =>
    let u := (row * (1024 / max 1 tb) + i) * 16 + bank
    decide (u0 ≤ u) && decide (u ≤ u1)

/-- The rows of a bank that a QUERY scans. -/
def bankRows (u0 u1 tb bank : Nat) : List Nat := (List.range 4).filter fun r => rowInWindow u0 u1 tb bank r

/-- A WRITE that reaches a bank while a QUERY scans it (R265, RACE): the packet's arguments are u0, u1, tb, the banks with
a race, the racing writes, whether the scan has begun, then the rows scanned as 4·bank + row. -/
def markRace (pa : Nat) (p : Packet) : Packet :=
  match p.args with
  | u0 :: u1 :: tb :: mask :: n :: acc :: scanned =>
    let bank := pa % 65536 / 4096
    let row := pa % 4096 / 1024
    if p.kind = 3 && !p.reply && acc = 1 && p.pa / 65536 == pa / 65536 && rowInWindow u0 u1 tb bank row &&
        !((bankRows u0 u1 tb bank).all fun r => scanned.contains (4 * bank + r)) then
      { p with args := u0 :: u1 :: tb :: (mask ||| 2 ^ bank) :: (n + 1) :: acc :: scanned }
    else p
  | _ => p

/-- A WRITE that meets a scan (R265, R269): each sector of its line whose row the bank has not scanned may have been read before it, whole; the
packet then holds it, and says so by 128 + its number in the frame. -/
def scanFirst (pa : Nat) (p : Packet) (s : State) : Packet × State :=
  (List.range 8).foldl (fun (acc : Packet × State) k =>
    let n := pa / 256 % 256 * 8 + k
    let (x, s) := choose acc.2 2
    let done := acc.1.args.drop 6
    if x = 0 || done.contains (128 + n) || done.contains (n / 32) then (acc.1, s)
    else ({ acc.1 with bytes := nsetRange 0 acc.1.bytes (32 * n) (ngetRange 0 s.dram (pa / 256 * 256 + 32 * k) 32)
                       args := acc.1.args ++ [128 + n] }, s)) (p, s)

/-- The scans that a WRITE of a line races, marked (R265). -/
def raceScans (s : State) (pa : Nat) : State :=
  (List.range s.packets.length).foldl (fun s i =>
    match s.packets[i]? with
    | none => s
    | some p =>
      let q := markRace pa p
      if q == p then s
      else
        let (q, s) := scanFirst pa q s
        { s with packets := s.packets.set i q }) s

/-- The sectors of a packet. -/
def Packet.sectorList (p : Packet) : List Nat := (List.range 8).filter fun k => p.sectors.getLsbD k

/-- A WRITE packet stores its sectors with their poison (R382). -/
def writtenPoison (s : State) (p : Packet) : State :=
  p.sectorList.foldl (fun s k => setStoredPoison s (p.pa / 256 * 8 + k) (p.bad.getLsbD k)) s

/-- Applying to memory every WRITE packet of a line that its port has been sent (R62). -/
def flushLine (s : State) (line : Nat) : State :=
  let mine := fun (p : Packet) => p.kind == 1 && !p.reply && p.pa / 256 == line
  let ws := s.packets.filter mine
  if ws.isEmpty then s
  else
    let s := ws.foldl writtenPoison (raceScans s (256 * line))
    { s with
      dram := ws.foldl (fun m p => p.bytes.foldl (fun m e => nset 0 m e.1 e.2) m) s.dram
      packets := s.packets.map fun p => if mine p then { p with reply := true } else p }

/-- Write-back of a line's dirty sectors to its memory (R55). -/
def writeBack (s : State) (line : Nat) : State :=
  let s := flushLine s line
  let l := nget {} s.l2 line
  if l.dirty = 0 then s else
  let s := raceScans s (256 * line)
  let ks := (List.range 8).filter fun k => l.dirty.getLsbD k
  { s with
    dram := ks.foldl (fun m k => nsetRange 0 m (256 * line + 32 * k) (ngetRange 0 s.l2b (256 * line + 32 * k) 32)) s.dram
    under := ks.foldl (fun m k => nset false m (8 * line + k) (nget false s.poison (8 * line + k))) s.under
    l2 := nset {} s.l2 line { l with dirty := 0 } }

/-- Dropping a line from its slice, dirty sectors and all; what READs under way bring of it is no longer wanted. -/
def invalidateLine (s : State) (line : Nat) : State :=
  let s := flushLine s line
  let l := nget {} s.l2 line
  let ks := ((List.range 8).filter fun k => l.valid.getLsbD k).map (8 * line + ·)
  { s with
    l2b := ndrop s.l2b (256 * line) (256 * line + 256)
    l2 := nset {} s.l2 line { l with valid := 0, dirty := 0 }
    poison := ks.foldl (fun m k => nset false m k (nget false s.under k)) s.poison
    under := ks.foldl (fun m k => nset false m k false) s.under
    packets := s.packets.map fun p => if p.kind == 0 && p.pa / 256 == line then { p with sectors := 0, args := [] } else p
    replicas := s.replicas.filter fun r => r.line != line }

/-- The lines of [lo, hi) that hold a tag. -/
def linesIn (s : State) (lo hi : Nat) : List Nat :=
  (s.l2.map (·.1)).filter fun k => decide (lo / 256 ≤ k) && decide (k < (hi + 255) / 256)

/-! Staging -/

/-- The bytes of a staging entry as a write. -/
def Stage.writes (e : Stage) : List (Nat × Byte) :=
  ((List.range 64).filter fun j => e.mask.getLsbD j).map fun j => (e.pa + j, nget 0 e.bytes j)

/-- The level an entry must reach before it is freed: system for host memory and peers (R54). -/
def Stage.freeLevel (e : Stage) : Nat := if paLocal e.pa then 1 else 2

/-- The sectors of a staging entry that are poisoned (R382). -/
def Stage.badSectors (e : Stage) : List Nat := ((List.range 2).filter fun k => e.bad.getLsbD k).map (e.pa / 32 + ·)

/-- A staging entry applied at its home, its poison with it (R55, R382). -/
def applyStaged (s : State) (e : Stage) : State :=
  applyWriteBad e.core (fun a => nget [] e.who (a % 64)) e.badSectors s e.writes

/-- Publication of an entry starts, or is raised to a level: its request carries the generation of its start, and takes its place among
those of its core (R57, R60, R72). -/
def startPublish (s : State) (lvl : Nat) (e : Stage) : Stage :=
  { e with going := some (max lvl (e.going.getD 0)),
           sent := if e.going.isSome then e.sent else s.fresh,
           gen := if e.going.isSome then e.gen else decide (irtBank s (coreShelf e.core) = 1) }

/-- Whether an entry holds a byte of [pa, pa + n). -/
def Stage.overlaps (e : Stage) (pa n : Nat) : Bool :=
  decide (e.pa < pa + n) && decide (pa < e.pa + 64) && (List.range 64).any fun j => e.mask.getLsbD j && decide (pa ≤ e.pa + j) && decide (e.pa + j < pa + n)

/-- Starting the publication to home of every entry of a core, outside open transactions, that holds a byte of [pa, pa + n) (R71). -/
def raiseOverlap (s : State) (core pa n : Nat) : State :=
  { s with staging := s.staging.map fun e =>
      if e.core == core && e.txn == 0 && e.overlaps pa n then startPublish s e.freeLevel e else e }

/-- Whether an entry whose publication started before place `at_` of its core's requests, and that overlaps some bytes, has still to be
applied (R71). -/
def entryAhead (s : State) (core at_ pa n : Nat) : Bool :=
  s.staging.any fun e => e.core == core && e.going.isSome && !e.applied && decide (e.sent ≤ at_) && e.overlaps pa n

/-- The same for any byte of the line of an address (R60). -/
def lineAhead (s : State) (core at_ pa : Nat) : Bool :=
  s.staging.any fun e => e.core == core && e.going.isSome && !e.applied && decide (e.sent ≤ at_) && e.pa / 256 == pa / 256

/-- A request or publication of a core in place `at_` reaches its home: those before it have been overtaken once more (R60). -/
def overtakes (s : State) (core at_ : Nat) : State :=
  { s with
    reqs := s.reqs.map fun x => if x.core == core && decide (x.sent < at_) then { x with passed := x.passed + 1 } else x
    staging := s.staging.map fun e =>
      if e.core == core && e.going.isSome && !e.applied && decide (e.sent < at_) then { e with passed := e.passed + 1 } else e }

/-- Whether something of a core before place `at_` has been overtaken 16 times, and lets nothing more past it (R60). -/
def overtaken (s : State) (core at_ : Nat) : Bool :=
  (s.reqs.any fun x => x.core == core && decide (x.sent < at_) && decide (16 ≤ x.passed)) ||
    s.staging.any fun e => e.core == core && e.going.isSome && !e.applied && decide (e.sent < at_) && decide (16 ≤ e.passed)

/-- An entry without the bytes of a write. -/
def Stage.cut (e : Stage) (ws : List (Nat × Byte)) : Stage :=
  ws.foldl (fun e w =>
    { e with mask := e.mask &&& ~~~ (1#64 <<< (w.1 % 64)), bytes := nset 0 e.bytes (w.1 % 64) 0, who := nset [] e.who (w.1 % 64) [] }) e

/-- Whether a store merges into an entry (R54). -/
def Stage.merges (e : Stage) (core tenant scope txn blk : Nat) : Bool :=
  e.core == core && e.pa == blk && e.scope == scope && e.level == 0 && e.going.isNone && e.txn == txn && e.tenant == tenant

/-- Storing bytes that lie in one 64-byte block (R54, R70): merges into the staged entry of the block and scope, or takes a new entry.
What other staged entries of the core hold of these bytes is overwritten, and the entry stands behind those under way: a core's stores
to a byte keep their order (R71, R76) (DEDUCED, log entry 87). -/
def stageBytes (s : State) (core tenant ctx scope txn : Nat) (g : List Sig) (ws : List (Nat × Byte)) : State :=
  match ws with
  | [] => s
  | (a, _) :: _ =>
    let blk := a / 64 * 64
    let covers := fun (k : Nat) => (coveredSectors (ws.map (·.1))).contains (blk / 32 + k)
    let put := fun (e : Stage) => ws.foldl (fun (e : Stage) w =>
      { e with bytes := nset 0 e.bytes (w.1 % 64) w.2, mask := e.mask ||| (1#64 <<< (w.1 % 64)), who := nset [] e.who (w.1 % 64) g })
      { e with bad := if e.bad = 0 then 0 else e.bad &&& ~~~ ((if covers 0 then 1#2 else 0) ||| (if covers 1 then 2#2 else 0)) }
    let other := fun (e : Stage) => e.txn == txn && e.core == core && e.pa == blk && e.going.isNone && e.scope != scope
    let kept := (s.staging.map fun e => if other e then e.cut ws else e).filter fun e => e.mask != 0 || e.txn != 0
    match findIdx (fun (e : Stage) => e.merges core tenant scope txn blk) kept with
    | some i =>
      if (kept.drop (i + 1)).any fun e => e.core == core && e.pa == blk && e.going.isSome then
        { s with staging := kept.eraseIdx i ++ ((kept[i]?).map put).toList }
      else { s with staging := kept.modify i put }
    | none =>
      { s with staging := kept ++ [put
          { core := core, pa := blk, bytes := [], mask := 0, tenant := tenant, ctx := ctx, scope := scope, level := 0, going := none,
            applied := false, txn := txn, gen := irtBank s (coreShelf core) = 1, born := s.fresh }] }

/-! Reads -/

/-- The staged byte of a core that a read merges: its own transaction's, else the youngest entry's (R71, R250). -/
def stagedByte (s : State) (core warp pa : Nat) : Option Byte :=
  let es := s.staging.filter fun e => e.core == core && e.pa == pa / 64 * 64 && e.mask.getLsbD (pa % 64)
  (((es.filter fun e => e.txn == warp && warp != 0).getLast?).or (es.filter fun e => e.txn == 0).getLast?).map
    fun e => nget 0 e.bytes (pa % 64)

/-- Whether a read of a core merges a staged byte that is poisoned (R382). -/
def stagedPoison (s : State) (core warp pa n : Nat) : Bool :=
  s.staging.any fun e => e.bad != 0 && e.core == core && (e.txn == 0 || e.txn == warp) &&
    (List.range n).any fun j => e.pa == (pa + j) / 64 * 64 && e.mask.getLsbD ((pa + j) % 64) && e.bad.getLsbD ((pa + j) / 32 % 2)

/-- A byte as it stood before the write of order number `t`. -/
def byteBefore (s : State) (pa t : Nat) : Byte :=
  match (s.hist.filter fun h => h.pa == pa && decide (t ≤ h.idx)).getLast? with
  | some h => h.old
  | none => homeByte s pa

/-- Order numbers of the writes to a unit that a read may stand before: no write before `start`, none from `cap` on, and
none that the reading core's own stores or atomics made or followed (R71, R74, DEDUCED, log entry 12). -/
def unitChoices (s : State) (core pa n start cap : Nat) : List Nat :=
  let hs := s.hist.filter fun h => decide (pa ≤ h.pa) && decide (h.pa < pa + n) && decide (start ≤ h.idx)
  let own := (hs.filter fun h => h.core == core).map (·.idx)
  ((hs.map (·.idx)).eraseDups).filter fun t => decide (t < cap) && own.all fun k => decide (k < t)

/-- The replica that serves a read of a core that carries .rep (R58). -/
def replicaOf (s : State) (core : Nat) (rep : Bool) (pa : Nat) : Option Replica :=
  if rep then s.replicas.find? fun r => r.line == pa / 256 && r.slice == nearSlice core pa else none

/-- A read of a unit reaches its home, where a miss fills the sectors it asks for (R55), or a replica of its line (R58). -/
def reachUnit (s : State) (core : Nat) (rep : Bool) (pa n : Nat) : State :=
  if (replicaOf s core rep pa).isSome then s else fillBytes s pa n

/-- Whether a read of a unit meets poison where it is served (R381, R382). -/
def unitPoison (s : State) (core : Nat) (rep : Bool) (pa n : Nat) : Bool :=
  match replicaOf s core rep pa with
  | some r => (List.range n).any fun j => r.bad.getLsbD ((pa + j) / 32 % 8)
  | none => poisonedAt s pa n

/-- One single-copy unit read in a phase whose view is `ph`, by a warp whose reads issued before have seen up to
`seen` and whose reads issued after it nothing beyond `cap`: the coherence-latest value of these or an earlier one, chosen
freely (R69, R74). -/
def readUnit (s : State) (core : Nat) (ph : Past) (seen cap pa n : Nat) : List Byte × Nat × State :=
  let cs := unitChoices s core pa n (max (viewFloor s ph pa n) seen) cap
  let (k, s) := choose s (cs.length + 1)
  match k, cs[k - 1]? with
  | _ + 1, some t => ((List.range n).map fun j => byteBefore s (pa + j) t, t, s)
  | _, _ =>
    if s.order ≤ cap then (homeBytes s pa n, s.order, s)
    else ((List.range n).map fun j => byteBefore s (pa + j) cap, cap, s)

/-- Bytes read by an access of a core in a phase, staged bytes merged (R71, R74). -/
def readMerged (s : State) (core warp : Nat) (ph : Past) (seen cap pa n : Nat) : List Byte × Nat × State :=
  let (bs, t, s) := readUnit s core ph seen cap pa n
  ((List.range n).zipWith (fun j b => (stagedByte s core warp (pa + j)).getD b) bs, t, s)

end Sys2Proof.Machine
end

