-- ==== Sys2Proof/Machine/Translate.lean ====
section
/-! DEFINITION. Address translation: the walk (R292), what a leaf admits (R293 to R295), cached leaves (R296), the peer
window's slots (R325), and the shoot-down's drops. -/

namespace Sys2Proof.Machine

/-- What a walk or a cached leaf gives. -/
inductive Walk where
  /-- An entry with V = 0 at this level (Table 22.1, cause 0x40). -/
  | invalid (level : Nat)
  /-- A leaf: the entry, and whether it stands at level 1 (1 GiB). -/
  | leaf (e : DWord) (gig : Bool)
  /-- An attribute fault in a non-leaf entry (Table 22.2). -/
  | bad (sub : Nat)
  deriving DecidableEq, Repr

/-- Address of a table entry (R292): base, level, virtual address. -/
def entryAddr (base level va : Nat) : Nat := base + 8 * (va / 2 ^ (16 + 11 * level) % 2048)

/-- Entry bits of a leaf or table. -/
def ptV (e : DWord) : Bool := fbit e 63
/-- L of an entry. -/
def ptL (e : DWord) : Bool := fbit e 62

/-- The walk from a table at `level` (R292, R293), its entries read by `entry`. -/
def walkFrom (entry : Nat → DWord) : Nat → Nat → Nat → Walk
  | 0, base, va =>
    let e := entry (entryAddr base 0 va)
    if ptV e then .leaf e false else .invalid 0
  | l + 1, base, va =>
    let e := entry (entryAddr base (l + 1) va)
    if !ptV e then .invalid (l + 1)
    else if ptL e then (if l = 0 then .leaf e true else .bad 1)
    else if fld e 61 52 ≠ 0 || fld e 13 0 ≠ 0 then .bad 5
    else walkFrom entry l (fld e 51 14 * 2 ^ 14) va

/-- A tenant's walk over entries read by `entry`; with TROOT.V clear every translation finds an invalid entry (R292). -/
def walkBy (entry : Nat → DWord) (s : State) (shelf tenant va : Nat) : Walk :=
  let root := shelfReg s shelf 0x11 tenant
  if fbit root 0 then walkFrom entry 3 (fld root 51 14 * 2 ^ 14) va else .invalid 3

/-- A tenant's walk over the tables as they are. -/
def walk (s : State) (shelf tenant va : Nat) : Walk := walkBy (fun a => dw (homeNat s a 8)) s shelf tenant va

/-- The walk over the tables as they stood before the write of order number `t`. -/
def walkBefore (s : State) (t shelf tenant va : Nat) : Walk :=
  walkBy (fun a => dw (ofBytes ((List.range 8).map fun j => byteBefore s (a + j) t))) s shelf tenant va

/-- Address of the leaf entry of a page, for the fault unit: entry address and whether it is a level-1 leaf. -/
def leafAddrFrom (s : State) : Nat → Nat → Nat → Option (Nat × Bool)
  | 0, base, va => some (entryAddr base 0 va, false)
  | l + 1, base, va =>
    let a := entryAddr base (l + 1) va
    let e := dw (homeNat s a 8)
    if !ptV e then none
    else if ptL e then (if l = 0 then some (a, true) else none)
    else leafAddrFrom s l (fld e 51 14 * 2 ^ 14) va

/-- The sectors of the table entries that a walk reads, filled where they miss (R55). -/
def fillWalkFrom (s : State) : Nat → Nat → Nat → State
  | 0, base, va => fillBytes s (entryAddr base 0 va) 8
  | l + 1, base, va =>
    let a := entryAddr base (l + 1) va
    let e := dw (homeNat s a 8)
    let s := fillBytes s a 8
    if !ptV e || ptL e then s else fillWalkFrom s l (fld e 51 14 * 2 ^ 14) va

/-- The same for a tenant's walk. -/
def fillWalk (s : State) (shelf tenant va : Nat) : State :=
  let root := shelfReg s shelf 0x11 tenant
  if fbit root 0 then fillWalkFrom s 3 (fld root 51 14 * 2 ^ 14) va else s

/-- Where the leaf of a page stands. -/
def leafAddr (s : State) (shelf tenant va : Nat) : Option (Nat × Bool) :=
  let root := shelfReg s shelf 0x11 tenant
  if fbit root 0 then leafAddrFrom s 3 (fld root 51 14 * 2 ^ 14) va else none

/-- Fields of a leaf (Table 14.4). -/
def leafRO (e : DWord) : Bool := fbit e 61
/-- X. -/
def leafX (e : DWord) : Bool := fbit e 60
/-- CMP. -/
def leafCMP (e : DWord) : Bool := fbit e 59
/-- LAY. -/
def leafLAY (e : DWord) : Nat := fld e 58 57
/-- TIER. -/
def leafTIER (e : DWord) : Bool := fbit e 56
/-- STATE. -/
def leafSTATE (e : DWord) : Nat := fld e 55 54
/-- FMT. -/
def leafFMT (e : DWord) : Nat := fld e 53 50
/-- GEO. -/
def leafGEO (e : DWord) : Nat := fld e 49 48
/-- CBI. -/
def leafCBI (e : DWord) : Nat := fld e 47 40
/-- KEY. -/
def leafKEY (e : DWord) : Nat := fld e 39 36
/-- PFN. -/
def leafPFN (e : DWord) : Nat := fld e 35 0

/-- Physical address that a leaf gives (R292, R294). -/
def leafPA (e : DWord) (gig : Bool) (va : Nat) : Nat :=
  leafPFN e * 65536 + va % (if gig then 2 ^ 27 else 65536)

/-- The first attribute fault of a leaf (R293, R294, Table 22.2), if any (DEDUCED, log entry 48). -/
def leafBad (e : DWord) (gig : Bool) : Option Nat :=
  if leafLAY e = 3 || leafSTATE e = 3 then some 2
  else if gig && leafSTATE e ≠ 0 then some 3
  else if leafSTATE e = 1 && !leafTIER e then some 4
  else if leafTIER e ≠ (decide (Config.cap0 ≤ leafPFN e * 65536) && decide (leafPFN e * 65536 < 0x200000000000)) then some 7
  else none

/-- Whether a Tarsor port is up (Table 16.3). -/
def linkUp (s : State) (p : Nat) : Bool := (nget {} s.links p).st == 2

/-- The bad-frame subcode of a physical address (R291, R325, Table 22.1), if any. -/
def frameBad (s : State) (shelf pa : Nat) : Option Nat :=
  match paKind pa with
  | .reserved => some 1
  | .unpopulated => some 2
  | .peer =>
    let r := shelfReg s shelf 0x08 (bitsN pa 50 45)
    if fbit r 63 && (List.range 16).any fun p => fbit r p && linkUp s p then none else some 3
  | _ => none

/-- Whether a port takes part in the choice of R325: it is up, or has left that state with cells that are neither acknowledged nor
failed, so that the choice stays as it was. -/
def linkCarries (s : State) (p : Nat) : Bool :=
  let k : Link := nget {} s.links p
  k.st == 2 || (k.st != 3 && !k.unacked.isEmpty)

/-- The Tarsor port that carries a request to a peer line (R325). -/
def peerPort (s : State) (shelf pa : Nat) : Option Nat :=
  let r := shelfReg s shelf 0x08 (bitsN pa 50 45)
  let ups := (List.range 16).filter fun p => fbit r p && linkCarries s p
  ups[homeHash (pa % 2 ^ 45) % max 1 ups.length]?

/-- How a request to a line stands with the ports of its peer (R325, R385): its port is up, it waits for one that trains or has cells
outstanding, or it is lost with the last; the lowest port of its slot. -/
inductive PeerWay where
  | clear
  | waits
  | lost (port : Nat)
  deriving DecidableEq, Repr

/-- The way of a line that is about to be reached from a shelf. -/
def peerWay (s : State) (shelf pa : Nat) : PeerWay :=
  if paKind pa ≠ .peer then .clear
  else
    let r := shelfReg s shelf 0x08 (bitsN pa 50 45)
    let ports := (List.range 16).filter fun p => fbit r p
    if let some p := peerPort s shelf pa then (if linkUp s p then .clear else .waits)
    else if ports.any fun p => (nget {} s.links p).st == 1 then .waits
    else .lost (ports.headD 0)

/-- A leaf with its frame moved on by `n` frames of 64 KiB, or back where `n` is negative. -/
def leafShift (e : DWord) (n : Int) : DWord := putFld e 35 0 (((leafPFN e : Int) + n) % 2 ^ 36).toNat

/-- What a cached leaf gives for the unit `page`: a cache may hold a page as one entry, so that any entry of a 2 MiB or 1 GiB page
translates all of it, with the offset of its frame applied (R294). -/
def tlbLeaf (t : Tlb) (page : Nat) : Option Walk :=
  match t.size with
  | 0 => if t.page = page then some (.leaf t.leaf false) else none
  | 1 => if t.page / 32 = page / 32 then some (.leaf (leafShift t.leaf ((page : Int) - t.page)) false) else none
  | _ =>
    if t.page / 2 ^ 14 = page / 2 ^ 14 then
      some (.leaf (leafShift t.leaf (2048 * (((page / 2048 : Nat) : Int) - (t.page / 2048 : Nat)))) true)
    else none

/-- The leaves that a translation may use: the walk's and those cached (R296) (DESIGN CHOICE, log entry 53). -/
def walkChoices (s : State) (shelf tenant va : Nat) : List Walk :=
  let fresh := walk s shelf tenant va
  let cached := (s.tlb.filter fun t => t.tenant == tenant).filterMap fun t => tlbLeaf t (va / 65536)
  (fresh :: cached).eraseDups

/-- A translation's leaf: fresh or cached, chosen freely where they differ; a leaf used is cached (R296). -/
def findLeaf (s : State) (shelf tenant va : Nat) : Walk × State :=
  let cs := walkChoices s shelf tenant va
  let (k, s) := choose s cs.length
  let s := if k = 0 then fillWalk s shelf tenant va else s
  match cs[k]? with
  | some (.leaf e g) =>
    let t : Tlb := ⟨tenant, va / 65536, e, if g then 2 else if ptL e then 1 else 0⟩
    (.leaf e g, if s.tlb.contains t then s else { s with tlb := t :: s.tlb })
  | some w => (w, s)
  | none => (.invalid 3, s)

/-- What an access is for (R295). -/
inductive Acc where
  | read | write
  deriving DecidableEq, Repr

/-- A translated access. -/
inductive Xlate where
  /-- The access goes to this physical address under this leaf. -/
  | ok (pa : Nat) (leaf : DWord)
  /-- A read of a discarded page: zeros (R295). -/
  | zero (leaf : DWord)
  /-- The access parks (R300): the level with V = 0, or 4 for STATE 1, 5 for a write to STATE 2. -/
  | park (why : Nat)
  /-- A fault: cause, INFO0, ADDR, ASP (Table 22.1). -/
  | bad (cause info0 addr asp : Nat)
  deriving DecidableEq, Repr

/-- The checks of R295 on a leaf; `ro` is the protection subcode of the access. -/
def leafAccess (s : State) (shelf tenant va : Nat) (acc : Acc) (ro : Nat) (e : DWord) (gig : Bool) : Xlate :=
  match leafBad e gig with
  | some sub => .bad 0x45 sub va 1
  | none =>
    if leafKEY e ≠ tenant then .bad 0x44 (leafKEY e) va 1
    else if acc = .write && leafRO e then .bad 0x43 ro va 1
    else if leafSTATE e = 1 then .park 4
    else if leafSTATE e = 2 then (if acc = .write then .park 5 else .zero e)
    else
      match frameBad s shelf (leafPA e gig va) with
      | some sub => .bad 0x46 sub (leafPA e gig va) 3
      | none => .ok (leafPA e gig va) e

/-- Translating one access (R295, R298). -/
def translate (s : State) (shelf tenant va : Nat) (acc : Acc) (ro : Nat) : Xlate × State :=
  match findLeaf s shelf tenant va with
  | (.invalid l, s) => (.park l, s)
  | (.bad sub, s) => (.bad 0x45 sub va 1, s)
  | (.leaf e g, s) => (leafAccess s shelf tenant va acc ro e g, s)

/-- Why a parcel cannot be fetched: cause, INFO0, ADDR, ASP. -/
structure FetchBad where
  cause : Nat
  info0 : Nat
  addr : Nat
  asp : Nat
  deriving DecidableEq, Repr

/-- Instruction fetch of one parcel's page (R298): its address, or the fault. Invalid entries, KEY, X and a discarded page are the
fetch fault 0x42; attribute defects and bad frames are the faults of any access (R291 to R294, R374). -/
def fetchAddr (s : State) (shelf tenant va : Nat) : Except FetchBad Nat × State :=
  match findLeaf s shelf tenant va with
  | (.invalid _, s) => (.error ⟨0x42, 1, va, 1⟩, s)
  | (.bad sub, s) => (.error ⟨0x45, sub, va, 1⟩, s)
  | (.leaf e g, s) =>
    match leafBad e g with
    | some sub => (.error ⟨0x45, sub, va, 1⟩, s)
    | none =>
      if leafKEY e ≠ tenant then (.error ⟨0x42, 3, va, 1⟩, s)
      else if !leafX e then (.error ⟨0x42, 2, va, 1⟩, s)
      else if leafSTATE e = 2 then (.error ⟨0x42, 4, va, 1⟩, s)
      else
        match frameBad s shelf (leafPA e g va) with
        | some sub => (.error ⟨0x46, sub, leafPA e g va, 3⟩, s)
        | none => (.ok (leafPA e g va), s)

/-- A read of bytes by the core's own machinery (vector entries, codebooks, graph tables): coherence-latest at their
homes, or nothing where they cannot be read. -/
def sysRead (s : State) (shelf tenant va n : Nat) : Option (List Byte) × State :=
  match translate s shelf tenant va .read 1 with
  | (.ok pa _, s) => (some (homeBytes s pa n), fillBytes s pa n)
  | (.zero _, s) => (some (List.replicate n 0), s)
  | (_, s) => (none, s)

/-- A write of the same machinery, applied at its homes. -/
def sysWrite (s : State) (shelf tenant va : Nat) (bs : List Byte) : Option State :=
  match translate s shelf tenant va .write 1 with
  | (.ok pa _, s) => some (applyWrite (reachHome s pa bs.length) (atAddr pa bs))
  | _ => none

/-- Whether a cached leaf matches a shoot-down: SIZE and page (Table 14.6); an entry that may serve a unit named matches (R294). -/
def shootMatch (tenant size va : Nat) (t : Tlb) : Bool :=
  t.tenant == tenant && (size == 3 ||
    (if size = 2 || t.size = 2 then t.page / 2 ^ 14 == va / 2 ^ 30
     else if size = 1 then t.page / 32 == va / 2 ^ 21
     else (tlbLeaf t (va / 65536)).isSome))

/-- Whether a completed shoot-down has named a unit. -/
def Shot.hits (tenant page : Nat) (x : Shot) : Bool :=
  x.tenant == tenant &&
    (match x.size with
     | 0 => page == x.va / 65536
     | 1 => page / 32 == x.va / 2 ^ 21
     | 2 => page / 2 ^ 14 == x.va / 2 ^ 30
     | _ => true)

/-- Dropping the cached leaves that a shoot-down names (R297). -/
def dropLeaves (s : State) (tenant size va : Nat) : State :=
  { s with
    tlb := s.tlb.filter fun t => !shootMatch tenant size va t
    shots := ⟨tenant, size, va, s.order⟩ :: s.shots.filter fun x => !(x.tenant == tenant && x.size == size && x.va == va) }

/-- The walks of a unit over the tables as they have stood since its last shoot-down. -/
def walksSince (s : State) (shelf tenant page : Nat) : List Walk :=
  let last := (s.shots.filter (·.hits tenant page)).foldl (fun m x => max m x.ord) 0
  (((s.hist.filter fun h => decide (last ≤ h.idx)).map (·.idx)).eraseDups).map fun t => walkBefore s t shelf tenant (page * 65536)

end Sys2Proof.Machine
end

