-- ==== Sys2Proof/Machine/Special.lean ====
section
/-! DEFINITION. The launch record's fields (Table 13.4), the position of a thread in its levels (R33, R34, R37, R407), and
the special registers (Table 11.10). -/

namespace Sys2Proof.Machine

/-- NLVL of a launch record. -/
def recNlvl (r : List DWord) : Nat := fld (wordAt r 2) 3 0
/-- Domain code of level `i` (Table 2.3 order). -/
def recDom (r : List DWord) (i : Nat) : Nat := bitsN (wordAt r 4).toNat (6 * i + 2) (6 * i)
/-- Scope code of level `i`. -/
def recScope (r : List DWord) (i : Nat) : Nat := bitsN (wordAt r 4).toNat (6 * i + 5) (6 * i + 3)
/-- Extent of level `i`. -/
def recExt (r : List DWord) (i : Nat) : Nat :=
  bitsN (wordAt r (5 + i / 4)).toNat (16 * (i % 4) + 15) (16 * (i % 4))
/-- Blocks per cluster. -/
def recNblk (r : List DWord) : Nat := fld (wordAt r 2) 43 40 + 1
/-- Threads per block. -/
def recNthr (r : List DWord) : Nat := fld (wordAt r 2) 39 26 + 1
/-- Warps per block (R27). -/
def recWarps (r : List DWord) : Nat := (recNthr r + 31) / 32
/-- PSIZE. -/
def recPsize (r : List DWord) : Nat := fld (wordAt r 2) 60 44
/-- PRIO. -/
def recPrio (r : List DWord) : Nat := fld (wordAt r 2) 25 24
/-- BOND. -/
def recBond (r : List DWord) : Nat := fld (wordAt r 2) 23 22
/-- COOP. -/
def recCoop (r : List DWord) : Bool := fbit (wordAt r 2) 21
/-- AFF. -/
def recAff (r : List DWord) : Nat := fld (wordAt r 2) 20 17
/-- SEED. -/
def recSeed (r : List DWord) : Word := w32 (fld (wordAt r 3) 63 32)
/-- CCADDR. -/
def recCc (r : List DWord) : Nat := fld (wordAt r 7) 59 0

/-- The levels bound to a domain. -/
def levelsOf (r : List DWord) (d : Nat) : List Nat := (List.range (recNlvl r)).filter fun i => recDom r i == d

/-- Product of the extents of a domain's levels, 1 with none (R34). -/
def domProd (r : List DWord) (d : Nat) : Nat := (levelsOf r d).foldl (fun n i => n * recExt r i) 1

/-- Whether a launch declares levels bound to a domain. -/
def hasDom (r : List DWord) (d : Nat) : Bool := !(levelsOf r d).isEmpty

/-- Tiles per warp (R407). -/
def recTiles (r : List DWord) : Nat := domProd r 6

/-- The launch tile size (R407). -/
def tileSize (r : List DWord) : Nat := 32 / max 1 (recTiles r)

/-- sr.part.TSZ at warp start: Log2 of the launch tile size (R407). -/
def startTsz (r : List DWord) : Nat := Nat.log2 (tileSize r)

/-- Dies of a launch (R34): the die level's extent, 1 without one. -/
def recDies (r : List DWord) : Nat := domProd r 2

/-- Instances of domain `d` in one cluster, for d from 3 (cluster) to 7 (thread). -/
def perCluster (r : List DWord) (d : Nat) : Nat :=
  match d with
  | 3 => 1
  | 4 => recNblk r
  | 5 => recNblk r * recWarps r
  | 6 => recNblk r * recWarps r * recTiles r
  | _ => recNblk r * recNthr r

/-- The first declared domain inside the die, with what its levels multiply to. -/
def innerDom (r : List DWord) : Nat := ((List.range 5).map (· + 3)).find? (hasDom r) |>.getD 7

/-- Clusters in one die-level index, or in the grid without a die level (R34). -/
def clustersPerDie (r : List DWord) : Nat := domProd r (innerDom r) / perCluster r (innerDom r)

/-- Clusters of a launch. -/
def recClusters (r : List DWord) : Nat := recDies r * clustersPerDie r

/-- Number of domain `d`'s instance inside the domain above it, and how many there are. -/
def domPos (r : List DWord) (clu bid wid lane d : Nat) : Nat × Nat :=
  match d with
  | 2 => (clu / max 1 (clustersPerDie r), recDies r)
  | 3 => (clu % max 1 (clustersPerDie r), clustersPerDie r)
  | 4 => (bid, recNblk r)
  | 5 => (wid, recWarps r)
  | 6 => (lane / tileSize r, recTiles r)
  | 7 => (lane % tileSize r, tileSize r)
  | _ => (0, 1)

/-- The nearest declared domain that encloses `d`. -/
def enclosing (r : List DWord) (d : Nat) : Nat := ((List.range d).filter (hasDom r)).getLast?.getD 0

/-- Linear number of domain `d`'s instance within the nearest enclosing level of another domain (R34). -/
def domLinear (r : List DWord) (clu bid wid lane d : Nat) : Nat :=
  let e := enclosing r d
  ((List.range (d + 1)).filter fun k => decide (e < k)).foldl
    (fun n k => let p := domPos r clu bid wid lane k; n * p.2 + p.1) 0

/-- sr.lvl of level `i`: its digit in the mixed radix of its domain (R34, R37). -/
def lvlIndex (r : List DWord) (clu bid wid lane i : Nat) : Nat :=
  if recNlvl r ≤ i then 0
  else
    let d := recDom r i
    let below := ((levelsOf r d).filter fun j => decide (i < j)).foldl (fun n j => n * recExt r j) 1
    domLinear r clu bid wid lane d / max 1 below % max 1 (recExt r i)

/-- The launch record of a warp, or an empty one. -/
def recOf (s : State) (w : Warp) : List DWord := ((ctxOf s w).map (·.record)).getD []

/-- sr.xstat (Table 11.6). -/
def xstat (s : State) (w : Warp) : Word :=
  let wc := (s.staging.filter fun e => e.txn == w.uid && w.txn.isOpen).length
  w32 ((if w.txn.isOpen then 2 ^ 31 else 0) + (if w.txn.isOpen && w.txn.doomed then 2 ^ 30 else 0) +
    w.txn.reads.length % 128 * 2 ^ 23 + wc % 64 * 2 ^ 17 + w.xuser.toNat * 256 + w.xcause.toNat)

/-- Width of a special register in bits; 0 for a reserved number (Table 11.10). -/
def srWidth (n : Nat) : Nat :=
  if n ≤ 0x1E then 32
  else match n with
    | 0x20 | 0x21 | 0x22 | 0x25 | 0x26 | 0x27 => 32
    | 0x23 | 0x24 | 0x28 => 64
    | _ => 0

/-- Whether a special register is uniform for the warp's launch (Tables 6.8, 11.10). -/
def srUniform (r : List DWord) (n : Nat) : Bool :=
  if n ≤ 1 || n = 0x21 then false
  else if 0x0B ≤ n && n ≤ 0x12 then !(decide (n - 0x0B < recNlvl r) && decide (6 ≤ recDom r (n - 0x0B)))
  else true

/-- Whether WRSR may write it (Table 11.10). -/
def srWritable (n : Nat) : Bool := n = 0x1B || n = 0x1C || n = 0x20 || n = 0x21

/-- Whether a register is the thread's own; the writable others belong to the warp. -/
def srPerThread (n : Nat) : Bool := n = 0x21

/-- The value of a special register in a lane (Table 11.10). -/
def srRead (s : State) (w : Warp) (lane n : Nat) : DWord :=
  let r := recOf s w
  let ctx := ctxOf s w
  let clu := clusterOf s w
  match n with
  | 0x00 => dw lane
  | 0x01 => dw (w.wid * 32 + lane)
  | 0x02 => dw w.wid
  | 0x03 => dw (recNthr r)
  | 0x04 => dw w.bid
  | 0x05 => dw (recNblk r)
  | 0x06 => dw ((clu.map fun c => memberOf c w.core).getD 0)
  | 0x07 => dw ((clu.map fun c => c.cores.length).getD 0)
  | 0x08 => dw (coreDie w.core)
  | 0x09 => dw w.core
  | 0x0A => dw (recNlvl r)
  | 0x1B => w.part.setWidth 64
  | 0x1C => w.vcnt.setWidth 64
  | 0x1D => dw ((clu.map (·.pbase)).getD 0)
  | 0x1E => dw ((clu.map (·.plim)).getD 0)
  | 0x20 => w.rseed.setWidth 64
  | 0x21 => (nget 0 w.rctr lane).setWidth 64
  | 0x22 => (xstat s w).setWidth 64
  | 0x23 => dw s.clk + Config.clkSkew w.core
  | 0x24 => timeOf s
  | 0x25 => dw ((ctx.map fun c => c.tenant % 16 + c.queue % 8 * 16).getD 0)
  | 0x26 => dw ((ctx.map (·.budget)).getD 0 % 2 ^ 32)
  | 0x27 => w.tcause.setWidth 64
  | 0x28 => w.trec
  | _ =>
    if 0x0B ≤ n && n ≤ 0x12 then dw (lvlIndex r w.clu w.bid w.wid lane (n - 0x0B))
    else if 0x13 ≤ n && n ≤ 0x1A then dw (if n - 0x13 < recNlvl r then recExt r (n - 0x13) else 0)
    else 0

end Sys2Proof.Machine
end

