-- ==== Sys2Proof/Machine/Operands.lean ====
section
/-! DEFINITION. Instructions as issued: the fields of the long, extended or short form (Tables 6.5 to 6.7), the value of an
operand in a lane (R113 to R117), registers of a warp, and guards (R116). -/

namespace Sys2Proof.Machine

/-- An instruction as it stands in the running clause. -/
structure Item where
  /-- The fields; for a short form those of its long equivalent (R112, Table 6.11). -/
  f : Long
  /-- The long form as issued, or the short parcel zero-extended (Table 20.1, AUX). -/
  raw : DWord
  parcels : Nat
  isShort : Bool
  /-- B7 of a short form. -/
  b7 : Nat
  /-- Guarded by a uniform predicate (R116). -/
  uni : Bool
  deriving DecidableEq, Repr

/-- The item of a long or extended form. -/
def longItem (opc : Nat) (uni : Bool) (f : Long) : Item :=
  { f := f, raw := longWord (BitVec.ofNat 10 opc) f.lit.isSome f, parcels := if f.lit.isSome then 3 else 2,
    isShort := false, b7 := 0, uni := uni }

/-- The operand code of a B7 that names a register or latch (Table 6.6). -/
def b7Code (b7 : Nat) : Nat := if b7 < 0x40 then b7 else if b7 < 0x44 then 0x180 + (b7 - 0x40) else 0

/-- The item of a short form with the modifiers Table 6.11 shows. -/
def shortItem (sop : Nat) (uni : Bool) (md : Nat) (f : Short) : Item :=
  { f := { md := BitVec.ofNat 12 md, gn := false, gp := 7, c := 0, b := BitVec.ofNat 9 (b7Code f.b7.toNat), a := f.a,
           nowb := false, dst := f.dst, lit := none },
    raw := (shortWord (BitVec.ofNat 6 sop) f).setWidth 64, parcels := 1, isShort := true, b7 := f.b7.toNat, uni := uni }

/-- MOD as a number: bit k of MOD[63:52] is bit k − 52. -/
def Item.mod (it : Item) : Nat := it.f.md.toNat
/-- Bits [hi:lo] of the long form, for hi and lo from 52 to 63. -/
def Item.m (it : Item) (hi lo : Nat) : Nat := bitsN it.f.md.toNat (hi - 52) (lo - 52)
/-- Bit `i` of the long form, for i from 52 to 63. -/
def Item.mb (it : Item) (i : Nat) : Bool := it.f.md.getLsbD (i - 52)
/-- TYPE of Table 6.10a. -/
def Item.ty (it : Item) : Nat := it.m 63 59
/-- DST as a number. -/
def Item.d (it : Item) : Nat := it.f.dst.toNat

/-- How an operand is read: an integer, a bit pattern, or a float; packed halves stand in both halves (R114). -/
inductive VT where
  | int (w : Nat) (sgn : Bool)
  | bits (w : Nat)
  | flt (F : Fmt)
  | packed (F : Fmt)
  deriving DecidableEq, Repr

/-- Whether the operand is a register pair (R3, R136). -/
def VT.pair : VT → Bool
  | .int w _ => w == 64
  | .bits w => w == 64
  | .flt F => F.width == 64
  | .packed _ => false

/-- Width in bits of the operand. -/
def VT.width : VT → Nat
  | .int w _ => w
  | .bits w => w
  | .flt F => F.width
  | .packed _ => 32

/-- The operand type of a type code (Table 6.10b). -/
def vtOf (t : Nat) : VT :=
  match t with
  | 0x00 => .int 8 true
  | 0x01 => .int 16 true
  | 0x02 => .int 32 true
  | 0x03 => .int 64 true
  | 0x04 => .int 8 false
  | 0x05 => .int 16 false
  | 0x06 => .int 32 false
  | 0x07 => .int 64 false
  | 0x08 => .bits 32
  | 0x09 => .bits 64
  | n => match fmtOfType n with
    | some F => .flt F
    | none => .bits 32

/-- The encoding of a small integer in a float format; the formats of operands hold it exactly (R114). -/
def fltInt (F : Fmt) (v : Int) : Nat := roundF F 0 0 false false (intFV v)

/-- The encoding of a value, where the format holds it exactly. -/
def fltExact (F : Fmt) (x : FV) : Option Nat :=
  let e := roundF F 1 0 true false x
  if cmpFV (decodeF F e) x = some .eq then some e else none

/-- A floating constant of Table 6.7; none where the format does not hold it (DEDUCED, log entry 16). -/
def fltConst (F : Fmt) (code : Nat) : Option Nat :=
  if 0x1C0 ≤ code && code ≤ 0x1CF then fltExact F (intFV (code - 0x1C0 : Nat))
  else match code with
    | 0x1D0 => fltExact F (intFV (-1))
    | 0x1D1 => fltExact F (intFV (-2))
    | 0x1D2 => fltExact F (.num false 1 (-1))
    | 0x1D3 => fltExact F (.num false 1 (-2))
    | 0x1D4 => fltExact F (.num true 1 (-1))
    | 0x1D5 => if F.hasInf then some F.infEnc else none
    | 0x1D6 => if F.hasInf then some (signed F true F.infEnc) else none
    | 0x1D7 => some F.maxEnc
    | 0x1D8 => some F.minNormal
    | 0x1D9 => if F.hasNaN then some F.qnan else none
    | _ => none

/-- An integer constant of Table 6.7; `sgn` none for a bit pattern. -/
def intConst (w : Nat) (sgn : Option Bool) (code : Nat) : Option Nat :=
  if 0x1C0 ≤ code && code ≤ 0x1CF then some (code - 0x1C0)
  else match code, sgn with
    | 0x1D0, _ => some (2 ^ w - 1)
    | 0x1D1, _ => some (2 ^ w - 2)
    | 0x1D5, some true => some (2 ^ (w - 1) - 1)
    | 0x1D5, some false => some (2 ^ w - 1)
    | 0x1D6, some true => some (2 ^ (w - 1))
    | 0x1D6, some false => some 0
    | 0x1D7, some true => some (2 ^ (w - 1) - 1)
    | 0x1D7, some false => some (2 ^ w - 1)
    | _, _ => none

/-- A constant in the operand's type (R114); none where the type does not admit it. -/
def constVal (vt : VT) (code : Nat) : Option Nat :=
  match vt with
  | .int w sgn => intConst w (some sgn) code
  | .bits w => intConst w none code
  | .flt F => fltConst F code
  | .packed F => (fltConst F code).map fun x => x + x * 2 ^ 16

/-- A short immediate in the operand's type (R114, Table 6.6). -/
def immVal (vt : VT) (b7 : Nat) : Nat :=
  let v : Int := (b7 : Int) - 0x50
  match vt with
  | .int w _ => wrapInt w v
  | .bits w => wrapInt w v
  | .flt F => fltInt F v
  | .packed F => fltInt F v + fltInt F v * 2 ^ 16

/-- The literal in the operand's type (R114). -/
def litVal (vt : VT) (l : Word) : Nat :=
  match vt with
  | .int 64 true => wrapInt 64 (signedOf 32 l.toNat)
  | .flt F => if F.width = 64 then l.toNat * 2 ^ 32 else l.toNat
  | _ => l.toNat

/-! Registers of a warp. -/

/-- v register `r` of a lane. -/
def vget (w : Warp) (r lane : Nat) : Word := nget 0 w.v (32 * r + lane)
/-- Writing a v register; its parity is right again (R383). -/
def vset (w : Warp) (r lane : Nat) (x : Word) : Warp := 
  { w with v := nset 0 w.v (32 * r + lane) x, parity := w.parity.filter (· != (0, r, lane)) }
/-- A v register or pair as a number. -/
def vnat (w : Warp) (pair : Bool) (r lane : Nat) : Nat :=
  (vget w r lane).toNat + (if pair then (vget w (r + 1) lane).toNat * 2 ^ 32 else 0)
/-- Writing a v register or pair. -/
def vputNat (w : Warp) (pair : Bool) (r lane x : Nat) : Warp :=
  let w := vset w r lane (w32 x)
  if pair then vset w (r + 1) lane (w32 (x / 2 ^ 32)) else w
/-- s register. -/
def sget (w : Warp) (r : Nat) : Word := nget 0 w.s r
/-- Writing an s register. -/
def sset (w : Warp) (r : Nat) (x : Word) : Warp := 
  { w with s := nset 0 w.s r x, parity := w.parity.filter (· != (1, r, 0)) }
/-- An s register or pair as a number. -/
def snat (w : Warp) (pair : Bool) (r : Nat) : Nat :=
  (sget w r).toNat + (if pair then (sget w (r + 1)).toNat * 2 ^ 32 else 0)
/-- Writing an s register or pair. -/
def sputNat (w : Warp) (pair : Bool) (r x : Nat) : Warp :=
  let w := sset w r (w32 x)
  if pair then sset w (r + 1) (w32 (x / 2 ^ 32)) else w
/-- Predicate p0 to p6; 7 is pt (R113). -/
def pget (w : Warp) (i lane : Nat) : Bool := if i = 7 then true else (nget 0 w.p lane).getLsbD i
/-- Bit `i` of a predicate set replaced. -/
def predPut (m : BitVec 7) (i : Nat) (x : Bool) : BitVec 7 :=
  if x then m ||| (1#7 <<< i) else m &&& ~~~ (1#7 <<< i)
/-- Writing a predicate; writes to pt are discarded (R113). -/
def pset (w : Warp) (i lane : Nat) (x : Bool) : Warp :=
  if i = 7 then w else { w with p := nset 0 w.p lane (predPut (nget 0 w.p lane) i x), parity := w.parity.filter (· != (2, i, lane)) }
/-- Uniform predicate q0 to q6; 7 is qt. -/
def qget (w : Warp) (i : Nat) : Bool := if i = 7 then true else w.q.getLsbD i
/-- Writing a uniform predicate; writes to qt are discarded. -/
def qset (w : Warp) (i : Nat) (x : Bool) : Warp := 
  if i = 7 then w else { w with q := predPut w.q i x, parity := w.parity.filter (· != (4, i, 0)) }

/-- Whether the guard holds in a lane (R116). -/
def guardAt (w : Warp) (it : Item) (lane : Nat) : Bool :=
  (if it.uni then qget w it.f.gp.toNat else pget w it.f.gp.toNat lane) != it.f.gn

/-- The uniform guard. -/
def guardU (w : Warp) (it : Item) : Bool := qget w it.f.gp.toNat != it.f.gn

/-- The active lanes: those of the issue group whose guard holds. -/
def activeLanes (w : Warp) (r : Run) (it : Item) : Lanes := lanesWhere r.grp (guardAt w it)

/-! Operand values. -/

/-- Which operand field. -/
inductive Fld where
  | a | b | c
  deriving DecidableEq, Repr

/-- The code in a field. -/
def Item.code (it : Item) : Fld → Nat
  | .a => it.f.a.toNat
  | .b => it.f.b.toNat
  | .c => it.f.c.toNat

/-- Whether the field is B7 holding an immediate. -/
def Item.isImm (it : Item) (x : Fld) : Bool := it.isShort && x = .b && decide (0x48 ≤ it.b7)

/-- The latch a code names. -/
def latchOf (r : Run) (j : Nat) : Option Latch := nget none r.lat j

/-- A latch's value in a lane (DEDUCED, log entry 75). -/
def Latch.at (l : Latch) (lane : Nat) : DWord := nget 0 l.vals (if l.uni then 0 else lane)

/-- The value of an operand in a lane, as a number of the operand's width (R113 to R117). A 32-bit special register read
as a pair is zero-extended (DEDUCED, log entry 14). -/
def operand (s : State) (w : Warp) (r : Run) (it : Item) (vt : VT) (x : Fld) (lane : Nat) : Nat :=
  let code := it.code x
  let v : Nat :=
    if it.isImm x then immVal vt it.b7
    else if code < 0x100 then vnat w vt.pair code lane
    else if code < 0x180 then snat w vt.pair (code - 0x100)
    else if code < 0x184 then (((latchOf r (code - 0x180)).map fun l => (l.at lane).toNat).getD 0)
    else if code = 0x1FF then litVal vt (it.f.lit.getD 0)
    else if 0x1E0 ≤ code then (srRead s w lane (code - 0x1E0)).toNat
    else (constVal vt code).getD 0
  if vt.pair then v % 2 ^ 64 else v % 2 ^ 32

/-- An operand as its type reads it (Get of R136): sign- or zero-extended from the type's width. -/
def operandInt (s : State) (w : Warp) (r : Run) (it : Item) (vt : VT) (x : Fld) (lane : Nat) : Int :=
  let v := operand s w r it vt x lane
  match vt with
  | .int n true => signedOf n v
  | _ => ((v % 2 ^ vt.width : Nat) : Int)

/-- An operand's exact value, subnormals flushed under .ftz. -/
def operandF (s : State) (w : Warp) (r : Run) (it : Item) (F : Fmt) (ftz : Bool) (x : Fld) (lane : Nat) : FV :=
  decodeF F (ftzIn ftz (operand s w r it (.flt F) x lane))

end Sys2Proof.Machine
end

