-- ==== Sys2Proof/Machine/Check.lean ====
section
/-! DEFINITION. The checks of an instruction on its own fields, in the order of R355: the encoding subcodes of Table 20.3,
then the operand subcodes of Table 20.4; and the registers an instruction names, for the scoreboard (R120). -/

namespace Sys2Proof.Machine

/-- A failed check: cause 0x02 (encoding) or 0x03 (operand), subcode, INFO1. -/
structure Bad where
  enc : Bool
  sub : Nat
  info : Nat
  deriving DecidableEq, Repr

/-- An illegal-encoding condition: the low bit of the offending field is `low`. -/
def encBad (c : Bool) (sub low : Nat) : List Bad := if c then [⟨true, sub, low⟩] else []

/-- An illegal-operand condition: the offending value is `v`. -/
def opdBad (c : Bool) (sub v : Nat) : List Bad := if c then [⟨false, sub, v⟩] else []

/-- Order of detection (R355). -/
def Bad.rank (b : Bad) : Nat := (if b.enc then 0 else 100) + b.sub

/-- The failing check that is reported: the first of the lowest rank. -/
def firstBad : List Bad → Option Bad
  | [] => none
  | b :: t =>
    match firstBad t with
    | none => some b
    | some c => if c.rank < b.rank then some c else some b

/-- What an operand field accepts. -/
structure Accept where
  v : Bool := true
  s : Bool := true
  latch : Bool := true
  cst : Bool := true
  lit : Bool := true
  sr : Bool := true
  /-- A uniform position (R115): no v, no non-uniform special register, no per-lane latch. -/
  uni : Bool := false
  deriving DecidableEq, Repr

/-- Any operand of a vector instruction. -/
def accAny : Accept := {}
/-- A uniform position (R115). -/
def accUni : Accept := { v := false, uni := true }
/-- A v register only. -/
def accV : Accept := { s := false, latch := false, cst := false, lit := false, sr := false }
/-- An s register only. -/
def accS : Accept := { v := false, latch := false, cst := false, lit := false, sr := false, uni := true }

/-- How an instruction uses a field. -/
inductive Use where
  /-- A source operand. -/
  | src (x : Fld) (vt : VT) (acc : Accept)
  /-- `n` consecutive v registers from an aligned first one. -/
  | vgrp (x : Fld) (n align : Nat)
  /-- The field is not used: it is zero. -/
  | unused (x : Fld)
  /-- A predicate code 0 to 7 in an operand field; bits [8:4] zero, [3] negate. -/
  | pred (x : Fld) (uni : Bool)
  /-- DST names a result: v, s, `n` registers. -/
  | dstV (n : Nat)
  | dstS (n : Nat)
  | dstP (uni : Bool)
  /-- DST names no result. -/
  | dstNone
  /-- DST names v registers that are read. -/
  | dstData (n align : Nat)
  deriving DecidableEq, Repr

/-- What an instruction requires of its fields. -/
structure Spec where
  uses : List Use
  /-- Conditions of its own. -/
  bads : List Bad := []
  /-- Capturing (R117). -/
  capt : Bool := false
  /-- The description gives the literal a use. -/
  usesLit : Bool := false
  /-- A lane operation: it waits for registers in every lane of the warp (R168). -/
  wide : Bool := false
  /-- Registers named beside those of its fields. -/
  extra : List (Nat × Nat) := []
  /-- Active lanes whose destination keeps its value (R173). -/
  keeps : Lanes := 0

/-- Low bit of an operand field in the form (Tables 6.5, 6.6). -/
def fldLow (it : Item) (x : Fld) : Nat :=
  match x with
  | .a => if it.isShort then 16 else 21
  | .b => if it.isShort then 25 else 30
  | .c => 39

/-- Low bit of DST. -/
def dstLow (it : Item) : Nat := if it.isShort then 8 else 12

/-- The field's value as the form holds it. -/
def fldVal (it : Item) (x : Fld) : Nat := if it.isShort && x = .b then it.b7 else it.code x

/-- v registers the warp may name: VREGS + 1, or 32 in the handler (R312, Table 20.4). -/
def vlim (s : State) (w : Warp) : Nat := if w.handler then 32 else fld (khdrWord s w 0) 47 40 + 1
/-- s registers the warp may name: UREGS, or 16 in the handler. -/
def slim (s : State) (w : Warp) : Nat := if w.handler then 16 else fld (khdrWord s w 0) 55 48

/-- Alignment and count of a register operand: `n` registers from `r`, `align` of the first. -/
def regBads (r n align lim info : Nat) : List Bad :=
  opdBad (r % align ≠ 0) 2 info ++ opdBad (lim < r + n) 3 info

/-- Checks of a source operand. -/
def srcBads (s : State) (w : Warp) (r : Run) (it : Item) (x : Fld) (vt : VT) (acc : Accept) : List Bad :=
  let code := it.code x
  let info := fldVal it x
  let low := fldLow it x
  let n := if vt.pair then 2 else 1
  if it.isShort && x = .b && 0x44 ≤ it.b7 && it.b7 < 0x48 then encBad true 2 low
  else if it.isImm x then opdBad (!acc.cst) 1 info
  else if code < 0x100 then (if acc.v then regBads code n n (vlim s w) info else opdBad true 1 info)
  else if code < 0x180 then
    (if acc.s then regBads (code - 0x100) n n (slim s w) info else opdBad true 1 info)
  else if code < 0x184 then
    (if !acc.latch then opdBad true 1 info
     else opdBad (vt.pair && code % 2 = 1) 2 info ++
      match latchOf r (code - 0x180) with
      | none => opdBad true 4 info
      | some l => opdBad (acc.uni && !l.uni) 4 info)
  else if code < 0x1C0 || (0x1DA ≤ code && code < 0x1E0) then encBad true 2 low
  else if code = 0x1FF then
    encBad (it.f.lit.isNone) 3 low ++ opdBad (!acc.lit) 1 info
  else if 0x1E0 ≤ code then opdBad (!acc.sr || (acc.uni && !srUniform (recOf s w) (code - 0x1E0))) 1 info
  else if !acc.cst then opdBad true 1 info
  else opdBad ((constVal vt code).isNone) 7 info

/-- Checks of one use. -/
def useBads (s : State) (w : Warp) (r : Run) (it : Item) : Use → List Bad
  | .src x vt acc => srcBads s w r it x vt acc
  | .vgrp x n align =>
    let code := it.code x
    if code < 0x100 then regBads code n align (vlim s w) code
    else encBad ((0x184 ≤ code && code < 0x1C0) || (0x1DA ≤ code && code < 0x1E0)) 2 (fldLow it x) ++
      encBad (code = 0x1FF && it.f.lit.isNone) 3 (fldLow it x) ++ opdBad true 1 code
  | .unused x => encBad (fldVal it x ≠ 0) 7 (fldLow it x)
  | .pred x _ => encBad (it.code x / 16 ≠ 0) 7 (fldLow it x + 4)
  | .dstV n =>
    if it.f.nowb then [] else regBads it.d n (if n = 1 then 1 else 2) (vlim s w) it.d
  | .dstS n =>
    if it.f.nowb then []
    else encBad (0x80 ≤ it.d) 5 (dstLow it) ++ regBads it.d n (if n = 1 then 1 else 2) (slim s w) it.d
  | .dstP _ => encBad (8 ≤ it.d) 5 (dstLow it)
  | .dstNone => encBad (it.d ≠ 0) 5 (dstLow it)
  | .dstData n align => regBads it.d n align (vlim s w) it.d

/-- Whether some used operand is coded 0x1FF. -/
def readsLit (it : Item) (uses : List Use) : Bool :=
  uses.any fun u => match u with
    | .src x _ _ => !it.isImm x && it.code x == 0x1FF
    | .vgrp x _ _ => it.code x == 0x1FF
    | _ => false

/-- Every failing check of an instruction on its fields (DEDUCED, log entry 47). -/
def specBads (s : State) (w : Warp) (r : Run) (it : Item) (sp : Spec) : List Bad :=
  sp.uses.flatMap (useBads s w r it) ++
  encBad (it.f.lit.isSome && !sp.usesLit && !readsLit it sp.uses) 4 0 ++
  encBad (it.f.nowb && (!sp.capt || it.d ≠ 0)) 8 20 ++ sp.bads

/-! Registers named, for the scoreboard (R120): kind 0 v, 1 s, 2 p, 3 q. -/

/-- Registers of one use. -/
def useRegs (it : Item) : Use → List (Nat × Nat)
  | .src x vt _ =>
    let code := it.code x
    let n := if vt.pair then 2 else 1
    if it.isImm x then []
    else if code < 0x100 then (List.range n).map fun j => (0, code + j)
    else if code < 0x180 then (List.range n).map fun j => (1, code - 0x100 + j)
    else []
  | .vgrp x n _ => (List.range n).map fun j => (0, it.code x + j)
  | .unused _ => []
  | .pred x u => [(if u then 3 else 2, it.code x % 8)]
  | .dstV n => if it.f.nowb then [] else (List.range n).map fun j => (0, it.d + j)
  | .dstS n => if it.f.nowb then [] else (List.range n).map fun j => (1, it.d + j)
  | .dstP u => [(if u then 3 else 2, it.d)]
  | .dstNone => []
  | .dstData n _ => (List.range n).map fun j => (0, it.d + j)

/-- Registers an instruction reads or writes, its guard included. -/
def specRegs (it : Item) (sp : Spec) : List (Nat × Nat) :=
  (if it.f.gp.toNat = 7 then [] else [(if it.uni then 3 else 2, it.f.gp.toNat)]) ++ sp.uses.flatMap (useRegs it) ++ sp.extra

/-- Whether a pending write of the warp bars the instruction: it names the register, in a lane of its group for v and p
registers (R120); in any lane for a lane operation (R168). -/
def blocked (w : Warp) (r : Run) (wide : Bool) (regs : List (Nat × Nat)) : Bool :=
  w.pend.any fun p =>
    regs.contains (p.kind, p.reg) && (wide || p.kind == 1 || p.kind == 3 || p.lanes &&& r.grp != 0)

end Sys2Proof.Machine
end

