-- ==== Sys2Proof/Machine/Parity.lean ====
section
/-! DEFINITION. Register parity (R383): which registers an instruction reads, and whether one of them is lost. Classes are those
of Table 23.2, with 4 for a uniform predicate, and halves of latches by 2·latch + half. -/

namespace Sys2Proof.Machine

/-- The long opcode of an item, or 0x400 and its short opcode. -/
def Item.op (it : Item) : Nat := if it.isShort then 0x400 + bitsN it.raw.toNat 7 2 else bitsN it.raw.toNat 11 2

/-- Whether an item reads the registers that DST names: the stores, and a compare-and-swap its compare value. -/
def readsDst (it : Item) : Bool :=
  [0x102, 0x120, 0x42B, 0x42C].contains it.op || ([0x103, 0x121].contains it.op && it.m 55 52 == 7)

/-- Whether field C names registers that the item only writes: CVTP, VOTE, COMPRESS. -/
def writesC (it : Item) : Bool := [0x0C1, 0x0E4, 0x0E8].contains it.op

/-- Registers that a use reads. -/
def useReads (it : Item) (u : Use) : List (Nat × Nat) :=
  match u with
  | .src x vt _ =>
    let j := it.code x - 0x180
    if !it.isImm x && 0x180 ≤ it.code x && it.code x < 0x184 then
      (if vt.pair then [(3, 2 * j), (3, 2 * j + 1)] else [(3, 2 * j)])
    else useRegs it u
  | .vgrp x _ _ => if x = .c && writesC it || it.op == 0x0E1 then [] else useRegs it u
  | .pred x uni => [(if uni then 4 else 2, it.code x % 8)]
  | .dstData _ _ => if readsDst it then useRegs it u else []
  | _ => []

/-- The destination that a capture reads in lanes without a result (R117). -/
def captReads (it : Item) (u : Use) : List (Nat × Nat) :=
  match u with
  | .dstV _ => useRegs it u
  | .dstS _ => useRegs it u
  | _ => []

/-- The lanes whose capture is the destination's value: the guard is false there, or the destination keeps it; none under NOWB. -/
def captLanes (w : Warp) (r : Run) (it : Item) (sp : Spec) : List Nat :=
  if !sp.capt || it.f.nowb then []
  else if it.uni then (if guardU w it then [] else [lowLane r.grp])
  else lanesOf ((r.grp &&& ~~~ activeLanes w r it) ||| sp.keeps)

/-- Registers that modifiers name: the predicate of SSEL and ISEL, those of PMOV, a codebook in s registers. -/
def modReads (it : Item) : List (Nat × Nat) :=
  if it.op = 0x02C then [(4, it.m 54 52)]
  else if it.op = 0x056 then [(2, it.m 54 52)]
  else if it.op = 0x064 && !it.mb 59 then
    ((List.range 7).filter fun i => it.mb (52 + i)).map fun i => (if it.mb 60 then 4 else 2, i)
  else if it.op = 0x0C2 && 0x100 ≤ it.code .b then (List.range 8).map fun j => (1, it.code .b - 0x100 + j)
  else []

/-- The register of a MOVI's range that a lane reads (R168). -/
def moviReads (s : State) (w : Warp) (r : Run) (it : Item) (l : Nat) : List (Nat × Nat) :=
  if it.op = 0x0E1 then
    let n := operand s w r it (.bits 32) .b l
    if n ≤ 31 then [(0, it.code .a + n)] else []
  else []

/-- Whether a register of a warp is lost in a lane. -/
def lostAt (w : Warp) (lat : Nat → Option Latch) (c : Nat × Nat) (l : Nat) : Bool :=
  match c.1 with
  | 0 | 2 => w.parity.contains (c.1, c.2, l)
  | 3 => (lat (c.2 / 2)).any fun x => x.bad.contains (2 * (if x.uni then 0 else l) + c.2 % 2)
  | k => w.parity.contains (k, c.2, 0)

/-- The registers that an item selector of RDTR names in the trapped warp (Table 11.9). -/
def selectorRegs (a : Nat) : List (Nat × Nat) :=
  match bitsN a 15 12 with
  | 0 => [(0, bitsN a 11 0)]
  | 1 => [(1, bitsN a 11 0)]
  | 2 => (List.range 7).map fun i => (2, i)
  | 3 => (List.range 7).map fun i => (4, i)
  | 10 => [(3, bitsN a 11 0)]
  | _ => []

/-- The lost register that an RDTR would read. -/
def rdtrLost (s : State) (w : Warp) (r : Run) (it : Item) : Option (Nat × Nat) :=
  if it.op ≠ 0x1C5 then none
  else
    match findWarp s w.serves with
    | none => none
    | some tw =>
      (selectorRegs (operand s w r it (.int 32 false) .a 0 % 2 ^ 16)).find? fun c =>
        (lanesOf (activeLanes w r it)).any (lostAt tw (fun j => (tw.trap.bind (·.run)).bind fun q => latchOf q j) c)

/-- Whether nothing of a warp and its clause is lost. -/
def nothingLost (w : Warp) (r : Run) : Bool := w.parity.isEmpty && r.lat.all fun e => e.2.all (·.bad.isEmpty)

/-- The first lost register that an instruction reads: its guard, then its operands in order, each in any lane that reads it. -/
def lostRead (s : State) (w : Warp) (r : Run) (it : Item) (sp : Spec) : Option (Nat × Nat) :=
  if nothingLost w r then rdtrLost s w r it
  else
    let guard := (if it.uni then 4 else 2, it.f.gp.toNat)
    if it.f.gp.toNat ≠ 7 && (lanesOf r.grp).any (lostAt w (latchOf r) guard) then some guard
    else
      let act := if it.uni then (if guardU w it then [lowLane r.grp] else []) else lanesOf (activeLanes w r it)
      let named := sp.uses.flatMap (useReads it) ++ modReads it ++ (if it.op = 0x0E1 then [] else sp.extra)
      let kept := captLanes w r it sp
      match (named.find? fun c => act.any (lostAt w (latchOf r) c)).or
          ((sp.uses.flatMap (captReads it)).find? fun c => kept.any (lostAt w (latchOf r) c)) with
      | some c => some c
      | none =>
        match (act.flatMap fun l => (moviReads s w r it l).map fun c => (c, l)).find? fun e => lostAt w (latchOf r) e.1 e.2 with
        | some e => some e.1
        | none => rdtrLost s w r it

end Sys2Proof.Machine
end

