-- ==== Sys2Proof/Machine/Ops.lean ====
section
/-! DEFINITION. The operations every instruction shares: fetching code parcels (R105), fault records and error queues (R347,
R351), taking a trap (R309 to R312, R348), the clause's advance and end, result
writes and latch captures (R117), and the order of checks at issue (R319, R355). -/

namespace Sys2Proof.Machine

/-- What a step answers. -/
abbrev Out := Host.Outcome State Fault Refusal

/-! Code fetch. -/

/-- The values that a parcel has had since its core's instruction cache was last invalidated, the present one first (R105). -/
def parcelValues (s : State) (core pa : Nat) : List Word :=
  let since := nget 0 s.icache core
  let ts := ((s.hist.filter fun h => decide (pa ≤ h.pa) && decide (h.pa < pa + 4) && decide (since ≤ h.idx)).map (·.idx)).eraseDups
  (w32 (homeNat s pa 4) :: ts.map fun t => w32 (ofBytes ((List.range 4).map fun j => byteBefore s (pa + j) t))).eraseDups

/-- One code parcel through the core's instruction cache: its present value, or one that it had since the cache was last invalidated
(R105), chosen freely. -/
def codeParcel (s : State) (core tenant va : Nat) : Except FetchBad Word × State :=
  match fetchAddr s (coreShelf core) tenant (va % 2 ^ 60) with
  | (.error k, s) => (.error k, s)
  | (.ok pa, s) =>
    let s := fillBytes s pa 4
    match parcelValues s core pa with
    | [w] => (.ok w, s)
    | ws =>
      let (k, s) := choose s ws.length
      (.ok (ws.getD k 0), s)

/-- Whether an address is a clause header's (R106): none where the parcel cannot be fetched. -/
def isHeader (s : State) (core tenant va : Nat) : Option Bool × State :=
  if va % 8 ≠ 0 then (some false, s)
  else
    match codeParcel s core tenant va with
    | (.ok w, s) => (some (lengthCode w == 3), s)
    | (.error _, s) => (none, s)

/-! Records and queues. -/

/-- What a fault record says beside what follows from the warp (Table 19.1). -/
structure Report where
  cause : Nat
  pc : Nat := 0
  lanes : Lanes := 0
  addr : DWord := 0
  asp : Nat := 0
  info0 : Nat := 0
  info1 : Nat := 0
  aux : DWord := 0
  src : Nat := 0
  sev : Nat := 1
  defd : Bool := false
  deriving DecidableEq, Repr

/-- Word 0 of a record (Table 19.1). -/
def recWord0 (seq ten que : Nat) (r : Report) : DWord :=
  dw (seq % 2 ^ 32 * 2 ^ 32 + r.src * 2 ^ 20 + ten % 16 * 2 ^ 16 + que % 8 * 2 ^ 13 + (if r.defd then 2 ^ 12 else 0) +
    r.sev % 4 * 256 + r.cause % 256)

/-- Word 2 of a record: the warp, the core and the lanes. A handler's names the trapped warp, whose slot `hslot` keeps (R410). -/
def recWord2 (w : Warp) (lanes : Lanes) : DWord :=
  dw (w.wid % 256 * 2 ^ 56 + w.quad % 4 * 2 ^ 48 + (if w.handler then w.hslot else w.slot) % 16 * 2 ^ 41 + w.core % 512 * 2 ^ 32 + lanes.toNat)

/-- The record of a report that names a warp; its SEQ is taken (R352). Words 0 to 6. -/
def warpRecord (s : State) (w : Warp) (r : Report) : List DWord × State :=
  let que := ((ctxOf s w).map (·.queue)).getD 0
  ([recWord0 s.seq.toNat (tenantOf s w) que r, dw (r.pc % 2 ^ 60), recWord2 w r.lanes, r.addr,
    dw (r.info1 % 2 ^ 32 * 2 ^ 32 + r.info0 % 2 ^ 30 * 4 + r.asp % 4), timeOf s, r.aux],
   { s with seq := s.seq + 1 })

/-- The record of a report that names no warp, deferred as every report that names no instruction (R348) (DEDUCED, log entry 114). -/
def bareRecord (s : State) (ten que : Nat) (r : Report) : List DWord × State :=
  ([recWord0 s.seq.toNat (if r.sev = 3 then 0 else ten) que { r with defd := true }, 0, 0, r.addr,
    dw (r.info1 % 2 ^ 32 * 2 ^ 32 + r.info0 % 2 ^ 30 * 4 + r.asp % 4), timeOf s, r.aux],
   { s with seq := s.seq + 1 })

/-- The 64 bytes of a record, its CRC in bytes 60 to 63 (R347). -/
def recordBytes (ws : List DWord) : List Byte :=
  let body := ((ws.take 7).flatMap fun w => bytesOf 8 w.toNat) ++ bytesOf 4 0
  body ++ bytesOf 4 (crc32 body).toNat

/-- Appending a record to error queue `n`, 16 the module's (R351). -/
def eqAppend (s : State) (n : Nat) (ws : List DWord) : State :=
  let base := pkgReg s 0x28 n
  let idx := pkgReg s 0x29 n
  let ctl := pkgReg s 0x2A n
  let slots := 2 ^ (fld base 3 0 + 6)
  let pidx := fld idx 15 0
  let cidx := fld idx 47 32
  if 10 ≤ fld base 3 0 || fld base 51 12 = 0 || (pidx + 2 ^ 16 - cidx) % 2 ^ 16 = slots then
    let s := pkgPut s 0x2A n (putFld ctl 63 48 (min 0xFFFF (fld ctl 63 48 + 1)))
    { s with lost := nset false s.lost n true }
  else
    let ws := if nget false s.lost n then listSet ws 0 (wordAt ws 0 ||| dw (2 ^ 10)) else ws
    let s := { s with lost := nset false s.lost n false }
    let s := applyWrite s (atAddr (fld base 51 12 * 4096 + 64 * (pidx % slots)) (recordBytes ws))
    let s := pkgPut s 0x29 n (putFld idx 15 0 (pidx + 1))
    if fbit ctl 0 && fbit ctl 1 then
      let s := pkgPut s 0x2A n (putFld ctl 1 1 0)
      { s with boot := { s.boot with msix := s.boot.msix ++ [n] } }
    else s

/-- The queue a record goes to: the tenant's, or the module's for SEV 3 (R350). -/
def reportQueue (ws : List DWord) : Nat := if fld (wordAt ws 0) 9 8 = 3 then 16 else fld (wordAt ws 0) 19 16

/-- Appending a report that names no warp. -/
def reportBare (s : State) (ten que : Nat) (r : Report) : State :=
  let (ws, s) := bareRecord s ten que r
  eqAppend s (reportQueue ws) ws

/-- Appending a report to the module queue. -/
def reportModule (s : State) (r : Report) : State :=
  let (ws, s) := bareRecord s 0 0 r
  eqAppend s 16 ws

/-! Transactions' doom (R250). -/

/-- Dooming a warp's open transaction with a cause of Table 11.7; its write set is discarded at once. -/
def doomWarp (s : State) (w : Warp) (cause : Nat) : Warp × State :=
  if w.txn.isOpen && !w.txn.doomed then
    ({ w with txn := { w.txn with doomed := true }, xcause := BitVec.ofNat 8 cause },
     { s with staging := s.staging.filter fun e => e.txn != w.uid })
  else (w, s)

/-- Dooming the focused warp's. -/
def doom (s : State) (cause : Nat) : State :=
  let (w, s) := doomWarp s s.cur cause
  { s with cur := w }

/-! Publication levels (R70, R73). -/

/-- The publication level a scope needs (Table 4.2): 0 staged, 1 home, 2 system. -/
def scopeLevel (s : State) (w : Warp) (scope : Nat) : Nat :=
  if scope ≤ 1 then 0
  else if scope = 2 then (if 1 < ((blockOf s w).map (·.cores.length)).getD 1 then 1 else 0)
  else if scope ≤ 5 then 1
  else 2

/-- Whether a staging entry of the core lies below a level (R73 step 2), whatever its tag (DEDUCED, log entry 136). -/
def belowLevel (core lvl : Nat) (e : Stage) : Bool :=
  e.core == core && e.txn == 0 && decide (0 < lvl) && !(lvl == 1 && !paLocal e.pa && e.applied)

/-- Raising the entries of a core to a level: their publication starts. -/
def raiseEntries (s : State) (core lvl : Nat) : State :=
  { s with staging := s.staging.map fun e =>
      if belowLevel core lvl e then startPublish s lvl e else e }

/-- Whether an entry that a boundary raised has not yet reached its level (R73 step 3). -/
def waitingEntries (s : State) (core lvl : Nat) : Bool := s.staging.any fun e => belowLevel core lvl e && e.going.isSome

/-! Taking a trap. -/

/-- Vector entry of a cause (Table 15.1). -/
def vectorEntry (cause : Nat) : Nat :=
  if 0xE0 ≤ cause then cause - 0xE0
  else if 0xC0 ≤ cause then 32 + (cause - 0xC0)
  else 40 + cause / 32

/-- The DLV bit of a cause's range in TRAPCFG (Table 19.2). -/
def dlvBit (cause : Nat) : Nat := 24 + min 6 (cause / 32)

/-- Where the handler of a cause begins, where the trap is delivered to one (R310). -/
def handlerEntry (s : State) (w : Warp) (cause : Nat) : Option DWord × State :=
  let shelf := coreShelf w.core
  let ten := tenantOf s w
  let tv := shelfReg s shelf 0x12 ten
  if w.handler || !trapCfg s w 16 || !trapCfg s w (dlvBit cause) || cause = 0xC4 || !fbit tv 0 then (none, s)
  else
    match sysRead s shelf ten (fld tv 59 9 * 512 + 8 * vectorEntry cause) 8 with
    | (none, s) => (none, s)
    | (some bs, s) =>
      let e := dw (ofBytes bs)
      if !fbit e 0 then (none, s)
      else
        match isHeader s w.core ten (fld e 59 3 * 8) with
        | (some true, s) => (some (dw (fld e 59 3 * 8)), s)
        | (_, s) => (none, s)

/-- The lowest lane's PC among `lanes`. -/
def pcOf (w : Warp) (lanes : Lanes) : DWord := nget 0 w.pc (lowLane lanes)

/-- Setting the PC of lanes. -/
def setPcs (w : Warp) (lanes : Lanes) (pc : DWord) : Warp :=
  { w with pc := (lanesOf lanes).foldl (fun m l => nset 0 m l pc) w.pc }

/-- The address of the next instruction of the lowest of some lanes: past its wait, for one that is parked. -/
def nextPcOf (w : Warp) (lanes : Lanes) : DWord :=
  match nget none w.park (lowLane lanes) with
  | some p => p.ft
  | none => pcOf w lanes

/-- Whether a stop leaves the instruction at which its clause stands still to issue, so that the lower events of R319 which it passes over
do not recur: a header's STEP stop, a breakpoint, a precise fault. -/
def passesOver (cause : Nat) (r : Run) : Bool := (cause = 0xC0 && r.slot = 0) || cause = 0xC2 || cause < 0xC0

/-- Stopping lanes of group `grp` of the focused warp with a record (R311): the rest of the group is held, the clause is kept for
TRET, the core's entries are raised to the level of .block (R73 step 2), and the trap is delivered to the handler or to system software
(R310, R350). `run` is the clause positioned where the lanes go on. A stopped lane's call depth starts afresh (R318); the lower events
that the stop passes over are noted (R319). What the warp held at issue is examined anew when it goes on (R52). -/
def stopWith (s : State) (ws : List DWord) (stopped grp : Lanes) (run : Option Run) : State :=
  let cause := fld (wordAt ws 0) 7 0
  let s := doom s 0x08
  let s := raiseEntries s s.cur.core (scopeLevel s s.cur 2)
  let w := s.cur
  let held := grp &&& w.live &&& ~~~ stopped
  let (entry, s) := handlerEntry s w cause
  let w := { w with
    depth := (lanesOf stopped).foldl (fun m l => nset 0 m l 0) w.depth
    skip := match run with
      | some r => if passesOver cause r then (lanesOf stopped).foldl (fun m l => nset none m l (some (r.pc, cause == 0xC2))) w.skip else w.skip
      | none => w.skip }
  let w := match run with
    | some r => setPcs w r.grp r.pc
    | none => w
  let t : Trap := { record := ws, cause := BitVec.ofNat 8 cause, stopped := stopped, held := held, run := run,
                    phase := if entry.isSome then 0 else 2, moved := 0, entry := entry.getD 0, order := s.fresh }
  let s := { s with fresh := s.fresh + 1, cur := { w with run := none, trap := some t }
                    held := s.held.filter fun h => h.warp != w.uid, wants := s.wants.filter fun x => x.warp != w.uid }
  if entry.isSome then s else eqAppend s (reportQueue ws) ws

/-- A handler warp ends: the deferred reports that it has not met yet go to system software (R347). -/
def dropHandler (s : State) (h : Warp) : State :=
  dropWarp (h.deferred.foldl (fun s e =>
    eqAppend { s with seq := s.seq + 1 } (reportQueue e.1) (listSet e.1 0 (putFld (wordAt e.1 0) 63 32 s.seq.toNat))) s) h.uid

/-- A fault of a handler warp (R313): reported to system software, the handler ends, the trapped warp stays stopped. -/
def handlerFault (s : State) (ws : List DWord) : State :=
  let h := s.cur
  let s := eqAppend s (reportQueue ws) ws
  let s := dropHandler s h
  match findWarp s h.serves with
  | none => s
  | some w => putWarp s { w with trap := w.trap.map fun t => { t with phase := 2 } }

/-- Taking a trap on the focused warp: the record is made, lanes stop (DEDUCED, log entry 49). -/
def takeTrap (s : State) (rep : Report) (grp : Lanes) (run : Option Run) : State :=
  let (ws, s) := warpRecord s s.cur rep
  if s.cur.handler then handlerFault s ws else stopWith s ws rep.lanes grp run

/-- A precise fault of the running instruction: every lane of the group stops at it, and it has no effect (R311, R348). -/
def preciseFault (s : State) (r : Run) (rep : Report) : State :=
  takeTrap s { rep with pc := r.pc.toNat, lanes := r.grp } r.grp (some r)

/-- A failed check of R355: cause 0x02 or 0x03, with the literal and the raw form (Table 20.1). -/
def badTrap (s : State) (r : Run) (it : Item) (b : Bad) : State :=
  preciseFault s r { cause := if b.enc then 0x02 else 0x03, info0 := b.sub, info1 := b.info, aux := it.raw,
                     addr := (it.f.lit.getD 0).setWidth 64 }

/-- A fault of a warp that is found outside its clauses: recorded now, its lanes stop at the next clause boundary, where its SEQ is
taken (R352, DEDUCED, log entry 142). -/
def stopLater (s : State) (w : Warp) (rep : Report) : State :=
  let (ws, t) := warpRecord s w rep
  match findWarp s w.uid with
  | none => eqAppend t (reportQueue ws) ws
  | some w => putWarp s { w with deferred := w.deferred ++ [(ws, rep.lanes)] }

/-! The clause. -/

/-- The fall-through address of a clause (R138): just past its body, rounded up to 8. -/
def fallThrough (r : Run) : Nat := ((r.hdrAddr.toNat + 8 + 4 * fld r.hdr 11 6 + 7) / 8 * 8) % 2 ^ 60

/-- The clause with the next instruction's slot, address and parcels. -/
def advance (r : Run) (it : Item) : Run :=
  { r with slot := r.slot + 1, pc := dw ((r.pc.toNat + 4 * it.parcels) % 2 ^ 60), body := r.body.drop it.parcels,
           transit := false, bnd := none, released := false, watching := none, slotSince := 0 }

/-- A deferred fault of a warp (R348). -/
def deferFault (s : State) (w : Warp) (rep : Report) : State := stopLater s w { rep with defd := true }

/-- Stops due at a clause boundary: a deferred fault, then a halt (R311, R317). -/
def boundaryStops (s : State) : State :=
  let w := s.cur
  if w.trap.isSome || w.uid = 0 then s
  else
    match w.deferred with
    | (ws, lanes) :: t =>
      let lanes := lanes &&& w.live
      let s := { s with cur := { w with deferred := t } }
      let ws := listSet (listSet (listSet ws 1 (pcOf w lanes)) 2 (recWord2 w lanes)) 0 (putFld (wordAt ws 0) 63 32 s.seq.toNat)
      let s := { s with seq := s.seq + 1 }
      if w.handler then handlerFault s ws
      else if lanes = 0 then eqAppend s (reportQueue ws) ws
      else stopWith s ws lanes lanes none
    | [] =>
      if w.halt then
        let lanes := lanesWhere w.live fun l => (nget none w.park l).isNone
        let s := { s with cur := { w with halt := false } }
        if lanes = 0 then s else takeTrap s { cause := 0xC4, pc := (pcOf w lanes).toNat, lanes := lanes } lanes none
      else s

/-- Ending the clause of the focused warp: its group's lanes stand at `go lane`. -/
def endClause (s : State) (r : Run) (go : Nat → DWord) : State :=
  let w := s.cur
  { s with cur := { w with
      run := none
      yielded := w.yielded || fbit r.hdr 21
      pc := (lanesOf (r.grp &&& w.live)).foldl (fun m l => nset 0 m l (go l)) w.pc } }

/-- Lanes of a stopping step (R318): debug-enabled, and the mode allows it; `ret` says a RET was taken. -/
def stepLanes (w : Warp) (grp : Lanes) (ret : Bool) : Lanes :=
  lanesWhere (grp &&& w.live &&& w.dbg) fun l =>
    let d := nget 0 w.depth l
    match w.stepm.toNat with
    | 0 => true
    | 1 => decide (d ≤ 0)
    | _ => ret && decide (d = -1)

/-- The stops due after the instruction at `r` (R319): a data watch that matched, then a step; neither in a lane in which an earlier stop
at this instruction has passed over them (DEDUCED, log entry 131). Its group has now issued an instruction past any breakpoint (R313). The
stops of a clause boundary come where the instruction itself stops nothing. -/
def afterStops (s : State) (r : Run) (watch ret : Bool) : State :=
  let w := s.cur
  if w.uid = 0 then s
  else
    let passed := lanesWhere r.grp fun l => (nget none w.skip l).any fun x => x.1 == r.pc
    let s := { s with cur := { w with skip := (lanesOf r.grp).foldl (fun m l => nset none m l none) w.skip } }
    if w.trap.isSome then s
    else
      let dbg := r.grp &&& w.live &&& w.dbg &&& ~~~ passed
      let stepped := if w.step then stepLanes w r.grp ret &&& ~~~ passed else 0
      let pc := fun lanes => (match w.run with | some r => r.pc | none => nextPcOf w lanes).toNat
      if watch && dbg ≠ 0 then takeTrap s { cause := 0xC3, pc := pc dbg, lanes := dbg } r.grp w.run
      else if stepped ≠ 0 then takeTrap s { cause := 0xC0, pc := pc stepped, lanes := stepped } r.grp w.run
      else if w.run.isNone then boundaryStops s
      else s

/-- The clause breaks off before the instruction at `r`: the step bit makes each instruction a clause of its own (R318). Its latches are
kept (R119). -/
def pauseClause (s : State) (r : Run) : State :=
  let w := setPcs s.cur (r.grp &&& s.cur.live) r.pc
  { s with cur := { w with run := none, paused := w.paused ++ [r] } }

/-- Going on after an instruction that transfers nothing: to the next slot, or past the clause's end. -/
def goOn (s : State) (r : Run) (it : Item) (watch : Bool) : State :=
  let r' := advance r it
  let s := if r'.body.isEmpty then endClause s r' fun _ => dw (fallThrough r)
    else if s.cur.step then pauseClause s r'
    else { s with cur := { s.cur with run := some r' } }
  afterStops s r watch false

/-- Going on with no data watch matched. -/
def finish (s : State) (r : Run) (it : Item) : State := goOn s r it false

/-! Results. -/

/-- Keeping a latch capture in slot modulo 4 (R117). -/
def capture (r : Run) (l : Latch) : Run := { r with lat := nset none r.lat (r.slot % 4) (some l) }

/-- The capture of a vector result: the result in active lanes, elsewhere the destination register, or zero under NOWB. -/
def vecLatch (w : Warp) (r : Run) (it : Item) (act : Lanes) (pair : Bool) (res : Nat → Nat) : Latch :=
  { uni := false
    vals := (lanesOf r.grp).foldl (fun m l =>
      nset 0 m l (dw (if lon act l then res l % 2 ^ (if pair then 64 else 32)
        else if it.f.nowb then 0 else vnat w pair it.d l))) [] }

/-- Writing a vector result in active lanes. -/
def vecWrite (w : Warp) (it : Item) (act : Lanes) (pair : Bool) (res : Nat → Nat) : Warp :=
  if it.f.nowb then w else (lanesOf act).foldl (fun w l => vputNat w pair it.d l (res l)) w

/-- A capturing vector instruction's end: its result written and captured, the clause goes on. -/
def vecResult (s : State) (r : Run) (it : Item) (pair : Bool) (res : Nat → Nat) : State :=
  let w := s.cur
  let act := activeLanes w r it
  let r' := capture r (vecLatch w r it act pair res)
  finish { s with cur := vecWrite w it act pair res } r' it

/-- The same, with a further write to the warp after the result. -/
def vecResultThen (s : State) (r : Run) (it : Item) (pair : Bool) (res : Nat → Nat) (more : Warp → Warp) : State :=
  let w := s.cur
  let act := activeLanes w r it
  let r' := capture r (vecLatch w r it act pair res)
  finish { s with cur := more (vecWrite w it act pair res) } r' it

/-- A capturing uniform instruction's end (R117): with a false guard the capture is the register's value. -/
def uniResult (s : State) (r : Run) (it : Item) (pair : Bool) (res : Nat) : State :=
  let w := s.cur
  let go := guardU w it
  let x := if go then res else if it.f.nowb then 0 else snat w pair it.d
  let r' := capture r { uni := true, vals := nset 0 [] 0 (dw (x % 2 ^ (if pair then 64 else 32))) }
  finish { s with cur := if go && !it.f.nowb then sputNat w pair it.d res else w } r' it

/-- A predicate result in active lanes; nothing is captured (R117, R153). -/
def predResult (s : State) (r : Run) (it : Item) (res : Nat → Bool) : State :=
  let w := s.cur
  let w := (lanesOf (activeLanes w r it)).foldl (fun w l => pset w it.d l (res l)) w
  finish { s with cur := w } r it

/-- Advancing the stochastic counters of the active lanes (R101). -/
def bumpRctr (w : Warp) (act : Lanes) : Warp :=
  { w with rctr := (lanesOf act).foldl (fun m l => nset 0 m l (nget 0 m l + 1)) w.rctr }

/-! Issue. -/

/-- Whether the instruction at which a clause stands has issued and is under way: it waits for accesses or for their performing. -/
def Run.underWay (r : Run) : Bool :=
  r.transit || r.bnd.isSome || r.released || r.watching.isSome || r.begun != 0 || r.slotSince != 0 || r.counted

/-- An enabled breakpoint comparator matches the instruction about to issue (R315): the lanes it stops. -/
def breakLanes (s : State) (w : Warp) (r : Run) : Lanes :=
  let dbg := lanesWhere (r.grp &&& w.dbg) fun l => nget none w.skip l != some (r.pc, true)
  if dbg ≠ 0 && !r.underWay && fld (coreReg s w.core 0x40 0) 3 0 = tenantOf s w && (List.range 8).any fun n =>
      let b := coreReg s w.core 0x41 n
      fbit b 63 && fld b 59 2 * 4 == r.pc.toNat
  then r.grp &&& w.dbg else 0

/-- Values of an MMA with DC ≠ 0 that may reach the registers an instruction names before its counter falls (R122): each
register of each lane takes the MMA's value now, or not, freely (DEDUCED, log entry 18). -/
def earlyWrites (s : State) (regs : List (Nat × Nat)) : State :=
  s.products.foldl (fun s p =>
    if p.warp ≠ s.cur.uid || p.dcSel = 0 then s
    else
      (p.vals.filter fun e => regs.contains (0, e.1 / 32)).foldl (fun s e =>
        let (k, s) := choose s 2
        if k = 0 then s
        else
          { s with
            cur := vset s.cur (e.1 / 32) (e.1 % 32) e.2
            products := s.products.map fun q =>
              if q.id == p.id then { q with vals := q.vals.filter fun x => x.1 != e.1 } else q }) s) s

/-- A lost register is found when it is read (R383, cause 0x83). -/
def parityTrap (s : State) (r : Run) (c : Nat × Nat) : State :=
  preciseFault s r { cause := 0x83, info0 := if c.1 = 4 then 2 else c.1, info1 := if c.1 = 3 then c.2 / 2 else c.2 }

/-- Issuing one instruction (R319, R355), unless its accesses are on their way over the Causeway (R50): breakpoint, pending registers (R120), its checks, then its effect. A lost register that
it reads is found after its encoding checks and before those that look at operands (R383, DEDUCED, log entry 38)
(DEDUCED, log entry 72). -/
def issue (it : Item) (sp : State → Warp → Run → Spec) (s : State) (k : State → Warp → Run → State) : Out :=
  match s.cur.run with
  | none => .fault .noIssueGroup
  | some r =>
    let w := s.cur
    if r.transit then .next s else
    let bp := breakLanes s w r
    if bp ≠ 0 then .next (takeTrap s { cause := 0xC2, pc := r.pc.toNat, lanes := bp } r.grp (some r))
    else
      let p := sp s w r
      if blocked w r p.wide (specRegs it p) then .next s
      else
        match firstBad (specBads s w r it p), lostRead s w r it p with
        | some b, lost =>
          (match b.enc, lost with
           | false, some c => .next (parityTrap s r c)
           | _, _ => .next (badTrap s r it b))
        | none, some c => .next (parityTrap s r c)
        | none, none =>
          let s := earlyWrites s (specRegs it p)
          .next (k s s.cur r)

/-- An item whose long opcode is unassigned (R124, R357): illegal encoding, subcode 1, when it issues. -/
def badOpcode (s : State) : Out :=
  match s.cur.run with
  | none => .fault .noIssueGroup
  | some r =>
    let bp := breakLanes s s.cur r
    if bp ≠ 0 then .next (takeTrap s { cause := 0xC2, pc := r.pc.toNat, lanes := bp } r.grp (some r))
    else
      .next (preciseFault s r { cause := 0x02, info0 := 1, info1 := 2, aux := (r.body.getD 1 0) ++ (r.body.getD 0 0),
                                addr := if lengthCode (r.body.getD 0 0) = 2 then (r.body.getD 2 0).setWidth 64 else 0 })

end Sys2Proof.Machine
end

