-- ==== Sys2Proof/Machine/Flags.lean ====
section
/-! DEFINITION. Conditions: the machine sets no status flag (R88, R135); predicates are its only conditions. Here are the
compare codes of Table 7.1 and the Boolean functions of R150 and R155. -/

namespace Sys2Proof.Machine

/-- The compare codes 0 eq, 1 ne, 2 lt, 3 le, 4 gt, 5 ge on integers (Table 7.1). -/
def compareInt (cc : Nat) (x y : Int) : Bool :=
  match cc with
  | 0 => x == y
  | 1 => x != y
  | 2 => x < y
  | 3 => x ≤ y
  | 4 => y < x
  | _ => y ≤ x

/-- A three-input Boolean function: bit x + 2y + 4z of the table (R150, R155). -/
def lut3 (lut : Nat) (x y z : Bool) : Bool := lut.testBit ((if x then 1 else 0) + (if y then 2 else 0) + (if z then 4 else 0))

/-- The function bit by bit over `w` bits (R150). -/
def lop3 (lut w a b c : Nat) : Nat :=
  (List.range w).foldl (fun n i => if lut3 lut (a.testBit i) (b.testBit i) (c.testBit i) then n + 2 ^ i else n) 0

/-- A predicate code of PLOP in a lane: index and negation (R155). -/
def predCode (w : Warp) (uni : Bool) (code lane : Nat) : Bool :=
  (if uni then qget w (code % 8) else pget w (code % 8) lane) != (code / 8 % 2 == 1)

/-- p0 to p6 of a lane, or q0 to q6, as PMOV lays them out. -/
def predMask (w : Warp) (uni : Bool) (lane : Nat) : Nat := (if uni then w.q else nget 0 w.p lane).toNat

end Sys2Proof.Machine
end

