-- ==== Sys2Proof/Machine/Alu.lean ====
section
/-! DEFINITION. The shape shared by arithmetic instructions, vector and uniform (R134 to R137, R146), and the integer
functions of R148 to R155. -/

namespace Sys2Proof.Machine

/-- Checks of the common modifier layout (Table 6.10a, R134) for an instruction with no rounding: its types, the OPX bits
it defines. -/
def commonBads (it : Item) (types : List Nat) (opx : Nat) : List Bad :=
  opdBad (!types.contains it.ty) 5 it.ty ++ opdBad (it.m 58 56 ≠ 0) 6 (it.m 58 56) ++ opdBad (it.mb 55) 6 1 ++
  opdBad (it.mb 54) 6 1 ++ encBad (it.mb 52 && opx % 2 == 0) 7 52 ++ encBad (it.mb 53 && opx / 2 % 2 == 0) 7 53

/-- The operand fields in order. -/
def fieldsOf : List Fld := [.a, .b, .c]

/-- Uses of the leading operand fields with their types, the rest unused. -/
def srcUses (u : Bool) (ts : List VT) : List Use :=
  (List.range 3).map fun i =>
    match ts[i]? with
    | some t => .src (fieldsOf.getD i .a) t (if u then accUni else accAny)
    | none => .unused (fieldsOf.getD i .a)

/-- Requirements of a capturing instruction: operand types, pair result, own conditions. -/
def aluSpec (u : Bool) (ts : List VT) (pair : Bool) (bads : List Bad) : Spec :=
  { uses := srcUses u ts ++ [if u then .dstS (if pair then 2 else 1) else .dstV (if pair then 2 else 1)], bads := bads,
    capt := true }

/-- A capturing instruction whose result in a lane is `g`; a uniform one computes it once (R146). -/
def aluOp (u : Bool) (it : Item) (ts : List VT) (pair : Bool) (bads : List Bad)
    (g : State → Warp → Run → Nat → Nat) (s : State) : Out :=
  issue it (fun _ _ _ => aluSpec u ts pair bads) s fun s w r =>
    if u then uniResult s r it pair (g s w r 0) else vecResult s r it pair (g s w r)

/-- A predicate-writing instruction, per thread or uniform. -/
def predOp (u : Bool) (it : Item) (ts : List VT) (bads : List Bad) (g : State → Warp → Run → Nat → Bool) (s : State) : Out :=
  issue it (fun _ _ _ => { uses := srcUses u ts ++ [.dstP u], bads := bads }) s fun s w r =>
    if u then finish { s with cur := if guardU w it then qset w it.d (g s w r 0) else w } r it
    else predResult s r it (g s w r)

/-- Whether an integer type code is signed. -/
def tySigned (t : Nat) : Bool := t < 4

/-- Width of an integer or bit-pattern type code. -/
def tyWidth (t : Nat) : Nat := (vtOf t).width

/-- Put of R136: clamped to the type's range under .sat, then a w-bit pattern. -/
def putInt (t : Nat) (sat : Bool) (v : Int) : Nat :=
  let w := tyWidth t
  let lo : Int := if tySigned t then -(2 ^ (w - 1) : Nat) else 0
  let hi : Int := if tySigned t then (2 ^ (w - 1) : Nat) - 1 else (2 ^ w : Nat) - 1
  wrapInt w (if sat then max lo (min hi v) else v)

/-- The operand as a signed or unsigned integer of the type. -/
def getI (s : State) (w : Warp) (r : Run) (it : Item) (t : Nat) (x : Fld) (l : Nat) : Int := operandInt s w r it (vtOf t) x l

/-- The operand as bits of the type. -/
def getB (s : State) (w : Warp) (r : Run) (it : Item) (t : Nat) (x : Fld) (l : Nat) : Nat :=
  operand s w r it (vtOf t) x l % 2 ^ tyWidth t

/-- A 32-bit count operand. -/
def vtCount : VT := .int 32 false

/-- The integer types of add and subtract. -/
def intTypes : List Nat := [2, 3, 6, 7]

/-- Shifts of R149 on `w` bits: kind 0 left, 1 right logical, 2 right arithmetic. -/
def shiftVal (kind w a n : Nat) (wrap : Bool) : Nat :=
  let n := if wrap then n % w else n
  match kind with
  | 0 => if w ≤ n then 0 else a * 2 ^ n % 2 ^ w
  | 1 => if w ≤ n then 0 else a / 2 ^ n
  | _ => wrapInt w (signedOf w a / (2 ^ min n w : Nat))

/-- SHF of R149. -/
def funnel (left wrap : Bool) (a b n : Nat) : Nat :=
  let n := if wrap then n % 32 else min n 32
  let x := b * 2 ^ 32 + a
  if left then x * 2 ^ n % 2 ^ 64 / 2 ^ 32 else x / 2 ^ n % 2 ^ 32

/-- POPC. -/
def popcN (w a : Nat) : Nat := ((List.range w).filter a.testBit).length

/-- CLZ: leading zeros among `w` bits. -/
def clzN (w a : Nat) : Nat := if a = 0 then w else w - 1 - Nat.log2 a

/-- BREV over `w` bits. -/
def brevN (w a : Nat) : Nat := (List.range w).foldl (fun n i => if a.testBit i then n + 2 ^ (w - 1 - i) else n) 0

/-- BFE of R151. -/
def bfeVal (t : Nat) (a : Int) (ctl : Nat) : Nat :=
  let w := tyWidth t
  let pos := ctl % 256
  let len := ctl / 256 % 256
  if len = 0 then 0
  else
    let n := min len w
    let f := wrapInt n (a / (2 ^ pos : Nat))
    putInt t false (if tySigned t then signedOf n f else f)

/-- BFI of R151. -/
def bfiVal (w a b ctl : Nat) : Nat :=
  let pos := ctl % 256
  let len := ctl / 256 % 256
  (List.range w).foldl (fun n i =>
    if (if pos ≤ i && i < pos + len then b.testBit (i - pos) else a.testBit i) then n + 2 ^ i else n) 0

/-! The operations, each for the vector and the uniform instruction that share it. -/

/-- OPX[0]. -/
def opx0 (it : Item) : Bool := it.mb 52

/-- IADD, SADD: sum; ISUB, SSUB: difference; IMUL, SMUL: product (R148). -/
def arith2 (u : Bool) (sat : Bool) (it : Item) (g : Int → Int → Int) : State → Out :=
  let t := it.ty
  aluOp u it [vtOf t, vtOf t] (vtOf t).pair (commonBads it intTypes (if sat then 1 else 0)) fun s w r l =>
    putInt t (sat && opx0 it) (g (getI s w r it t .a l) (getI s w r it t .b l))

/-- A shift of R149: kind, types. -/
def shiftOp (u : Bool) (it : Item) (kind : Nat) (types : List Nat) : State → Out :=
  let t := it.ty
  aluOp u it [vtOf t, vtCount] (vtOf t).pair (commonBads it types 1) fun s w r l =>
    shiftVal kind (tyWidth t) (getB s w r it t .a l) (operand s w r it vtCount .b l) (opx0 it)

/-- Bitwise instructions of R146. -/
def bit2 (u : Bool) (it : Item) (g : Nat → Nat → Nat) : State → Out :=
  let t := it.ty
  aluOp u it [vtOf t, vtOf t] (vtOf t).pair (commonBads it [8, 9] 0) fun s w r l =>
    g (getB s w r it t .a l) (getB s w r it t .b l)

/-- ICMP, SCMP (R152). -/
def compareOp (u : Bool) (it : Item) : State → Out :=
  let t := it.ty
  let cc := it.m 58 56
  predOp u it [vtOf t, vtOf t]
    (opdBad (!(intTypes ++ [8, 9]).contains t) 5 t ++ opdBad (6 ≤ cc || (8 ≤ t && t ≤ 9 && 2 ≤ cc)) 6 cc ++
      encBad (it.m 55 52 ≠ 0) 7 52)
    fun s w r l => compareInt cc (getI s w r it t .a l) (getI s w r it t .b l)

/-- ISEL, SSEL (R152). -/
def selectOp (u : Bool) (it : Item) : State → Out :=
  let t := it.ty
  aluOp u it [vtOf t, vtOf t] (vtOf t).pair
    (opdBad (!([8, 9] : List Nat).contains t) 5 t ++ encBad (it.m 58 56 ≠ 0) 7 56) fun s w r l =>
    if it.mb 55 != (if u then qget w (it.m 54 52) else pget w (it.m 54 52) l) then getB s w r it t .a l
    else getB s w r it t .b l

/-- MOV, SMOV: the operand as it stands. -/
def moveOp (u : Bool) (it : Item) : State → Out :=
  let t := it.ty
  aluOp u it [vtOf t] (vtOf t).pair (commonBads it [8, 9] 0) fun s w r l => getB s w r it t .a l

end Sys2Proof.Machine
end

