-- ==== Sys2Proof/Machine/Address.lean ====
section
/-! DEFINITION. The address and predicate instructions (R154, R155). -/

namespace Sys2Proof.Machine

/-- LEA of R154; SX is zero. R154 names no operand types: a and b are taken as unsigned 32-bit integers (DESIGN CHOICE, log
entry 122). -/
def leaOp (it : Item) : State → Out :=
  aluOp false it [vtCount, vtCount] false (encBad (it.m 63 58 ≠ 0) 7 58 ++ encBad (it.mb 57) 7 57) fun s w r l =>
    (operand s w r it vtCount .a l * 2 ^ it.m 56 52 + operand s w r it vtCount .b l) % 2 ^ 32

/-- LEA64 of R154. R154 names no operand types: b is taken as an unsigned 64-bit integer, so a literal in it is zero-extended
and the constants 0x1D5 to 0x1D7 are the unsigned maximum and minimum (DESIGN CHOICE, log entry 122). -/
def lea64Op (it : Item) : State → Out :=
  aluOp false it [.int 32 (it.mb 57), .int 64 false] true (encBad (it.m 63 58 ≠ 0) 7 58) fun s w r l =>
    wrapInt 64 (operandInt s w r it (.int 32 (it.mb 57)) .a l * (2 ^ it.m 56 52 : Nat) +
      operandInt s w r it (.int 64 false) .b l)

/-- PSET of R155: T is .b32 or .b64. -/
def psetOp (u : Bool) (it : Item) : State → Out :=
  let t := it.ty
  predOp u it [vtOf t] (opdBad (!([8, 9] : List Nat).contains t) 5 t ++ encBad (it.m 58 53 ≠ 0) 7 53) fun s w r l =>
    getB s w r it t .a l != 0

/-- PLOP of R155: the operand fields hold predicate codes. -/
def plopOp (u : Bool) (it : Item) (s : State) : Out :=
  let spec : Spec := { uses := [.pred .a u, .pred .b u, .pred .c u, .dstP u], bads := encBad (it.m 63 61 ≠ 0) 7 61 }
  let val := fun (w : Warp) (l : Nat) =>
    lut3 (it.m 59 52) (predCode w u (it.code .a) l) (predCode w u (it.code .b) l) (predCode w u (it.code .c) l)
  issue it (fun _ _ _ => spec) s fun s w r =>
    if u then finish { s with cur := if guardU w it then qset w it.d (val w 0) else w } r it
    else predResult s r it (val w)

/-- Writing the predicates that a mask names from the low bits of a value (R155). -/
def putMask (w : Warp) (u : Bool) (mask x lane : Nat) : Warp :=
  (List.range 7).foldl (fun w i =>
    if mask.testBit i then (if u then qset w i (x.testBit i) else pset w i lane (x.testBit i)) else w) w

/-- PMOV of R155: predicates to a register (DIR = 0), or a register to predicates. -/
def pmovOp (u : Bool) (it : Item) (s : State) : Out :=
  let mask := it.m 58 52
  let common := encBad (it.m 63 61 ≠ 0) 7 61
  if it.mb 59 then
    issue it (fun _ _ _ => { uses := srcUses u [.bits 32] ++ [.dstNone], bads := common }) s fun s w r =>
      let val := fun l => operand s w r it (.bits 32) .a l
      let w' := if u then (if guardU w it then putMask w true mask (val 0) 0 else w)
        else (lanesOf (activeLanes w r it)).foldl (fun w l => putMask w false mask (val l) l) w
      finish { s with cur := w' } r it
  else
    aluOp u it [] false common (fun _ w _ l => predMask w u l &&& mask &&& 0x7F) s

/-- LEA (R154). -/
def execLea (f : Long) (s : State) : Out := leaOp (longItem 0x060 false f) s

/-- LEA64 (R154). -/
def execLea64 (f : Long) (s : State) : Out := lea64Op (longItem 0x061 false f) s

/-- PSET (R155). -/
def execPset (f : Long) (s : State) : Out := psetOp (f.md.getLsbD 0) (longItem 0x062 (f.md.getLsbD 0) f) s

/-- PLOP (R155). -/
def execPlop (f : Long) (s : State) : Out := plopOp (f.md.getLsbD 8) (longItem 0x063 (f.md.getLsbD 8) f) s

/-- PMOV (R155). -/
def execPmov (f : Long) (s : State) : Out := pmovOp (f.md.getLsbD 8) (longItem 0x064 (f.md.getLsbD 8) f) s

end Sys2Proof.Machine
end

