-- ==== Sys2Proof/Machine/FloatOps.lean ====
section
/-! DEFINITION. Floating-point arithmetic (R156 to R162): FP32, packed half and FP64. -/

namespace Sys2Proof.Machine

/-- The linear position of a thread in the grid, as formed under R36 (R101). A block whose threads do not fill its last warp
counts only the threads it has (DESIGN CHOICE, log entry 119). -/
def gridPos (s : State) (w : Warp) (lane : Nat) : Nat :=
  let r := recOf s w
  (w.clu * recNblk r + w.bid) * recNthr r + w.wid * 32 + lane

/-- The random bits of a lane for element `j` (R101). -/
def laneRandom (s : State) (w : Warp) (lane j : Nat) : Nat :=
  randomBits w.rseed (nget 0 w.rctr lane) (gridPos s w lane) j

/-- Checks of the common layout for floating instructions (R156): types, rounding codes up to `rnd`, FTZ with .f32 where
`ftz`, NSAT never, the OPX bits defined. -/
def fltBads (it : Item) (types : List Nat) (rnd : Nat) (ftz : Bool) (opx : Nat) : List Bad :=
  opdBad (!types.contains it.ty) 5 it.ty ++ opdBad (rnd < it.m 58 56) 6 (it.m 58 56) ++
  opdBad (it.mb 55 && !(ftz && it.ty == 0x0B)) 6 1 ++ opdBad (it.mb 54) 6 1 ++
  encBad (it.mb 52 && opx % 2 == 0) 7 52 ++ encBad (it.mb 53 && opx / 2 % 2 == 0) 7 53

/-- RND of the common layout. -/
def rndOf (it : Item) : Nat := it.m 58 56
/-- FTZ of the common layout. -/
def ftzOf (it : Item) : Bool := it.mb 55

/-- The format of TYPE. -/
def fmtOf (it : Item) : Fmt := (fmtOfType it.ty).getD f32

/-- A capturing floating instruction: under .rs the active lanes' counters advance once (R101). -/
def fltOp (it : Item) (ts : List VT) (pair : Bool) (bads : List Bad) (g : State → Warp → Run → Nat → Nat) (s : State) : Out :=
  issue it (fun _ _ _ => aluSpec false ts pair bads) s fun s w r =>
    let s' := if rndOf it = 4 then { s with cur := bumpRctr w (activeLanes w r it) } else s
    vecResult s' r it pair (g s w r)

/-- The exact result of an operation on up to three values, under a rounding mode. -/
abbrev Kernel := Nat → FV → FV → FV → FV

/-- a + b. -/
def addK : Kernel := fun mode a b _ => addFV mode a b
/-- a · b. -/
def mulK : Kernel := fun _ a b _ => mulFV a b
/-- a · b + c. -/
def fmaK : Kernel := fun mode a b c => addFV mode (mulFV a b) c

/-- A short DADD or DMUL takes no latch in B7 (R162). -/
def shortPairBads (it : Item) (F : Fmt) : List Bad :=
  opdBad (it.isShort && F.width = 64 && 0x40 ≤ it.b7 && it.b7 < 0x44) 1 it.b7

/-- FADD, FMUL, FFMA, DADD, DMUL, DFMA: the exact result rounded once (R157, R158). -/
def scalarOp (types : List Nat) (n : Nat) (k : Kernel) (it : Item) : State → Out :=
  let F := fmtOf it
  let t := vtOf it.ty
  fltOp it (List.replicate n t) t.pair (fltBads it types 4 true 0 ++ shortPairBads it F) fun s w r l =>
    let v := fun x => operandF s w r it F (ftzOf it) x l
    roundF F (rndOf it) (laneRandom s w l 0) false (ftzOf it) (k (rndOf it) (v .a) (v .b) (if n = 3 then v .c else .nan))

/-- Element `j` of a packed operand. -/
def half (x j : Nat) : Nat := x / 2 ^ (16 * j) % 2 ^ 16

/-- HADD2, HMUL2, HFMA2 (R162). -/
def packedOp (n : Nat) (k : Kernel) (it : Item) : State → Out :=
  let F := fmtOf it
  let t := VT.packed F
  fltOp it (List.replicate n t) false (fltBads it [0x0C, 0x0D] 4 false 0) fun s w r l =>
    let v := fun x j => decodeF F (half (operand s w r it t x l) j)
    let e := fun j => roundF F (rndOf it) (laneRandom s w l j) false false
      (k (rndOf it) (v .a j) (v .b j) (if n = 3 then v .c j else .nan))
    e 0 + e 1 * 2 ^ 16

/-- FMIN and FMAX on encodings (R159): an operand bit for bit, or the canonical NaN. -/
def minMaxEnc (F : Fmt) (least ftz : Bool) (a b : Nat) : Nat :=
  let a := ftzIn ftz a % 2 ^ F.width
  let b := ftzIn ftz b % 2 ^ F.width
  let x := decodeF F a
  let y := decodeF F b
  if x.isNaN && y.isNaN then F.qnan
  else if x.isNaN then b
  else if y.isNaN then a
  else if x.isZero && y.isZero then signed F (if least then x.neg || y.neg else x.neg && y.neg) 0
  else if (cmpFV x y == some .lt) == least then a else b

/-- FMIN, FMAX and DMNMX. -/
def minMaxF (types : List Nat) (opx : Nat) (least : Item → Bool) (it : Item) : State → Out :=
  let F := fmtOf it
  let t := vtOf it.ty
  fltOp it [t, t] t.pair (fltBads it types 0 true opx) fun s w r l =>
    minMaxEnc F (least it) (ftzOf it) (operand s w r it t .a l) (operand s w r it t .b l)

/-- HMNMX2: OPX[0] selects max. -/
def packedMinMax (it : Item) : State → Out :=
  let F := fmtOf it
  let t := VT.packed F
  fltOp it [t, t] false (fltBads it [0x0C, 0x0D] 0 false 1) fun s w r l =>
    let e := fun j => minMaxEnc F (!opx0 it) false (half (operand s w r it t .a l) j) (half (operand s w r it t .b l) j)
    e 0 + e 1 * 2 ^ 16

/-- The float compares of R160. -/
def compareF (cc : Nat) (x y : FV) : Bool :=
  match cmpFV x y with
  | none => cc == 1 || cc == 7
  | some o =>
    match cc with
    | 0 => o == .eq
    | 1 => o != .eq
    | 2 => o == .lt
    | 3 => o != .gt
    | 4 => o == .gt
    | 5 => o != .lt
    | 6 => true
    | _ => false

/-- FCMP and DCMP. -/
def floatCompare (types : List Nat) (ftz : Bool) (it : Item) : State → Out :=
  let F := fmtOf it
  let t := vtOf it.ty
  predOp false it [t, t]
    (opdBad (!types.contains it.ty) 5 it.ty ++ opdBad (it.mb 55 && !ftz) 6 1 ++ encBad (it.m 54 52 ≠ 0) 7 52)
    fun s w r l => compareF (it.m 58 56) (operandF s w r it F (ftzOf it) .a l) (operandF s w r it F (ftzOf it) .b l)

/-- The class bit of an encoding (Table 8.4). -/
def classBit (F : Fmt) (x : Nat) : Nat :=
  let x := x % 2 ^ F.width
  let neg := decide (F.signBit ≤ x)
  let a := x % F.signBit
  if F.infEnc < a then (if a / 2 ^ (F.mb - 1) % 2 = 1 then 9 else 8)
  else if a = F.infEnc then (if neg then 0 else 7)
  else if a = 0 then (if neg then 3 else 4)
  else if a < F.minNormal then (if neg then 2 else 5)
  else if neg then 1 else 6

/-- FCLASS; constants in b are unsigned 32-bit integers (DESIGN CHOICE, log entry 122). -/
def classOp (it : Item) : State → Out :=
  let F := fmtOf it
  let t := vtOf it.ty
  predOp false it [t, vtCount] (opdBad (!([0x0A, 0x0B, 0x0C, 0x0D] : List Nat).contains it.ty) 5 it.ty ++
    encBad (it.m 58 52 ≠ 0) 7 52) fun s w r l =>
    (operand s w r it vtCount .b l).testBit (classBit F (operand s w r it t .a l))

/-- FRND: the integral value by the mode, a zero keeping the operand's sign. -/
def frndOp (it : Item) : State → Out :=
  let F := fmtOf it
  let t := vtOf it.ty
  fltOp it [t] t.pair (fltBads it [0x0A, 0x0B] 3 true 0) fun s w r l =>
    match operandF s w r it F (ftzOf it) .a l with
    | .num sg m e => roundF F 0 0 false (ftzOf it) (ofInt (roundInt (rndOf it) sg m e) 0 sg)
    | x => roundF F 0 0 false false x

/-- FSCALE: a · 2^b; distances beyond every format's range act as 8000. -/
def fscaleOp (it : Item) : State → Out :=
  let F := fmtOf it
  let t := vtOf it.ty
  fltOp it [t, .int 32 true] t.pair (fltBads it [0x0A, 0x0B] 3 true 0) fun s w r l =>
    let k := max (-8000) (min 8000 (operandInt s w r it (.int 32 true) .b l))
    roundF F (rndOf it) 0 false (ftzOf it) (scaleFV k (operandF s w r it F (ftzOf it) .a l))

/-- FADD (R158). -/
def execFadd (f : Long) (s : State) : Out := scalarOp [0x0B] 2 addK (longItem 0x080 false f) s

/-- FADD.f32, short. -/
def execFaddShort (f : Short) (s : State) : Out := scalarOp [0x0B] 2 addK (shortItem 0x15 false 0x580 f) s

/-- FMUL (R158). -/
def execFmul (f : Long) (s : State) : Out := scalarOp [0x0B] 2 mulK (longItem 0x081 false f) s

/-- FMUL.f32, short. -/
def execFmulShort (f : Short) (s : State) : Out := scalarOp [0x0B] 2 mulK (shortItem 0x16 false 0x580 f) s

/-- FFMA (R158): one rounding. -/
def execFfma (f : Long) (s : State) : Out := scalarOp [0x0B] 3 fmaK (longItem 0x082 false f) s

/-- FMIN (R159). -/
def execFmin (f : Long) (s : State) : Out := minMaxF [0x0B] 0 (fun _ => true) (longItem 0x083 false f) s

/-- FMIN.f32, short. -/
def execFminShort (f : Short) (s : State) : Out := minMaxF [0x0B] 0 (fun _ => true) (shortItem 0x17 false 0x580 f) s

/-- FMAX (R159). -/
def execFmax (f : Long) (s : State) : Out := minMaxF [0x0B] 0 (fun _ => false) (longItem 0x084 false f) s

/-- FMAX.f32, short. -/
def execFmaxShort (f : Short) (s : State) : Out := minMaxF [0x0B] 0 (fun _ => false) (shortItem 0x18 false 0x580 f) s

/-- FCMP (R160). -/
def execFcmp (f : Long) (s : State) : Out := floatCompare [0x0B] true (longItem 0x085 false f) s

/-- FCLASS (R161). -/
def execFclass (f : Long) (s : State) : Out := classOp (longItem 0x086 false f) s

/-- FRND (R158). -/
def execFrnd (f : Long) (s : State) : Out := frndOp (longItem 0x087 false f) s

/-- FSCALE (R158). -/
def execFscale (f : Long) (s : State) : Out := fscaleOp (longItem 0x088 false f) s

/-- HADD2 (R162). -/
def execHadd2 (f : Long) (s : State) : Out := packedOp 2 addK (longItem 0x0A0 false f) s

/-- HADD2.f16, short. -/
def execHadd2F16Short (f : Short) (s : State) : Out := packedOp 2 addK (shortItem 0x1F false 0x600 f) s

/-- HADD2.bf16, short. -/
def execHadd2Bf16Short (f : Short) (s : State) : Out := packedOp 2 addK (shortItem 0x21 false 0x680 f) s

/-- HMUL2 (R162). -/
def execHmul2 (f : Long) (s : State) : Out := packedOp 2 mulK (longItem 0x0A1 false f) s

/-- HMUL2.f16, short. -/
def execHmul2F16Short (f : Short) (s : State) : Out := packedOp 2 mulK (shortItem 0x20 false 0x600 f) s

/-- HMUL2.bf16, short. -/
def execHmul2Bf16Short (f : Short) (s : State) : Out := packedOp 2 mulK (shortItem 0x22 false 0x680 f) s

/-- HFMA2 (R162): each element rounded once. -/
def execHfma2 (f : Long) (s : State) : Out := packedOp 3 fmaK (longItem 0x0A2 false f) s

/-- HMNMX2 (R159, R162). -/
def execHmnmx2 (f : Long) (s : State) : Out := packedMinMax (longItem 0x0A3 false f) s

/-- DADD (R162). -/
def execDadd (f : Long) (s : State) : Out := scalarOp [0x0A] 2 addK (longItem 0x0A4 false f) s

/-- DADD.f64, short. -/
def execDaddShort (f : Short) (s : State) : Out := scalarOp [0x0A] 2 addK (shortItem 0x23 false 0x500 f) s

/-- DMUL (R162). -/
def execDmul (f : Long) (s : State) : Out := scalarOp [0x0A] 2 mulK (longItem 0x0A5 false f) s

/-- DMUL.f64, short. -/
def execDmulShort (f : Short) (s : State) : Out := scalarOp [0x0A] 2 mulK (shortItem 0x24 false 0x500 f) s

/-- DFMA (R162). -/
def execDfma (f : Long) (s : State) : Out := scalarOp [0x0A] 3 fmaK (longItem 0x0A6 false f) s

/-- DCMP (R160). -/
def execDcmp (f : Long) (s : State) : Out := floatCompare [0x0A] false (longItem 0x0A7 false f) s

/-- DMNMX (R159, R162): OPX[0] selects max. -/
def execDmnmx (f : Long) (s : State) : Out := minMaxF [0x0A] 1 (fun it => !opx0 it) (longItem 0x0A8 false f) s

end Sys2Proof.Machine
end

