-- ==== Sys2Proof/Machine/Sfu.lean ====
section
/-! DEFINITION. The special functions of R166: RCP and SQRT rounded correctly, the others a value of the
implementation's choice within the bound of Table 8.8 (R167, DESIGN CHOICE, log entry 17), with the special values of Table 8.9. -/

namespace Sys2Proof.Machine

/-- Integer square root, bit by bit from bit `k` down. -/
def isqrtFrom : Nat → Nat → Nat → Nat
  | 0, n, r => if (r + 1) * (r + 1) ≤ n then r + 1 else r
  | k + 1, n, r =>
    let r' := r + 2 ^ (k + 1)
    isqrtFrom k n (if r' * r' ≤ n then r' else r)

/-- Integer square root. -/
def isqrt (n : Nat) : Nat := isqrtFrom (Nat.log2 n / 2 + 1) n 0

/-- A nonzero quotient of naturals times 2^e: 90 bits and whether bits were lost. -/
def quotient (m n : Nat) (e : Int) : Nat × Int × Bool :=
  let k := Nat.log2 n + 90
  (m * 2 ^ k / n, e - k, m * 2 ^ k % n != 0)

/-- RCP of R166. -/
def rcpF (F : Fmt) (mode : Nat) (ftz : Bool) (x : FV) : Nat :=
  match x with
  | .nan => F.qnan
  | .inf s => signed F s 0
  | .num s m e =>
    if m = 0 then signed F s F.infEnc
    else
      let (q, k, st) := quotient 1 m (-e)
      roundF F mode 0 false ftz (.num s q k) st

/-- √ of a nonzero dyadic to 80 bits: mantissa, exponent, whether bits were lost. -/
def sqrtParts (m : Nat) (e : Int) : Nat × Int × Bool :=
  let odd := e % 2 != 0
  let m1 := if odd then 2 * m else m
  let e1 := if odd then e - 1 else e
  let n := m1 * 2 ^ 160
  let r := isqrt n
  (r, e1 / 2 - 80, r * r != n)

/-- SQRT of R166 and Table 8.9. -/
def sqrtF (F : Fmt) (mode : Nat) (ftz : Bool) (x : FV) : Nat :=
  match x with
  | .nan => F.qnan
  | .inf s => if s then F.qnan else F.infEnc
  | .num s m e =>
    if m = 0 then signed F s 0
    else if s then F.qnan
    else
      let (q, k, st) := sqrtParts m e
      roundF F mode 0 false ftz (.num false q k) st

/-- The implementation's choice for function `fn` at operand bits `x` (R167). -/
def sfuPick (fn x n : Nat) : Nat := (Config.sfu fn (dw x)).toNat % n

/-- RSQ (Table 8.8: 1 ulp): one of the two encodings around the exact value, or that value's own. -/
def rsqF (F : Fmt) (ftz : Bool) (bits : Nat) (x : FV) : Nat :=
  match x with
  | .nan => F.qnan
  | .inf s => if s then F.qnan else 0
  | .num s m e =>
    if m = 0 then signed F s F.infEnc
    else if s then F.qnan
    else
      let (q, k, st) := sqrtParts m e
      let (q2, k2, st2) := quotient 1 q (-k)
      let n := roundF F 1 0 false ftz (.num false q2 k2)
      if st || st2 || roundF F 2 0 false ftz (.num false q2 k2) ≠ n then n + sfuPick 1 bits 2 else n

/-- ⌊π · 2^300⌋. -/
def piFix : Nat := 6399537258350533404498902296276095619968599404742382956244570183135712832137875919436931981
/-- ⌊ln 2 · 2^160⌋. -/
def ln2Fix : Nat := 1013035739299659071135698605846798551586536899366
/-- One in fixed point with 160 fraction bits. -/
def oneFix : Int := 2 ^ 160

/-- A Taylor tail: term, its index, and the running sum; each step multiplies the term by `num i` over `den i`. -/
def series (num : Int) (den : Nat → Int) : Nat → Nat → Int → Int → Int
  | 0, _, _, acc => acc
  | n + 1, i, t, acc =>
    let t' := t * num / oneFix / den i
    series num den n (i + 1) t' (acc + t')

/-- e^x for fixed-point x of magnitude below 1. -/
def expFix (x : Int) : Int := series x (fun i => i) 45 1 oneFix oneFix

/-- sin x for fixed-point x of magnitude below 7. -/
def sinFix (x : Int) : Int := series (-(x * x / oneFix)) (fun i => (2 * i) * (2 * i + 1)) 60 1 x x

/-- cos x for fixed-point x of magnitude below 7. -/
def cosFix (x : Int) : Int := series (-(x * x / oneFix)) (fun i => (2 * i - 1) * (2 * i)) 60 1 oneFix oneFix

/-- Sum of z^(2i+1)/(2i+1). -/
def atanhSum : Nat → Nat → Int → Int → Int → Int
  | 0, _, _, _, acc => acc
  | n + 1, i, z2, t, acc => atanhSum n (i + 1) z2 (t * z2 / oneFix) (acc + t / (2 * i + 1))

/-- ln x for fixed-point x in [1, 2]. -/
def lnFix (x : Int) : Int :=
  let z := (x - oneFix) * oneFix / (x + oneFix)
  2 * atanhSum 60 0 (z * z / oneFix) z 0

/-- A number in fixed point, toward zero. -/
def toFix (s : Bool) (m : Nat) (e : Int) : Int :=
  let v : Int := if -160 ≤ e then m * 2 ^ (e + 160).toNat else ((m / 2 ^ (-160 - e).toNat : Nat) : Int)
  if s then -v else v

/-- An FP32 encoding within 2 ulp of every positive value between lo · 2^e and hi · 2^e, the ulp of R166 taken at the lower
end (DESIGN CHOICE, log entry 17). -/
def within2 (ftz : Bool) (fn bits : Nat) (lo hi : Nat) (e : Int) : Nat :=
  let twoUlp := FV.num false 1 (max (flog lo e) f32.emin - 22)
  let top := roundF f32 1 0 false false (addFV 0 (.num false lo e) twoUlp)
  let bot := match addFV 0 (.num false hi e) twoUlp.flip with
    | .num false m k => roundF f32 2 0 false false (.num false m k)
    | _ => 0
  let y := bot + sfuPick fn bits (top - bot + 1)
  if ftz && y < f32.minNormal then 0 else y

/-- EX2 (Table 8.8: 2 ulp). An integer operand gives the power of two. -/
def ex2F (ftz : Bool) (bits : Nat) (x : FV) : Nat :=
  match x with
  | .nan => f32.qnan
  | .inf s => if s then 0 else f32.infEnc
  | .num s m e =>
    let n := roundInt 3 s m e
    if 128 ≤ n then f32.infEnc
    else if n < -151 then within2 ftz 2 bits 1 1 (-160)
    else if intFV n == .num s m e || cmpFV (intFV n) (.num s m e) = some .eq then
      roundF f32 0 0 false ftz (.num false 1 n)
    else
      let f := toFix s m e - n * oneFix
      let v := (expFix (f * (ln2Fix : Int) / oneFix)).toNat
      within2 ftz 2 bits (v - 2 ^ 20) (v + 2 ^ 20) (n - 160)

/-- FP32 encodings in the order of their values, −0 before +0. -/
def ordOf (y : Nat) : Int := if y < f32.signBit then y else (f32.signBit : Int) - y - 1

/-- The encoding at a place of that order. -/
def ofOrd (k : Int) : Nat := if 0 ≤ k then k.toNat else f32.signBit + (-k - 1).toNat

/-- An FP32 encoding within an absolute bound 2^−b of a fixed-point value of magnitude at most 2: any of them (DESIGN CHOICE, log
entry 17). -/
def withinAbs (ftz : Bool) (fn bits b : Nat) (v : Int) : Nat :=
  let span : Int := 2 ^ (160 - b) - 2 ^ 40
  let bot := ordOf (roundF f32 2 0 false false (ofInt (v - span) (-160) true))
  let top := ordOf (roundF f32 3 0 false false (ofInt (v + span) (-160) false))
  let y := ofOrd (bot + sfuPick fn bits (top - bot + 1).toNat)
  if ftz && y % f32.signBit < f32.minNormal then y / f32.signBit * f32.signBit else y

/-- LG2 (Table 8.8): absolute 2^−22 for operands in [0.5, 2], 2 ulp elsewhere. -/
def lg2F (ftz : Bool) (bits : Nat) (x : FV) : Nat :=
  match x with
  | .nan => f32.qnan
  | .inf s => if s then f32.qnan else f32.infEnc
  | .num s m e =>
    if m = 0 then signed f32 true f32.infEnc
    else if s then f32.qnan
    else
      let l := flog m e
      let frac := toFix false m (-(Nat.log2 m : Int))
      let v := l * oneFix + lnFix frac * oneFix / (ln2Fix : Int)
      if cmpFV x (intFV 1) = some .eq then 0
      else if cmpFV x (.num false 1 (-1)) ≠ some .lt && cmpFV x (intFV 2) ≠ some .gt then withinAbs ftz 3 bits 22 v
      else
        let a := v.natAbs
        let y := within2 ftz 3 bits (a - 2 ^ 20) (a + 2 ^ 20) (-160)
        if v < 0 then f32.signBit + y else y

/-- A number modulo 2π in fixed point. -/
def mod2pi (s : Bool) (m : Nat) (e : Int) : Int :=
  let v : Int := if -300 ≤ e then m * 2 ^ (e + 300).toNat else ((m / 2 ^ (-300 - e).toNat : Nat) : Int)
  let r := (if s then -v else v) % (2 * piFix : Nat)
  r / 2 ^ 140

/-- SIN and COS (Table 8.8: absolute 2^−21), by `isCos`. -/
def trigF (isCos ftz : Bool) (bits : Nat) (x : FV) : Nat :=
  match x with
  | .nan => f32.qnan
  | .inf _ => f32.qnan
  | .num s m e =>
    if m = 0 then (if isCos then 0x3F800000 else signed f32 s 0)
    else
      let a := mod2pi s m e
      withinAbs ftz (if isCos then 5 else 4) bits 21 (if isCos then cosFix a else sinFix a)

/-- TANH (Table 8.8: 2 ulp). -/
def tanhF (ftz : Bool) (bits : Nat) (x : FV) : Nat :=
  match x with
  | .nan => f32.qnan
  | .inf s => signed f32 s 0x3F800000
  | .num s m e =>
    if m = 0 then signed f32 s 0
    else
      let y :=
        if flog m e < -14 then within2 ftz 6 bits (m * 2 ^ 40 - m * 2 ^ 12) (m * 2 ^ 40) (e - 40)
        else if 5 ≤ flog m e then within2 ftz 6 bits (2 ^ 60 - 1) (2 ^ 60 - 1) (-60)
        else
          let y := 2 * toFix false m e * oneFix / (ln2Fix : Int)
          let n := y / oneFix
          let ex := expFix ((y - n * oneFix) * (ln2Fix : Int) / oneFix) * 2 ^ n.toNat
          let v := ((ex - oneFix) * oneFix / (ex + oneFix)).toNat
          within2 ftz 6 bits (v - 2 ^ 40) (v + 2 ^ 40) (-160)
      signed f32 s (min y 0x3F800000)

end Sys2Proof.Machine
end

