-- ==== Sys2Proof/Machine/Convert.lean ====
section
/-! DEFINITION. Conversions (R163 to R165) and special functions (R166). -/

namespace Sys2Proof.Machine

/-- Whether every value of `S` is a value of `D` (Table 8.6). -/
def widens (S D : Fmt) : Bool :=
  decide (S.mb ≤ D.mb) && decide (D.emin - D.mb ≤ S.emin - S.mb) &&
    cmpFV (decodeF S S.maxEnc) (decodeF D D.maxEnc) != some .gt

/-- An integer type code. -/
def isIntTy (t : Nat) : Bool := t < 8
/-- A floating type code. -/
def isFltTy (t : Nat) : Bool := 0x0A ≤ t && t ≤ 0x12

/-- The largest RND, whether NSAT and whether FTZ are accepted for a pair of types (Table 8.6). -/
def cvtLimits (d src : Nat) : Nat × Bool × Bool :=
  let some32 := d == 0x0B || src == 0x0B
  if isFltTy src && isFltTy d then
    if src = d then (0, false, d == 0x0B)
    else if widens ((fmtOfType src).getD f32) ((fmtOfType d).getD f32) then (0, false, some32)
    else (4, true, some32)
  else if isIntTy src && isFltTy d then (4, true, d == 0x0B)
  else if isFltTy src then (3, false, src == 0x0B)
  else (0, false, false)

/-- The result of a conversion (R163) from operand bits. Under .ftz an operand is flushed only where it is FP32: a subnormal
of a narrower source keeps its value (DESIGN CHOICE, log entry 121). -/
def cvtVal (d src mode rnd : Nat) (sat ftz : Bool) (x : Nat) : Nat :=
  let srcV : FV := match fmtOfType src with
    | some F => decodeF F (ftzIn (ftz && src == 0x0B) x)
    | none => intFV (if tySigned src then signedOf (tyWidth src) x else ((x % 2 ^ tyWidth src : Nat) : Int))
  match fmtOfType d with
  | some F => roundF F mode rnd sat ftz srcV
  | none =>
    let v := toIntF mode (tyWidth d) (tySigned d) srcV
    if tySigned d then wrapInt (max 32 (tyWidth d)) (signedOf (tyWidth d) v) else v

/-- CVT with its source type given: MOD of the convert layout; `bUse` says how field B is checked. A conversion of a type
to itself and one to a wider type never saturate (Table 8.6). -/
def cvtOp (src : Nat) (bUse : List Use) (more : List Bad) (it : Item) (s : State) : Out :=
  let d := it.ty
  let lim := cvtLimits d src
  let ok := fun t => isIntTy t || isFltTy t
  let spec : Spec :=
    { uses := [.src .a (vtOf src) accAny] ++ bUse ++ [.unused .c, .dstV (if (vtOf d).pair then 2 else 1)]
      bads := more ++ opdBad (!ok d) 5 d ++ opdBad (!ok src) 5 src ++ opdBad (lim.1 < rndOf it) 6 (rndOf it) ++
        opdBad (it.mb 54 && !lim.2.1) 6 1 ++ opdBad (ftzOf it && !lim.2.2) 6 1 ++ encBad (it.m 53 52 ≠ 0) 7 52
      capt := true }
  issue it (fun _ _ _ => spec) s fun s w r =>
    let s' := if rndOf it = 4 then { s with cur := bumpRctr w (activeLanes w r it) } else s
    vecResult s' r it (vtOf d).pair fun l =>
      cvtVal d src (rndOf it) (laneRandom s w l 0) (lim.2.1 && !it.mb 54) (ftzOf it) (operand s w r it (vtOf src) .a l)

/-- The long form of CVT: field B holds the source type in [4:0]. -/
def cvtLong (it : Item) : State → Out :=
  let b := it.code .b
  cvtOp (b % 32) [] (encBad (b / 32 ≠ 0) 7 35) it

/-- The tile of a lane: its first lane (R25). -/
def tileBase (r : Run) (lane : Nat) : Nat := lane / 2 ^ r.tsz.toNat * 2 ^ r.tsz.toNat

/-- Lanes of a tile. -/
def tileLanes (r : Run) (base : Nat) : List Nat := (List.range (2 ^ r.tsz.toNat)).map (base + ·)

/-- Elements per register and their spacing in bits for a narrow format (R91). -/
def packing (F : Fmt) : Nat × Nat := if F.width = 16 then (2, 16) else if F.width = 4 then (8, 4) else (4, 8)

/-- Packing of CVTP and CVTQ: the register of tile position `p` from the tile's elements (R164). -/
def packTile (k gap z p : Nat) (y : Nat → Nat) : Nat :=
  (List.range k).foldl (fun n t => if k * p + t < z then n + y (k * p + t) * 2 ^ (gap * t) else n) 0

/-- Emax of a format (R93): the exponent of its largest finite value. -/
def emaxF (F : Fmt) : Int :=
  match decodeF F F.maxEnc with
  | .num _ m e => flog m e
  | _ => 0

/-- CVTP (R164). -/
def cvtpOp (it : Item) (s : State) : Out :=
  let F := fmtOf it
  let mx := opx0 it
  let spec := fun (_ : State) (_ : Warp) (r : Run) =>
    ({ uses := [.src .a (.flt f32) accAny, .unused .b, .dstV 1] ++ (if mx then [.vgrp .c 1 1] else [])
       bads := opdBad (!(it.ty == 0x0C || it.ty == 0x0D || (0x0E ≤ it.ty && it.ty ≤ 0x12))) 5 it.ty ++
         opdBad (mx && (it.ty == 0x0C || it.ty == 0x0D)) 5 it.ty ++ opdBad (4 < rndOf it) 6 (rndOf it) ++
         opdBad (ftzOf it) 6 1 ++ encBad (it.mb 53) 7 53 ++ opdBad (!mx && it.code .c ≠ 0) 1 (it.code .c) ++
         opdBad (mx && r.tsz ≠ 5) 8 (2 ^ r.tsz.toNat)
       capt := true } : Spec)
  issue it spec s fun s w r =>
    let act := activeLanes w r it
    let z := 2 ^ r.tsz.toNat
    let x := fun l => if lon act l then decodeF f32 (operand s w r it (.flt f32) .a l) else .num false 0 0
    let sc := mxScale (emaxF F) ((lanesOf act).map x)
    let y := fun l =>
      let v := if mx then (match scaleExp sc with | none => FV.nan | some k => scaleFV (-k) (x l)) else x l
      roundF F (rndOf it) (laneRandom s w l 0) (!it.mb 54) false v
    let w1 := if rndOf it = 4 then bumpRctr w act else w
    let w1 := if mx then (lanesOf act).foldl (fun w l => vset w (it.code .c) l (w32 sc)) w1 else w1
    vecResult { s with cur := w1 } r it false fun l =>
      packTile (packing F).1 (packing F).2 z (l % z) fun t => y (tileBase r l + t)

/-- Entry `i` of the codebook that eight registers hold in a lane (R165). -/
def regCodebook (w : Warp) (code lane : Nat) : List FV :=
  (List.range 16).map fun i =>
    let x := if code < 0x100 then vget w (code + i / 2) lane else sget w (code - 0x100 + i / 2)
    decodeF bf16 (half x.toNat (i % 2))

/-- Whether field B names s registers. -/
def cvtqS (b : Nat) : Bool := 0x100 ≤ b && b < 0x180

/-- CVTQ (R165). -/
def cvtqOp (it : Item) (s : State) : Out :=
  let b := it.code .b
  let spec := fun (s : State) (w : Warp) (_ : Run) =>
    ({ uses := [.src .a (.flt f32) accAny, .unused .c, .dstV 1] ++ (if cvtqS b then [] else [.vgrp .b 8 8])
       bads := opdBad (it.ty ≠ 0x13) 5 it.ty ++ opdBad (rndOf it ≠ 0) 6 (rndOf it) ++ opdBad (ftzOf it) 6 1 ++
         opdBad (it.mb 54) 6 1 ++ encBad (it.mb 53) 7 53 ++
         (if cvtqS b then regBads (b - 0x100) 8 8 (slim s w) b else [])
       extra := if cvtqS b then (List.range 8).map fun j => (1, b - 0x100 + j) else []
       capt := true } : Spec)
  issue it spec s fun s w r =>
    let act := activeLanes w r it
    let z := 2 ^ r.tsz.toNat
    let idx := fun l =>
      if lon act l then cbIndex (regCodebook w b l) (decodeF f32 (operand s w r it (.flt f32) .a l)) else 0
    vecResult s r it false fun l =>
      if opx0 it then idx l else packTile 8 4 z (l % z) fun t => idx (tileBase r l + t)

/-- A special function (R166): format, mode, FTZ, operand bits and value give the result. -/
def sfuOp (types : List Nat) (rnd : Nat) (g : Fmt → Nat → Bool → Nat → FV → Nat) (it : Item) : State → Out :=
  let F := fmtOf it
  let t := vtOf it.ty
  fltOp it [t] t.pair (fltBads it types rnd true 0) fun s w r l =>
    let x := ftzIn (ftzOf it) (operand s w r it t .a l)
    g F (rndOf it) (ftzOf it) x (decodeF F x)

/-- CVT (R163). -/
def execCvt (f : Long) (s : State) : Out := cvtLong (longItem 0x0C0 false f) s

/-- CVT.F32.I32, short. -/
def execCvtF32I32Short (f : Short) (s : State) : Out := cvtOp 0x02 [.unused .b] [] (shortItem 0x25 false 0x580 f) s

/-- CVT.I32.F32, short. -/
def execCvtI32F32Short (f : Short) (s : State) : Out := cvtOp 0x0B [.unused .b] [] (shortItem 0x26 false 0x110 f) s

/-- CVT.BF16.F32, short. -/
def execCvtBf16F32Short (f : Short) (s : State) : Out := cvtOp 0x0B [.unused .b] [] (shortItem 0x27 false 0x680 f) s

/-- CVT.F32.BF16, short. -/
def execCvtF32Bf16Short (f : Short) (s : State) : Out := cvtOp 0x0D [.unused .b] [] (shortItem 0x28 false 0x580 f) s

/-- CVTP (R164). -/
def execCvtp (f : Long) (s : State) : Out := cvtpOp (longItem 0x0C1 false f) s

/-- CVTQ (R165). -/
def execCvtq (f : Long) (s : State) : Out := cvtqOp (longItem 0x0C2 false f) s

/-- RCP (R166). -/
def execRcp (f : Long) (s : State) : Out := sfuOp [0x0A, 0x0B] 3 (fun F m z _ x => rcpF F m z x) (longItem 0x0C3 false f) s

/-- RCP.f32, short. -/
def execRcpShort (f : Short) (s : State) : Out := sfuOp [0x0A, 0x0B] 3 (fun F m z _ x => rcpF F m z x) (shortItem 0x19 false 0x580 f) s

/-- RSQ (R166). -/
def execRsq (f : Long) (s : State) : Out := sfuOp [0x0A, 0x0B] 0 (fun F _ z b x => rsqF F z b x) (longItem 0x0C4 false f) s

/-- RSQ.f32, short. -/
def execRsqShort (f : Short) (s : State) : Out := sfuOp [0x0A, 0x0B] 0 (fun F _ z b x => rsqF F z b x) (shortItem 0x1A false 0x580 f) s

/-- SQRT (R166). -/
def execSqrt (f : Long) (s : State) : Out := sfuOp [0x0A, 0x0B] 3 (fun F m z _ x => sqrtF F m z x) (longItem 0x0C5 false f) s

/-- SQRT.f32, short. -/
def execSqrtShort (f : Short) (s : State) : Out := sfuOp [0x0A, 0x0B] 3 (fun F m z _ x => sqrtF F m z x) (shortItem 0x1B false 0x580 f) s

/-- EX2 (R166). -/
def execEx2 (f : Long) (s : State) : Out := sfuOp [0x0B] 0 (fun _ _ z b x => ex2F z b x) (longItem 0x0C6 false f) s

/-- EX2.f32, short. -/
def execEx2Short (f : Short) (s : State) : Out := sfuOp [0x0B] 0 (fun _ _ z b x => ex2F z b x) (shortItem 0x1C false 0x580 f) s

/-- LG2 (R166). -/
def execLg2 (f : Long) (s : State) : Out := sfuOp [0x0B] 0 (fun _ _ z b x => lg2F z b x) (longItem 0x0C7 false f) s

/-- LG2.f32, short. -/
def execLg2Short (f : Short) (s : State) : Out := sfuOp [0x0B] 0 (fun _ _ z b x => lg2F z b x) (shortItem 0x1D false 0x580 f) s

/-- SIN (R166). -/
def execSin (f : Long) (s : State) : Out := sfuOp [0x0B] 0 (fun _ _ z b x => trigF false z b x) (longItem 0x0C8 false f) s

/-- COS (R166). -/
def execCos (f : Long) (s : State) : Out := sfuOp [0x0B] 0 (fun _ _ z b x => trigF true z b x) (longItem 0x0C9 false f) s

/-- TANH (R166). -/
def execTanh (f : Long) (s : State) : Out := sfuOp [0x0B] 0 (fun _ _ z b x => tanhF z b x) (longItem 0x0CA false f) s

/-- TANH.f32, short. -/
def execTanhShort (f : Short) (s : State) : Out := sfuOp [0x0B] 0 (fun _ _ z b x => tanhF z b x) (shortItem 0x1E false 0x580 f) s

end Sys2Proof.Machine
end

