-- ==== Sys2Proof/Machine/PoolMem.lean ====
section
/-! DEFINITION. Pool memory: where an address leads (R32, R49), owner bits (R51, R53), poison (R382), bytes at the target
core (R50, R78), the checks of a per-lane access (R176), data watches (R316) and ApplyGroup (R178). -/

namespace Sys2Proof.Machine

/-- Key of a pool byte. -/
def poolKey (core off : Nat) : Nat := 2 ^ 19 * core + off

/-- Pool bytes of a core (DESIGN CHOICE, log entry 4). -/
def poolBytes (s : State) (core off n : Nat) : List Byte := ngetRange 0 s.pool (poolKey core off) n

/-- Pool bytes as a little-endian number. -/
def poolNat (s : State) (core off n : Nat) : Nat := ofBytes (poolBytes s core off n)

/-- Storing bytes in a core's pool; a whole 8-byte word stored clears its poison (R382). -/
def poolStore (s : State) (core off : Nat) (bs : List Byte) : State :=
  let k := poolKey core off
  let whole := (List.range (bs.length / 8 + 2)).filter fun j =>
    decide (k ≤ 8 * (k / 8 + j)) && decide (8 * (k / 8 + j) + 8 ≤ k + bs.length)
  { s with
    pool := nsetRange 0 s.pool k bs
    poolPoison := whole.foldl (fun m j => nset false m (k / 8 + j) false) s.poolPoison }

/-- Whether any byte of a range lies in a poisoned pool word. -/
def poolPoisoned (s : State) (core off n : Nat) : Bool :=
  (List.range n).any fun j => nget false s.poolPoison ((poolKey core off + j) / 8)

/-- Marking the words that a range meets as poisoned. -/
def poisonPool (s : State) (core off n : Nat) : State :=
  let k := poolKey core off
  { s with poolPoison := (List.range n).foldl (fun m j => nset false m ((k + j) / 8) true) s.poolPoison }

/-- Count of engine commands that hold a tile (R51). -/
def tileCount (s : State) (core tile : Nat) : Nat := nget 0 s.tiles (512 * core + tile)

/-- Setting a tile's count. -/
def tileSet (s : State) (core tile n : Nat) : State := { s with tiles := nset 0 s.tiles (512 * core + tile) n }

/-- Tiles that [off, off + n) meets. -/
def tilesOf (off n : Nat) : List Nat :=
  if n = 0 then [] else (List.range ((off + n - 1) / 1024 + 1 - off / 1024)).map (off / 1024 + ·)

/-- Core that a member index names (R32): 14 is the executing core. -/
def memberCore (s : State) (w : Warp) (m : Nat) : Option Nat :=
  if m = 14 then some w.core
  else if m = 12 ∨ m = 13 ∨ m = 15 then none
  else (clusterOf s w).bind fun c => c.cores[m]?

/-- A pool address and its width: core and offset, or the pool-bounds subcode in the order of R49 (DEDUCED, log entry 39). -/
def poolAt (s : State) (w : Warp) (a n : Nat) : Except Nat (Nat × Nat) :=
  let o := bitsN a 19 0
  if bitsN a 31 24 ≠ 0 then .error 5
  else
    match memberCore s w (bitsN a 23 20) with
    | none => .error 3
    | some core =>
      if Config.poolBytes < o + n then .error 2
      else
        let lo := ((clusterOf s w).map (·.pbase)).getD 0
        let hi := ((clusterOf s w).map (·.plim)).getD 0
        if o < lo || hi < o + n then .error 1 else .ok (core, o)

/-- A failing check of R176: cause, INFO0, ADDR, ASP. -/
structure LaneBad where
  cause : Nat
  info0 : Nat
  addr : DWord
  asp : Nat
  deriving DecidableEq, Repr

/-- The first failing check in the lowest-numbered failing lane (R176). -/
def firstLane (lanes : List Nat) (f : Nat → Option LaneBad) : Option (Nat × LaneBad) :=
  lanes.findSome? fun l => (f l).map fun b => (l, b)

/-- The precise fault of a lane's failing check; the causes of Table 23.2 use no AUX (R347). -/
def laneFault (s : State) (r : Run) (it : Item) (l : Nat) (b : LaneBad) : State :=
  preciseFault s r { cause := b.cause, addr := b.addr, asp := b.asp, info0 := b.info0, info1 := l,
                     aux := if 0x80 ≤ b.cause then 0 else it.raw }

/-- The same for an instruction that acts once for its group: INFO1 is its lowest lane for the causes of which Table 20.1 and
Table 23.2 say so, and 0 for the others (R366). -/
def onceFault (s : State) (r : Run) (it : Item) (b : LaneBad) : State :=
  laneFault s r it (if b.cause = 0x05 || b.cause = 0x06 || b.cause = 0x81 then lowLane r.grp else 0) b

/-- The engine-owned tile that a pool range meets, by its count (R53). -/
def ownedTile (s : State) (core off n : Nat) : Option Nat :=
  (tilesOf off n).findSome? fun t => if tileCount s core t = 0 then none else some (tileCount s core t)

/-- Checks 3 to 5 of R176 on a pool access: alignment, bounds and member, owner bits where `owner`. -/
def poolCheck (s : State) (w : Warp) (a n align : Nat) (owner : Bool) : Option LaneBad :=
  if a % align ≠ 0 then some ⟨0x06, Nat.log2 align, dw a, 2⟩
  else
    match poolAt s w a n with
    | .error k => some ⟨0x20, k, dw a, 2⟩
    | .ok (core, o) => if owner then (ownedTile s core o n).map fun k => ⟨0x21, k, dw a, 2⟩ else none

/-- The check of a pool access that reads: a poisoned word stops it (R382, cause 0x81). -/
def poolReadCheck (s : State) (w : Warp) (a n align : Nat) : Option LaneBad :=
  (poolCheck s w a n align true).or <|
    match poolAt s w a n with
    | .ok (core, o) => if poolPoisoned s core o n then some ⟨0x81, 0, dw a, 2⟩ else none
    | .error _ => none

/-- Core and offset of a pool address that has passed its checks. -/
def poolLoc (s : State) (w : Warp) (a n : Nat) : Nat × Nat :=
  match poolAt s w a n with
  | .ok p => p
  | .error _ => (w.core, 0)

/-- The cores that the lanes' pool addresses lead to. -/
def poolCores (s : State) (w : Warp) (lanes : List Nat) (addr : Nat → Nat) (n : Nat) : List Nat :=
  (lanes.map fun l => (poolLoc s w (addr l) n).1).eraseDups

/-- The clause of an access that is delivered: it travels no more. -/
def Run.arrived (r : Run) : Run := { r with transit := false, struck := false }

/-- Whether an access of the core that is under way leads to one of these cores. -/
def Warp.bound (x : Warp) (core : Nat) (cores : List Nat) : Bool :=
  x.core == core && match x.run with
    | some r => r.transit && r.targets.any cores.contains
    | none => false

/-- Whether an access to the pools of `cores` travels over the Causeway: it leads to another core, or it follows one of its core that
leads to this pool too (R50). -/
def goesOut (s : State) (w : Warp) (cores : List Nat) : Bool :=
  (cores.any fun c => c != w.core) || (cores.contains w.core && s.warps.any fun x => x.bound w.core [w.core])

/-- Sending an access over the Causeway: an access to another member's pool is performed when it is delivered there
(R50); until then the clause holds its slot (DEDUCED, log entry 20). `met` says that a data watch has matched it (R316). -/
def overCauseway (atTarget : Bool) (cores : List Nat) (s : State) (r : Run) (perform : Unit → State) (met : Bool := false) : State :=
  if !atTarget && goesOut s s.cur cores then
    { s with
      cur := { s.cur with run := some { r with transit := true, targets := cores, stamp := s.fresh, met := met } }
      fresh := s.fresh + 1 }
  else perform ()

/-- A pool access that has met an uncorrected error on the Causeway reads a poisoned word in its lowest lane (R381, R382, DESIGN CHOICE,
log entry 145). -/
def struckBad (r : Run) (l low : Nat) (a : Nat) : Option LaneBad := if r.struck && l == low then some ⟨0x81, 0, dw a, 2⟩ else none

/-- What a lane's next acquire behind signals `gs` takes with it, whatever boundary it is (Table 4.4). -/
def Warp.meets (w : Warp) (lane : Nat) (gs : List Sig) : Warp :=
  { w with obsAny := raiseViews [lane] (fun l sc => sigsView sc (laneSig w l) gs) w.obsAny }

/-- Whether a data watch matches an access: judged at issue, also for one that is performed at its target (R316). -/
def watchMet (atTarget : Bool) (r : Run) (now : Bool) : Bool := if atTarget then r.met else now

/-- Accesses of lanes have performed on tiles: engine commands' releases of these are signals that they observe (Table 4.4, R79). -/
def metTiles (s : State) (lanes : List Nat) (loc : Nat → Nat × Nat) (n : Nat) (w : Warp) : Warp :=
  lanes.foldl (fun w l => w.meets l ((tilesOf (loc l).2 n).flatMap fun t => nget [] s.tileSigs (512 * (loc l).1 + t))) w

/-- An enabled data watch of the core that the debug-enabled lanes' accesses meet (R316): `space` 1 for the pool. -/
def dataWatch (s : State) (w : Warp) (lanes : List Nat) (space : Bool) (rd wr : Bool) (addr : Nat → Nat) (n : Nat) : Bool :=
  let ls := lanes.filter (lon w.dbg)
  fld (coreReg s w.core 0x40 0) 3 0 == tenantOf s w && (List.range 4).any fun k =>
    let lim := coreReg s w.core 0x43 k
    let base := fld (coreReg s w.core 0x42 k) 59 0
    fbit lim 63 && fbit lim 60 == space && ((rd && fbit lim 62) || (wr && fbit lim 61)) &&
      ls.any fun l => decide (base < addr l + n) && decide (addr l ≤ fld lim 59 0)

/-- The operand forms of a per-lane access (R175): no special register. -/
def accMem : Accept := { sr := false }

/-- Checks of the memory MOD layout (Table 9.1): allowed types, and which of X's bits are zero. -/
def memBads (it : Item) (types : List Nat) (dc : Bool) (zeroHi zeroLo : Nat) : List Bad :=
  encBad (it.m 63 61 ≠ 0 && !dc) 7 61 ++ encBad (dc && it.m 63 61 = 7) 7 61 ++
  encBad (zeroLo ≤ zeroHi && it.m zeroHi zeroLo ≠ 0) 7 zeroLo ++ opdBad (!types.contains (it.m 60 56)) 5 (it.m 60 56)

/-- TYPE of the memory layout. -/
def Item.mty (it : Item) : Nat := it.m 60 56

/-- Bytes of a type code. -/
def tyBytes (t : Nat) : Nat := (vtOf t).width / 8

/-- Bytes of an LDS, STS or STG: sixteen with Q. -/
def accBytes (it : Item) (q : Bool) : Nat := if q then 16 else tyBytes it.mty

/-- Registers that `n` bytes occupy. -/
def regsOf (n : Nat) : Nat := (n + 3) / 4

/-- Extending a loaded value to its registers by the type's signedness (R175). -/
def loadExt (t n x : Nat) : Nat := if t < 2 then wrapInt 32 (signedOf (8 * n) x) else x

/-- Writing `k` consecutive v registers of a lane from a number. -/
def vputRegs (w : Warp) (r lane : Nat) : Nat → Nat → Warp
  | 0, _ => w
  | k + 1, x => vputRegs (vset w r lane (w32 x)) (r + 1) lane k (x / 2 ^ 32)

/-- `k` consecutive v registers of a lane as a number. -/
def vregsNat (w : Warp) (r lane : Nat) : Nat → Nat
  | 0 => 0
  | k + 1 => (vget w r lane).toNat + 2 ^ 32 * vregsNat w (r + 1) lane k

/-! Atomic operations. -/

/-- Types of an operation (Table 9.4); none for a reserved code. -/
def atomTypes (op : Nat) : Option (List Nat) :=
  match op with
  | 0 | 1 | 2 => some [2, 6, 3, 7, 0x0B, 0x0A]
  | 3 | 4 | 5 | 6 | 7 => some [8, 9]
  | 8 | 9 => some [6, 7]
  | _ => none

/-- Checks of an atomic's OP and TYPE; a reduction has no exch or cas. -/
def atomBads (it : Item) (red dc : Bool) : List Bad :=
  let op := it.m 55 52
  encBad (it.m 63 61 ≠ 0 && !dc) 7 61 ++ encBad (dc && it.m 63 61 = 7) 7 61 ++
  opdBad ((atomTypes op).isNone || (red && (op = 6 || op = 7))) 6 op ++
  opdBad (!(((atomTypes op).getD [it.mty]).contains it.mty)) 5 it.mty

/-- NewValue of Table 9.4 on `w`-bit patterns. -/
def newValue (op ty m x e : Nat) : Nat :=
  let w := tyWidth ty
  let v := fun n => if tySigned ty then signedOf w n else (n : Int)
  match op with
  | 0 => (m + x) % 2 ^ w
  | 1 => (match fmtOfType ty with | some F => minMaxEnc F true false m x | none => if v m ≤ v x then m else x)
  | 2 => (match fmtOfType ty with | some F => minMaxEnc F false false m x | none => if v m ≤ v x then x else m)
  | 3 => m &&& x
  | 4 => m ||| x
  | 5 => m ^^^ x
  | 6 => x
  | 7 => if m = e then x else m
  | 8 => if x ≤ m then 0 else (m + 1) % 2 ^ w
  | _ => if m = 0 ∨ x < m then x else m - 1

/-- ApplyGroup of R178: the new memory value and each lane's old value. -/
def applyGroup (op ty m : Nat) (ls : List AtomLane) : Nat × List (Nat × Nat) :=
  match op, fmtOfType ty with
  | 0, some F =>
    let part := fun k => roundF F 0 0 false false (sumFV 0 (decodeF F m :: (ls.take k).map fun l => decodeF F l.x.toNat))
    (part ls.length, (List.range ls.length).zipWith (fun k l => (l.lane, if k = 0 then m else part k)) ls)
  | _, _ =>
    ls.foldl (fun acc l => (newValue op ty acc.1 (l.x.toNat % 2 ^ tyWidth ty) l.e.toNat, acc.2 ++ [(l.lane, acc.1)])) (m, [])

/-- The distinct values of a function over lanes, in the order of the lanes. -/
def distinct (lanes : List Nat) (f : Nat → Nat) : List Nat := (lanes.map f).eraseDups

/-- Lane operands of an atomic: x in c, and for cas the value d holds. -/
def atomLane (s : State) (w : Warp) (r : Run) (it : Item) (l : Nat) : AtomLane :=
  let t := vtOf it.mty
  ⟨l, dw (operand s w r it t .c l), if it.m 55 52 = 7 then dw (vnat w t.pair it.d l) else 0⟩

end Sys2Proof.Machine
end

