-- ==== Sys2Proof/Machine/Barrier.lean ====
section
/-! DEFINITION. Barrier objects (R233 to R240), phase boundaries (R73), lanes that park and return (R38), and the return from a
trap (R313, R314). -/

namespace Sys2Proof.Machine

/-! Acquires and parked lanes. -/

/-- The lanes begin a new phase, which `v` happens before too (R73 step 4). -/
def acquire (v : Past) (lanes : Lanes) (w : Warp) : Warp :=
  { w with phase := (lanesOf lanes).foldl (fun m l => nset [] m l (joinView (nget [] m l) v)) w.phase }

/-- What an acquire of lanes at a scope takes with it: from the signals given, and from the released tiles and
write sets the lanes have met; a FENCE also from what their atomics have read (Table 4.4, R85). The boundary is one event of the whole
group (DEDUCED, log entry 12). -/
def acquireView (sc : Nat) (fence : Bool) (gs : List Sig) (lanes : Lanes) (w : Warp) : Past :=
  (lanesOf lanes).foldl (fun m l =>
    let v := joinView (sigsView sc (laneSig w l) gs) (nget [] w.obsAny (8 * l + sc))
    joinView m (if fence then joinView v (nget [] w.obs (8 * l + sc)) else v)) []

/-- An acquiring boundary at a scope. -/
def acquireAt (sc : Nat) (fence : Bool) (gs : List Sig) (lanes : Lanes) (w : Warp) : Warp :=
  acquire (acquireView sc fence gs lanes w) lanes w

/-- Changing every warp. -/
def mapWarps (s : State) (f : Warp → Warp) : State := { s with cur := f s.cur, warps := s.warps.map f }

/-- A parked lane goes on: its status register is written where it has one, it stands past the clause, and begins a new phase. -/
def returnLane (w : Warp) (lane : Nat) (p : Park) (status : Option Word) (v : Past) : Warp :=
  let w := { w with park := nset none w.park lane none, pc := nset 0 w.pc lane p.ft }
  let w := match status with
    | some x => vset w p.dst lane x
    | none => w
  acquire (joinView v (nget [] w.obsAny (8 * lane + p.scope))) (1#32 <<< lane) w

/-- The answer to a parked lane's wait, which acquires `v` at the wait's scope: the lane returns, or the answer is
kept while a trap stops lanes of its warp (R311). -/
def unpark (v : Past) (w : Warp) (lane : Nat) (status : Option Word) : Warp :=
  match nget none w.park lane with
  | none => w
  | some p =>
    if p.ans.isSome then w
    else if w.trap.isSome then { w with park := nset none w.park lane (some { p with ans := some (status, v) }) }
    else returnLane w lane p status v

/-- Parking lanes of the focused warp at the end of their clause. -/
def parkLanes (s : State) (lanes : Lanes) (p : Nat → Park) : State :=
  onCur s fun w => { w with park := (lanesOf lanes).foldl (fun m l => nset none m l (some (p l))) w.park }

/-! The return from a trap. -/

/-- The answers kept for parked lanes while the warp was stopped (R311) are delivered. -/
def deliverKept (w : Warp) : Warp :=
  (List.range 32).foldl (fun w l =>
    match nget none w.park l with
    | some p => (match p.ans with | some (st, o) => returnLane w l p st o | none => w)
    | none => w) w

/-- Resuming the lanes a trap stopped and held (R313): lanes that a handler moved leave the clause, the others go on
from the recorded slot with their latches. The lanes acquire the handler's writes
(R314), and answers kept for parked lanes are delivered. -/
def resumeTrap (s : State) (w : Warp) : State :=
  match w.trap with
  | none => s
  | some t =>
    let stay := match t.run with
      | some r => r.grp &&& ~~~ t.moved &&& w.live
      | none => 0
    let run := match t.run with
      | some r => if stay = 0 then none else some { r with grp := stay, begun := 0 }
      | none => none
    let w := deliverKept (acquire (allBefore s) ((t.stopped ||| t.held) &&& w.live) { w with trap := none, run := run })
    let back := s.cur.uid
    let s := focus (putWarp s w) w.uid
    let s := match run with
      | some r => if r.body.isEmpty then boundaryStops (endClause s r fun _ => dw (fallThrough r)) else s
      | none => boundaryStops s
    focus s back

/-! Objects. -/

/-- An object's words (Table 11.1). -/
def barRead (s : State) (core off : Nat) : DWord × DWord := (dw (poolNat s core off 8), dw (poolNat s core (off + 8) 8))

/-- Storing an object's words. -/
def barWrite (s : State) (core off : Nat) (w0 w1 : DWord) : State :=
  poolStore s core off (bytesOf 8 w0.toNat ++ bytesOf 8 w1.toNat)

/-- PHASE. -/
def barPhase (w0 : DWord) : Nat := fld w0 63 48
/-- EXPA. -/
def barExpa (w0 : DWord) : Nat := fld w0 47 34
/-- ARR. -/
def barArr (w0 : DWord) : Nat := fld w0 33 20
/-- PDELTA. -/
def barPdelta (w0 : DWord) : Int := signedOf 15 (fld w0 19 5)
/-- V. -/
def barV (w0 : DWord) : Bool := fbit w0 4
/-- ERR. -/
def barErr (w0 : DWord) : Bool := fbit w0 3
/-- SCOPE. -/
def barScope (w0 : DWord) : Nat := fld w0 2 0
/-- LANDB. -/
def barLandb (w1 : DWord) : Nat := fld w1 31 0
/-- EXPB. -/
def barExpb (w1 : DWord) : Nat := fld w1 63 32

/-- A cluster: launch and number. -/
structure CluKey where
  ctx : Nat
  clu : Nat
  deriving DecidableEq, Repr

/-- The cluster of a warp. -/
def Warp.key (w : Warp) : CluKey := ⟨w.ctx, w.clu⟩

/-- The pool address of an offset on a core: member and offset. -/
def memberAddr (s : State) (k : CluKey) (core off : Nat) : DWord :=
  dw (((findCluster s k.ctx k.clu).map fun c => memberOf c core).getD 0 * 2 ^ 20 + off)

/-- Appending a record about an object of a cluster, naming no warp. -/
def barReport (s : State) (k : CluKey) (core off : Nat) (rep : Report) : State :=
  let c := findCtx s k.ctx
  reportBare s ((c.map (·.tenant)).getD 0) ((c.map (·.queue)).getD 0)
    { rep with addr := memberAddr s k core off, asp := 2, defd := true }

/-- Whether a token is complete in a phase (R240). -/
def tokenDone (phase tok : Nat) : Bool :=
  let d := (phase + 2 ^ 16 - tok % 2 ^ 16) % 2 ^ 16
  1 ≤ d && d ≤ 32767

/-- Key of the signals of an object's phase. -/
def barKey (core off phase : Nat) : Nat := 65536 * poolKey core off + phase % 65536

/-- The signals of a phase: its arrivals and its credits (Table 4.4). -/
def phaseSigs (s : State) (core off phase : Nat) : List Sig := nget [] s.barSigs (barKey core off phase)

/-- Further signals of the phase under way. -/
def addPhaseSigs (s : State) (core off phase : Nat) (gs : List Sig) : State :=
  { s with barSigs := nset [] s.barSigs (barKey core off phase) (phaseSigs s core off phase ++ gs).eraseDups }

/-- Waking the WAITP lanes of a warp that wait on an object and whose token is now complete. -/
def wakeTokens (s : State) (core off phase : Nat) (w : Warp) : Warp :=
  (List.range 32).foldl (fun w' l =>
    match nget none w.park l with
    | some p =>
      match p.wait with
      | .token a tok =>
        if poolLoc s w a.toNat 16 = (core, off) ∧ tokenDone phase tok.toNat then
          unpark (sigsView p.scope (laneSig w l) (phaseSigs s core off tok.toNat)) w' l (some (w32 (phase * 2 ^ 16)))
        else w'
      | _ => w'
    | none => w') w

/-- FlipCheck (R235), with ReportOverrun (R369) and ReportCount (R389). -/
def flipCheck (s : State) (k : CluKey) (core off : Nat) : State :=
  let (w0, w1) := barRead s core off
  if !barV w0 || barArr w0 ≠ barExpa w0 then s
  else if barExpb w1 < barLandb w1 then
    let s := barWrite s core off (putFld w0 3 3 1) w1
    if barErr w0 then s
    else barReport s k core off { cause := 0x29, sev := 2, info0 := barExpb w1, aux := dw (barLandb w1 * 2 ^ 32 + barPhase w0) }
  else if barLandb w1 ≠ barExpb w1 then s
  else
    let n : Int := barExpa w0 + barPdelta w0
    let bad := decide (n < 0) || decide (16383 < n)
    let phase := (barPhase w0 + 1) % 2 ^ 16
    let w0' := putFld (putFld (putFld (putFld w0 63 48 phase) 47 34 (max 0 (min 16383 n)).toNat) 33 20 0) 19 5 0
    let w0' := if bad then putFld w0' 3 3 1 else w0'
    let s := barWrite s core off w0' 0
    let s := mapWarps s (wakeTokens s core off phase)
    let s := { s with barSigs := nset [] s.barSigs (barKey core off phase) [] }
    if bad && !barErr w0 then
      barReport s k core off { cause := 0x61, sev := 2, info0 := wrapInt 30 n, info1 := phase, aux := w0' }
    else s

/-- A byte credit performed at the object (R190, R234). -/
def creditBar (s : State) (k : CluKey) (core off bytes : Nat) (gs : List Sig) : State :=
  let (w0, w1) := barRead s core off
  let s := addPhaseSigs s core off (barPhase w0) gs
  flipCheck (barWrite s core off w0 (putFld w1 31 0 (barLandb w1 + bytes))) k core off

/-! Phase boundaries. -/

/-- R73 step 1: atomics of the group's threads that have not yet performed, or an access parked in the warp's operand log. -/
def outstanding (s : State) (w : Warp) (grp : Lanes) : Bool :=
  (s.reqs.any fun q => q.warp == w.uid && q.groups.any fun g => g.lanes.any fun l => lon grp l.lane) || !w.olog.isEmpty

/-- Release boundaries of lanes at some scopes have taken effect, at order number `n`: what happened before each lane's phase and what
its thread has done happen before them, and `v` (R76). -/
def releasedWith (v : Past) (lanes : Lanes) (scs : List Nat) (n : Nat) (w : Warp) : Warp :=
  { w with rel := (lanesOf lanes).foldl (fun m l => scs.foldl (fun m sc =>
      nset [] m (8 * l + sc) (joinView (nset 0 (nget [] w.phase l) (laneAgent w l) n) v)) m) w.rel }

/-- The same with nothing more. -/
def released (lanes : Lanes) (scs : List Nat) (n : Nat) (w : Warp) : Warp := releasedWith [] lanes scs n w

/-- Steps 1 to 3 of R73 for the running instruction at some scopes, then its effect. The clause holds its slot meanwhile. -/
def boundary (s : State) (w : Warp) (r : Run) (scs : List Nat) (k : State → Run → State) : State :=
  let lvl := (scs.map (scopeLevel s w)).foldl max 0
  let done := fun (s : State) => onCur s (released r.grp scs s.order)
  match r.bnd with
  | some l => if r.released || !waitingEntries s w.core l then k (done s) { r with bnd := none, released := false } else s
  | none =>
    if outstanding s w r.grp then s
    else
      let s' := raiseEntries s w.core lvl
      if waitingEntries s' w.core lvl then { s' with cur := { s'.cur with run := some { r with bnd := some lvl } } }
      else k (done s') r

end Sys2Proof.Machine
end

