-- ==== Sys2Proof/Machine/GlobalMem.lean ====
section
/-! DEFINITION. Per-lane accesses of global memory: canonical and aligned addresses (R46, R176), one translation a page
(R298), parking in the operand log (R300, R301, R376), staging (R54, R181), and atomic requests (R178, R179). -/

namespace Sys2Proof.Machine

/-- Checks 2 and 3 of R176 on a global address. -/
def globalCheck (va n : Nat) : Option LaneBad :=
  if bitsN va 63 60 ≠ 0 then some ⟨0x05, 0, dw va, 1⟩
  else if va % n ≠ 0 then some ⟨0x06, Nat.log2 n, dw va, 1⟩
  else none

/-- What leaves that have been found give for the unit `p`: a leaf of a 2 MiB or 1 GiB page stands for all of it (R294). -/
def knownLeaf (known : List (Nat × Walk)) (p : Nat) : Option Walk :=
  known.findSome? fun x => match x.2 with
    | .leaf e g => tlbLeaf ⟨0, x.1, e, if g then 2 else if ptL e then 1 else 0⟩ p
    | w => if x.1 = p then some w else none

/-- The leaves of units of 64 KiB, one translation for each page (R298), beside those that are known. -/
def pageLeaves (s : State) (shelf ten : Nat) (known : List (Nat × Walk)) : List Nat → List (Nat × Walk) × State
  | [] => (known, s)
  | p :: t =>
    match knownLeaf known p with
    | some w => pageLeaves s shelf ten ((p, w) :: known) t
    | none =>
      let (w, s) := findLeaf s shelf ten (p * 65536)
      pageLeaves s shelf ten ((p, w) :: known) t

/-- One lane's access under the leaves of its instruction. -/
def laneXlate (s : State) (shelf ten : Nat) (leaves : List (Nat × Walk)) (va : Nat) (acc : Acc) (ro : Nat) : Xlate :=
  match leaves.find? fun e => e.1 == va / 65536 with
  | some (_, .leaf e g) => leafAccess s shelf ten va acc ro e g
  | some (_, .invalid l) => .park l
  | some (_, .bad sub) => .bad 0x45 sub va 1
  | none => .park 3

/-- What the translation of a per-lane access gives. -/
inductive Access where
  /-- A lane's check fails. -/
  | fault (lane : Nat) (b : LaneBad)
  /-- A lane meets a page that is not there: the lane, its address (R176). -/
  | park (lane va : Nat)
  /-- Each lane's physical address, none for zeros, and its leaf. -/
  | ok (loc : List (Nat × Option Nat × DWord))
  deriving DecidableEq, Repr

/-- Whether an operand-log entry of the warp names the page of an address (R301). -/
def pageLogged (w : Warp) (va : Nat) : Bool := w.olog.any fun e => e.va.toNat / 65536 == va / 65536

/-- The checks of R176 from step 2 on for the active lanes: `pre` gives those before translation; the first failing check
of the lowest failing lane is reported, and a fault comes before a park (DEDUCED, log entry 21). `logged` says that a page named in
the operand log parks too (R301). -/
def translateLanes (s : State) (w : Warp) (lanes : List Nat) (pre : Nat → Option LaneBad) (va : Nat → Nat) (acc : Acc)
    (ro : Nat) (logged : Bool) : Access × State :=
  let shelf := coreShelf w.core
  let ten := tenantOf s w
  let (leaves, s) := pageLeaves s shelf ten [] (distinct (lanes.filter fun l => (pre l).isNone) fun l => va l / 65536)
  let x := fun l => laneXlate s shelf ten leaves (va l) acc ro
  let bad := firstLane lanes fun l => (pre l).or (match x l with
    | .bad c i a asp => some ⟨c, i, dw a, asp⟩
    | _ => none)
  match bad with
  | some (l, b) => (.fault l b, s)
  | none =>
    let parked := lanes.find? fun l => (logged && pageLogged w (va l)) || match x l with
      | .park _ => true
      | _ => false
    match parked with
    | some l => (.park l (va l), s)
    | none =>
      (.ok (lanes.map fun l => match x l with
        | .ok pa e => (l, some pa, e)
        | .zero e => (l, none, e)
        | _ => (l, none, 0)), s)

/-- A lane's place in a translated access. -/
def locOf (loc : List (Nat × Option Nat × DWord)) (l : Nat) : Option Nat × DWord :=
  ((loc.find? fun e => e.1 == l).map (·.2)).getD (none, 0)

/-! The operand log. -/

/-- Values of one lane in a payload slot: address, data, compare value. -/
structure LaneVal where
  va : Nat
  data : Nat
  cmp : Nat
  deriving DecidableEq, Repr

/-- The 1 KiB image of a payload slot (R300). -/
def payloadBytes (lanes : List Nat) (v : Nat → LaneVal) : List Byte :=
  (List.range 32).flatMap fun l =>
    if lanes.contains l then bytesOf 8 (v l).va ++ bytesOf 16 (v l).data ++ bytesOf 8 (v l).cmp else List.replicate 32 0

/-- A lane's values read back from a payload slot. -/
def payloadLane (s : State) (pay lane : Nat) : LaneVal :=
  ⟨homeNat s (pay + 32 * lane) 8, homeNat s (pay + 32 * lane + 8) 16, homeNat s (pay + 32 * lane + 24) 8⟩

/-- Leaves of the page: 32 for a 2 MiB page. -/
def pageCount (e : DWord) : Nat := if ptL e then 32 else 1

/-- First 64 KiB unit of the page. -/
def Migr.first (m : Migr) : Nat := m.page / pageCount m.leaf * pageCount m.leaf

/-- Whether a request covers a 64 KiB unit. -/
def Migr.covers (m : Migr) (ten page : Nat) : Bool := m.tenant == ten && page / pageCount m.leaf * pageCount m.leaf == m.first

/-- Whether the page of a 64 KiB unit is in transit (R302 step 1). -/
def inTransit (s : State) (ten page : Nat) : Bool := s.migrs.any fun m => !m.failed && m.covers ten page

/-- What parking needs: hold, a fault (cause 0x47, INFO0), or a log entry and a slot (number, physical address). -/
inductive Slot where
  | hold
  | bad (info0 : Nat)
  | free (ent idx pa : Nat)
  deriving DecidableEq, Repr

/-- Payload slots of a tenant in use, those of saved warps included. -/
def usedSlots (s : State) (ten : Nat) : List Nat :=
  ((s.allWarps ++ s.saved.flatMap (·.warps)).filter fun w => tenantOf s w == ten).flatMap fun w => w.olog.map (·.payIdx)

/-- Groups of the warp's tenant that began to hold before it and whose log has room: they take freed slots first (R376). -/
def slotsAhead (s : State) (w : Warp) : Nat :=
  let place := fun (x : Warp) => (x.run.map (·.slotSince)).getD 0
  (s.allWarps.filter fun x => x.uid != 0 && x.uid != w.uid && tenantOf s x == tenantOf s w && decide (x.olog.length < 4) &&
    decide (0 < place x) && (decide (place w = 0) || decide (place x < place w))).length

/-- Finding a free log entry and a free payload slot (R300, R376) (DEDUCED, log entry 40) (DESIGN CHOICE, log entry 54). -/
def findSlot (s : State) (w : Warp) : Slot × State :=
  let ten := tenantOf s w
  let shelf := coreShelf w.core
  let pool := shelfReg s shelf 0x13 ten
  if !fbit pool 0 || fld pool 9 1 = 0 then (.bad 0, s)
  else if 4 ≤ w.olog.length then (.hold, s)
  else
    let used := usedSlots s ten
    let free := (List.range (fld pool 9 1)).filter fun i => !used.contains i
    if free.length ≤ slotsAhead s w then (.hold, s)
    else
      let (i, s) := chooseFrom 0 s free
      let (n, s) := chooseFrom 0 s ((List.range 4).filter fun n => w.olog.all fun e => e.ent != n)
      let va := fld pool 59 10 * 1024 + 1024 * i
      match translate s shelf ten va .write 1 with
      | (.ok pa _, s) => (.free n i pa, s)
      | (_, s) => (.bad 1, s)

/-- The running group holds for a log entry or a slot, at its place among those that do (R376). -/
def slotHold (s : State) : State :=
  if s.cur.run.all fun r => r.slotSince != 0 then s
  else { s with fresh := s.fresh + 1, cur := { s.cur with run := s.cur.run.map fun r => { r with slotSince := s.fresh } } }

/-- Parking the running instruction (R300): `dst` the registers that stay pending, `more` completes the entry. The group
goes on to its next instruction; the counter DC stays raised, an open transaction is doomed. -/
def parkAccess (s : State) (r : Run) (it : Item) (lanes : List Nat) (v : Nat → LaneVal) (lane va dc : Nat)
    (dst : List Nat) (more : LogEntry → LogEntry) (k : State → State) : State :=
  match findSlot s s.cur with
  | (.hold, s) => slotHold s
  | (.bad i, s) => laneFault s r it lane ⟨0x47, i, dw va, 1⟩
  | (.free n i pa, s) =>
    let s := doom s 0x0C
    let (id, s) := takeId s
    let s := applyWrite (reachHome s pa 1024) (atAddr pa (payloadBytes lanes v))
    let e : LogEntry :=
      { ent := n, st := if inTransit s (tenantOf s s.cur) (va / 65536) then 1 else 0, seq := s.cur.seq, lane := lane
        insn := it.raw, lit := it.f.lit.getD 0, mask := lanesFrom lanes
        va := dw (va / 65536 * 65536), pc := r.pc, pay := dw pa, payIdx := i, src := id, tiles := [], bar := 0,
        ft := dw (fallThrough r), reported := false }
    let w := s.cur
    let w := { w with
      olog := w.olog ++ [more e]
      seq := w.seq + 1
      dc := if dc = 0 then w.dc else nset 0 w.dc dc (nget 0 w.dc dc + 1)
      pend := w.pend ++ dst.map fun reg => ⟨lanesFrom lanes, 0, reg, id⟩ }
    k { s with cur := w }

/-- Freeing a log entry of a warp: its pending registers are no longer pending, its counter falls. -/
def freeEntry (w : Warp) (e : LogEntry) (dc : Nat) : Warp :=
  { w with
    olog := w.olog.filter fun x => x.src != e.src
    pend := w.pend.filter fun p => p.src != e.src
    dc := if dc = 0 then w.dc else nset 0 w.dc dc (nget 0 w.dc dc - 1) }

/-- An issue that would raise a counter above 63 waits (R121). -/
def dcFull (w : Warp) (dc : Nat) : Bool := dc != 0 && decide (63 ≤ nget 0 w.dc dc)

/-- DC of a counted instruction. -/
def Item.dc (it : Item) : Nat := it.m 63 61

/-! Staging a store. -/

/-- Transaction a warp's stores belong to: its own while open and not doomed (R250). -/
def txnTag (w : Warp) : Nat := if w.txn.isOpen && !w.txn.doomed then w.uid else 0

/-- Whether the core's buffer has room for the focused warp's stores to these blocks (R54). -/
def stageRoom (s : State) (scope : Nat) (blocks : List Nat) : Bool :=
  let w := s.cur
  let new := blocks.filter fun b => !s.staging.any fun e => e.merges w.core (tenantOf s w) scope (txnTag w) b
  decide ((s.staging.filter fun e => e.core == w.core).length + new.length ≤ Config.stagingEntries)

/-- A store waits for a free entry: the core's buffer publishes its oldest entry that it may (R54, R72) (DEDUCED, log entry 55). -/
def freeOldest (s : State) (core : Nat) : State :=
  let es := s.staging.filter fun e => e.core == core && e.txn == 0 && e.going.isNone
  match es.find? fun e => es.all fun x => decide (e.born ≤ x.born) with
  | none => s
  | some e => { s with staging := s.staging.map fun x => if x == e then startPublish s e.freeLevel x else x }

/-- Storing one lane's bytes: a 33rd write-set entry dooms the transaction (R250). -/
def stageLane (scope lane : Nat) (s : State) (ws : List (Nat × Byte)) : State :=
  match ws with
  | [] => s
  | (a, _) :: _ =>
    let w := s.cur
    let ten := tenantOf s w
    let tag := txnTag w
    let isNew := !s.staging.any fun e => e.merges w.core ten scope tag (a / 64 * 64)
    let s := if tag ≠ 0 && isNew && 32 ≤ (s.staging.filter fun e => e.txn == tag).length then doom s 0x03 else s
    stageBytes s w.core ten w.ctx scope (txnTag s.cur) [laneSig w lane] ws

/-- Whether any listed physical address lies in a line that a transaction or row operation holds (R85, R253), or that a new
generation's home holds until DRAIN clears (R57). -/
def anyLocked (s : State) (pas : List Nat) : Bool :=
  pas.any fun pa => (lineOf s pa).locked || (draining s && anyMoved s pa)

/-- Whether any lies in a line whose later writes a row operation holds (R253 step 2). -/
def anyHeld (s : State) (pas : List Nat) : Bool := pas.any fun pa => (lineOf s pa).holdWr

/-! Reading with the phase of a lane. -/

/-- The order number below which a warp's earlier reads of a unit bar a value (R74, monotonic reads). -/
def seenOf (w : Warp) (pa n : Nat) : Nat := (List.range n).foldl (fun m j => max m (nget 0 w.seen (pa + j))) 0

/-- A map of order numbers raised to `t` at the bytes of a unit. -/
def raiseTo (m : NMap Nat) (pa n t : Nat) : NMap Nat :=
  (List.range n).foldl (fun m j => nset 0 m (pa + j) (max t (nget 0 m (pa + j)))) m

/-- A map of bounds, 0 for none, lowered to `t` at the bytes of a unit. -/
def lowerTo (m : NMap Nat) (pa n t : Nat) : NMap Nat :=
  (List.range n).foldl (fun m j =>
    let k := nget 0 m (pa + j)
    nset 0 m (pa + j) (if k = 0 then t + 1 else min k (t + 1))) m

/-- What a read of a unit by a warp, issued as number `id`, leaves to the warp's engine commands under way: those issued before
return nothing later, those issued after nothing earlier (R74). -/
def boundReads (s : State) (uid id pa n t : Nat) : State :=
  { s with cmds := s.cmds.map fun c =>
      if c.warp != uid || c.id == id then c
      else if c.id < id then { c with cap := lowerTo c.cap pa n t }
      else { c with floor := raiseTo c.floor pa n t } }

/-- Order number just past the latest row operation's write to the line of an address; 0 for none. -/
def rowOrder (s : State) (pa : Nat) : Nat := nget 0 s.rows (pa / 256)

/-- What the units that an access has read of lines written by row operations bind its others to, by line: 1 the line's old content,
2 its new one (R253). -/
abbrev RowView := NMap Nat

/-- What binds an access before it reads: its units, each with the lane that reads it. Where one of a line cannot show the line's old
content any more, all show the new one (R253). -/
def rowViewOf (s : State) (n : Nat) (units : List (Nat × Nat)) : RowView :=
  let w := s.cur
  units.foldl (fun m u =>
    let row := rowOrder s u.2
    if row ≠ 0 && row ≤ max (seenOf w u.2 n) (viewFloor s (nget [] w.phase u.1) u.2 n) then nset 0 m (u.2 / 256) 2 else m) []

/-- One element read by the focused warp in a lane's phase, staged bytes merged; what it saw bounds the warp's other reads, and
what other units of its access have seen of a row operation's write to the line bounds it (R253). -/
def readElem (s : State) (lane : Nat) (rep : Bool) (rv : RowView) (pa n : Nat) : List Byte × RowView × State :=
  let s := reachUnit s s.cur.core rep pa n
  let w := s.cur
  let ph := nget [] w.phase lane
  let row := rowOrder s pa
  let lo := max (seenOf w pa n) (if nget 0 rv (pa / 256) = 2 then row else 0)
  let hi := if nget 0 rv (pa / 256) = 1 then max (row - 1) (max lo (viewFloor s ph pa n)) else s.order
  let (bs, t, s) := readMerged s w.core w.uid ph lo hi pa n
  let k := setSeen s pa n t
  (bs, if row = 0 then rv else nset 0 rv (pa / 256) (if row ≤ t then 2 else 1),
    onCur (boundReads s w.uid s.fresh pa n t) fun w => observe [lane] [] k { w with seen := raiseTo w.seen pa n t })

/-! Atomic requests. -/

/-- Groups of an atomic by physical address (R178), in the order of their lowest lanes. -/
def groupsOf (lanes : List Nat) (pa va : Nat → Nat) (v : Nat → AtomLane) : List AtomGroup :=
  (distinct lanes pa).map fun a =>
    let ls := lanes.filter fun l => pa l == a
    ⟨a, dw (va (ls.headD 0)), ls.map v⟩

/-- A group whose application may come next: no earlier group of its warp is bound for its line, nothing of its core before it has
been overtaken 16 times, and the publications of its core to its line that it follows have been applied (R60, R71)
(DEDUCED, log entry 19). -/
def groupReady (s : State) (n : Nat) : Option (Req × AtomGroup) :=
  let all := s.reqs.flatMap fun q => q.groups.map fun g => (q, g)
  match all[n]? with
  | none => none
  | some (q, g) =>
    if (all.take n).any (fun e => e.1.warp == q.warp && e.1.id != q.id && e.2.pa / 256 == g.pa / 256) ||
        overtaken s q.core q.sent || lineAhead s q.core q.sent g.pa then none
    else some (q, g)

/-- Pending registers of a source without the lanes of `m`. -/
def lessPend (ps : List Pend) (src : Nat) (m : Lanes) : List Pend :=
  let qs := ps.map fun p => if p.src == src then { p with lanes := p.lanes &&& ~~~ m } else p
  qs.filter fun p => p.lanes != 0

/-- What the read half of an atomic finds at its home: the writers of the value, the place in the coherence order, the write sets that
the value is of. -/
structure Found where
  sig : List Sig
  at_ : Nat
  set : Past
  deriving DecidableEq, Repr

/-- What a read of a unit finds now. -/
def foundAt (s : State) (pa n : Nat) : Found := ⟨homeSigs s pa n, s.order, setSeen s pa n s.order⟩

/-- The writers of the value that a group leaves: its lanes. -/
def groupSigs (s : State) (q : Req) (g : AtomGroup) : List Sig :=
  match findWarp s q.warp with
  | some w => g.lanes.map fun l => laneSig w l.lane
  | none => []

/-- Delivering old values of a request to its warp: the destination registers of lanes that still wait for them are written (R140); the
lanes have observed the value, each with those of the group that come before it, and the warp reads nothing earlier (R74, Table 4.4). -/
def deliverOld (s : State) (q : Req) (pa : Nat) (f : Found) (olds : List (Nat × Nat)) : State :=
  match findWarp s q.warp with
  | none => s
  | some w =>
    let n := tyBytes q.ty
    let live := olds.filter fun e => lon w.live e.1
    let w := if q.red then w else live.foldl (fun w e => vputNat w (n == 8) q.dst e.1 e.2) { w with seen := raiseTo w.seen pa n f.at_ }
    let s := if q.red then s else boundReads s w.uid q.id pa n f.at_
    let w := { w with pend := lessPend w.pend q.id (lanesFrom (olds.map (·.1))) }
    putWarp s ((List.range olds.length).foldl (fun w' i =>
      let l := (olds.getD i (0, 0)).1
      if lon w.live l then observe [l] (f.sig ++ (olds.take i).map fun e => laneSig w e.1) f.set w' else w') w)

/-- A group without the listed lanes. -/
def AtomGroup.less (g : AtomGroup) (lanes : List Nat) : AtomGroup :=
  { g with lanes := g.lanes.filter fun l => !lanes.contains l.lane }

/-- The report of a request that has met poison, once for its instruction (R352, R382): the lanes of these groups, the address of the
lowest. Their destinations are never written (DEDUCED, log entry 56). -/
def poisonReport (s : State) (q : Req) : State :=
  match q.poisoned, findWarp s q.warp with
  | [], _ => s
  | _, none => s
  | gs, some w =>
    let lanes := gs.flatMap fun g => g.lanes.map (·.lane)
    let m := lanesFrom lanes
    let va := ((gs.find? fun g => g.lanes.any fun l => l.lane == lowLane m).map (·.va)).getD 0
    let w := { w with pend := lessPend w.pend q.id m }
    deferFault (putWarp s w) w { cause := 0x82, pc := q.pc.toNat, lanes := m, addr := va, asp := 1, info0 := 1, info1 := lowLane m }

/-- A request without lanes of its groups at an address. -/
def Req.less (x : Req) (pa : Nat) (lanes : List Nat) : Req :=
  let gs := x.groups.map fun g => if g.pa == pa then g.less lanes else g
  { x with groups := gs.filter fun g => !g.lanes.isEmpty }

/-- Whether a request has no group left. -/
def Req.isDone (x : Req) : Bool := x.groups.isEmpty && x.away.isNone

/-- Removing lanes of a group from a request; a request with no group left is done, and reports what met poison. -/
def dropGroup (s : State) (q : Req) (pa : Nat) (lanes : List Nat) : State :=
  let rs := s.reqs.map fun (x : Req) => if x.id == q.id then x.less pa lanes else x
  let ended := rs.filter fun x => x.isDone && !x.poisoned.isEmpty
  ended.foldl poisonReport { s with reqs := rs.filter fun x => !x.isDone }

/-- Cause 0x8A: requests of a tenant lost on a failed link, told once for each failure (R384, R385). -/
def lostReport (s : State) (ten port n : Nat) : State :=
  if s.lostTold.contains (port, ten) then s
  else reportBare { s with lostTold := (port, ten) :: s.lostTold } ten 0 { cause := 0x8A, info0 := port, info1 := n, src := 4, sev := 2 }

/-- A group lost on a failed link: discarded, its destinations never written (R385). -/
def dropLost (s : State) (q : Req) (g : AtomGroup) : State :=
  let lanes := g.lanes.map (·.lane)
  let s := dropGroup s q g.pa lanes
  match findWarp s q.warp with
  | none => s
  | some w => putWarp s { w with pend := lessPend w.pend q.id (lanesFrom lanes) }

/-- A group that meets poison (R382): the memory is unchanged and the destinations are never written; the report comes with the end of
its request. -/
def poisonGroup (s : State) (q : Req) (g : AtomGroup) : State :=
  dropGroup { s with reqs := s.reqs.map fun x => if x.id == q.id then { x with poisoned := x.poisoned ++ [g] } else x } q g.pa
    (g.lanes.map (·.lane))

end Sys2Proof.Machine
end

