-- ==== Sys2Proof/Machine/Global.lean ====
section
/-! DEFINITION. STG, ATOMG and REDG (R178 to R182), and the application of atomic groups. -/

namespace Sys2Proof.Machine

/-- Uses of a global address a pair + b + c. -/
def globalUses : List Use :=
  [.src .a (.int 64 false) accMem, .src .b (.int 32 true) accMem, .src .c (.int 32 true) accMem]

/-- The global address of a lane (R175); an atomic has no c in it. -/
def globalAddr (s : State) (w : Warp) (r : Run) (it : Item) (withC : Bool) (l : Nat) : Nat :=
  wrapInt 64 ((operand s w r it (.int 64 false) .a l : Int) + operandInt s w r it (.int 32 true) .b l +
    (if withC then operandInt s w r it (.int 32 true) .c l else 0))

/-- Bytes an STG stores in a lane. -/
def stgBytes (it : Item) : Nat := accBytes it (it.mb 55)

/-- Storing the lanes' bytes in staging, in increasing lane order. -/
def stgStage (scope n : Nat) (s : State) (lanes : List Nat) (loc : List (Nat × Option Nat × DWord)) (data : Nat → Nat) :
    State :=
  lanes.foldl (fun s l =>
    match (locOf loc l).1 with
    | some pa => stageLane scope l s (atAddr pa (bytesOf n (data l)))
    | none => s) s

/-- 64-byte blocks of a translated access. -/
def blocksOf (loc : List (Nat × Option Nat × DWord)) : List Nat := (loc.filterMap fun e => e.2.1.map (· / 64 * 64)).eraseDups

/-- Counting the focused warp's STG on its dependency counter while it holds for an entry (R54, R121). -/
def countHold (it : Item) (r : Run) (s : State) : State :=
  onCur s fun w => { w with
    dc := if it.dc = 0 then w.dc else nset 0 w.dc it.dc (nget 0 w.dc it.dc + 1)
    run := some { r with counted := true } }

/-- Its count taken back before it tries again. -/
def uncount (it : Item) (w : Warp) (r : Run) : Warp :=
  if r.counted && it.dc ≠ 0 then { w with dc := nset 0 w.dc it.dc (nget 0 w.dc it.dc - 1) } else w

/-- STG's effect: checks, a park, a hold while the buffer is full, or the stores. -/
def stgDo (it : Item) (s : State) (w : Warp) (r : Run) : State :=
  let n := stgBytes it
  let w := uncount it w r
  let s := { s with cur := w }
  let r := { r with counted := false }
  let act := lanesOf (activeLanes w r it)
  let va := globalAddr s w r it true
  let data := fun l => vregsNat w it.d l (regsOf n)
  let go := fun s => goOn s r it (dataWatch s w act false false true va n)
  if dcFull w it.dc then s
  else
    match translateLanes s w act (fun l => globalCheck (va l) n) va .write 1 true with
    | (.fault l b, s') => laneFault s' r it l b
    | (.park l a, s') => parkAccess s' r it act (fun l => ⟨va l, data l % 2 ^ (8 * n), 0⟩) l a it.dc [] id go
    | (.ok loc, s') =>
      if stageRoom s' (it.m 54 52) (blocksOf loc) then go (stgStage (it.m 54 52) n s' act loc data)
      else countHold it r (freeOldest s w.core)

/-- STG: the scope tag is MOD[54:52]. -/
def stgOp (it : Item) (s : State) : Out :=
  let k := regsOf (stgBytes it)
  issue it (fun _ _ _ =>
    { uses := globalUses ++ [.dstData k k]
      bads := memBads it (if it.mb 55 then [9] else [0, 4, 1, 5, 8, 9]) true 0 1 ++ opdBad (it.m 54 52 = 7) 6 7 }) s (stgDo it)

/-- Whether an atomic may act on a line of host memory (R180). -/
def hostAtomicOk (op ty : Nat) : Bool := (op == 0 && ([2, 3, 6, 7] : List Nat).contains ty) || op == 6 || op == 7

/-- A lane whose atomic PCIe does not offer (cause 0x25). -/
def atomHostBad (op ty : Nat) (va : Nat → Nat) (loc : List (Nat × Option Nat × DWord)) (l : Nat) : Option LaneBad :=
  match (locOf loc l).1 with
  | some pa => if paKind pa = .host && !hostAtomicOk op ty then some ⟨0x25, op, dw (va l), 1⟩ else none
  | none => none

/-- Sending the groups of an atomic to their homes, after publishing what they overlap (R71, R179). -/
def atomSend (it : Item) (red : Bool) (id : Nat) (pc : DWord) (s : State) (lanes : List Nat) (va : Nat → Nat)
    (loc : List (Nat × Option Nat × DWord)) (v : Nat → AtomLane) : State :=
  let n := tyBytes it.mty
  let pa := fun l => ((locOf loc l).1).getD 0
  let gs := groupsOf lanes pa va v
  let w := s.cur
  let s := gs.foldl (fun s g => raiseOverlap s w.core g.pa n) s
  let (at_, s) := takeId s
  let q : Req :=
    { id := id, sent := at_, warp := w.uid, core := w.core, ctx := w.ctx, tenant := tenantOf s w, op := it.m 55 52, ty := it.mty, red := red, dst := it.d,
      pc := pc, gen := irtBank s (coreShelf w.core) = 1, groups := gs, away := none }
  if gs.isEmpty then s else { s with reqs := s.reqs ++ [q] }

/-- The clause goes on once an access has issued; one that a data watch has matched holds it until it has performed (R316). -/
def watched (id : Nat) (r : Run) (it : Item) (watch : Bool) (s : State) : State :=
  if watch then onCur s fun w => { w with run := some { r with watching := some id } } else goOn s r it false

/-- ATOMG and REDG: inside an open transaction they doom it (R182). -/
def atomgDo (red : Bool) (it : Item) (s : State) (w : Warp) (r : Run) : State :=
  let n := tyBytes it.mty
  let act := lanesOf (activeLanes w r it)
  let va := globalAddr s w r it false
  let v := atomLane s w r it
  let dc := if red then it.dc else 0
  let dst := if red then [] else (List.range (regsOf n)).map (it.d + ·)
  let go := fun s => goOn s r it (dataWatch s w act false true true va n)
  if let some id := r.watching then (if s.reqs.any fun q => q.id == id then s else goOn s r it true)
  else if dcFull w dc then s
  else
    match translateLanes s w act (fun l => globalCheck (va l) n) va .write 1 true with
    | (.fault l b, s') => laneFault s' r it l b
    | (.park l a, s') =>
      parkAccess (doom s' 0x06) r it act (fun l => ⟨va l, (v l).x.toNat, (v l).e.toNat⟩) l a dc dst id go
    | (.ok loc, s') =>
      match firstLane act (atomHostBad (it.m 55 52) it.mty va loc) with
      | some (l, b) => laneFault s' r it l b
      | none =>
        let (id, s') := takeId (doom s' 0x06)
        let s' := atomSend it red id r.pc s' act va loc v
        watched id r it (dataWatch s w act false true true va n) <| onCur s' fun w =>
          { w with pend := if act.isEmpty then w.pend else w.pend ++ dst.map fun reg => ⟨lanesFrom act, 0, reg, id⟩ }

/-- ATOMG, and REDG where `red` is set. -/
def atomgOp (red : Bool) (it : Item) (s : State) : Out :=
  let k := regsOf (tyBytes it.mty)
  issue it (fun _ _ _ =>
    { uses := [.src .a (.int 64 false) accMem, .src .b (.int 32 true) accMem, .src .c (vtOf it.mty) accMem,
        if red then .dstNone else .dstData k k]
      bads := atomBads it red red }) s (atomgDo red it)

/-- A group applied whole at its home (R178): the coherence-latest value is read, the new one written. -/
def applyAtHome (s : State) (q : Req) (g : AtomGroup) : State :=
  let n := tyBytes q.ty
  let res := applyGroup q.op q.ty (homeNat s g.pa n) g.lanes
  let f := foundAt s g.pa n
  let gs := groupSigs s q g
  let s := applyWriteBy q.core (fun _ => gs) (overtakes s q.core q.sent) (atAddr g.pa (bytesOf n res.1))
  dropGroup (deliverOld s q g.pa f res.2) q g.pa (g.lanes.map (·.lane))

/-- The stack that holds a physical address of the fast tier. -/
def stackOf (pa : Nat) : Nat := pa / Config.stackBytes

/-- A free tag of a stack's port (R62). -/
def freeTag (s : State) (stack : Nat) : Option Nat :=
  let used := (s.packets.filter fun p => p.stack == stack).map (·.tag)
  (List.range Config.portTags).find? fun t => !used.contains t

/-- Sending a packet to a stack; nothing where the port has no free tag (R62). -/
def sendPacket (s : State) (p : Packet) : Option State :=
  (freeTag s p.stack).map fun t => { s with packets := s.packets ++ [{ p with tag := t }] }

/-- Locking or unlocking a line at its home. -/
def setLock (s : State) (line : Nat) (b : Bool) : State :=
  { s with l2 := nset {} s.l2 line { nget {} s.l2 line with locked := b } }

/-- Sending a one-lane group to its stack as an ATOMIC packet: the home writes its dirty sectors back, drops the line and
holds it until the reply. -/
def atomToStack (s : State) (q : Req) (g : AtomGroup) (l : AtomLane) : State :=
  let line := g.pa / 256
  let s' := setLock (invalidateLine (writeBack s line) line) line true
  let p : Packet :=
    { stack := stackOf g.pa, tag := 0, kind := 2, reply := false, pa := g.pa, sectors := 1#8 <<< (g.pa / 32 % 8), bytes := [],
      args := [q.op, q.ty, l.x.toNat, l.e.toNat, l.lane], src := q.id }
  match sendPacket s' p with
  | none => s
  | some s' =>
    let s' := overtakes s' q.core q.sent
    { s' with reqs := s'.reqs.map fun x => if x.id == q.id then { x with away := some g } else x }

/-- ATOMIC_GROUP_APPLY. -/
def atomicApply (n : Nat) (atStack : Bool) (s : State) : State :=
  match groupReady s n with
  | none => s
  | some (q, g) =>
    if paKind g.pa = .host || q.away.isSome || (lineOf s g.pa).locked || (lineOf s g.pa).holdWr ||
        drainHolds s (coreShelf q.core) q.gen g.pa then s
    else if peerWay s (coreShelf q.core) g.pa = .waits then s
    else if let .lost p := peerWay s (coreShelf q.core) g.pa then
      lostReport (dropLost s q g) q.tenant p 1
    else if poisonedAt s g.pa (tyBytes q.ty) then poisonGroup s q g
    else
      match atStack && paKind g.pa = .fast, g.lanes with
      | true, [l] => atomToStack s q g l
      | _, _ => applyAtHome s q g

/-- HOST_ATOMICOP. -/
def hostAtomic (n : Nat) (s : State) : State :=
  match groupReady s n with
  | none => s
  | some (q, g) =>
    match paKind g.pa, g.lanes with
    | .host, l :: _ =>
      if poisonedAt s g.pa (tyBytes q.ty) then poisonGroup s q g
      else applyAtHome s q { g with lanes := [l] }
    | _, _ => s

/-- STG (R181). -/
def execStg (f : Long) (s : State) : Out := stgOp (longItem 0x120 false f) s

/-- ATOMG (R178, R179). -/
def execAtomg (f : Long) (s : State) : Out := atomgOp false (longItem 0x121 false f) s

/-- REDG (R178, R179). -/
def execRedg (f : Long) (s : State) : Out := atomgOp true (longItem 0x122 false f) s

/-- ATOMIC_GROUP_APPLY (R178, R179): group `n` of those on their way is applied at its home, or sent to its stack. -/
def execAtomicGroupApply (n : Nat) (atStack : Bool) (s : State) : Out := .next (atomicApply n atStack s)

/-- HOST_ATOMICOP (R180): the next lane of group `n`, on a line of host memory, as one AtomicOp of PCIe. -/
def execHostAtomicop (n : Nat) (s : State) : Out := .next (hostAtomic n s)

end Sys2Proof.Machine
end

