-- ==== Sys2Proof/Machine/Tensor.lean ====
section
/-! DEFINITION. Tensor records (R184, R185), boxes (R186, R187), the formats of pages and records (R90, R96, R97), and
streams of elements through a graph (R201, R202). -/

namespace Sys2Proof.Machine

/-! Formats. -/

/-- Bits of an element-format code (Table 5.4); Untyped means 1-byte elements. -/
def fmtBits (f : Nat) : Nat :=
  match f with
  | 1 => 64
  | 2 => 32
  | 3 | 4 => 16
  | 7 | 8 => 6
  | 9 | 11 | 12 => 4
  | _ => 8

/-- The floating format of a code. -/
def fmtFloat (f : Nat) : Option Fmt :=
  match f with
  | 1 => some f64
  | 2 => some f32
  | 3 => some f16
  | 4 => some bf16
  | 5 => some e5m2
  | 6 => some e4m3
  | 7 => some e3m2
  | 8 => some e2m3
  | 9 => some e2m1
  | _ => none

/-- Whether a code names numbers: the floating formats and the integers. -/
def fmtNumeric (f : Nat) : Bool := decide (1 ≤ f) && decide (f ≤ 11)

/-- Whether a code is accepted under MX (R92). -/
def fmtMx (f : Nat) : Bool := decide (5 ≤ f) && decide (f ≤ 10)

/-- Whether a code or geometry is reserved (Tables 5.4, 5.5). -/
def fmtReserved (f geo : Nat) : Bool := decide (12 < f) || decide (geo = 3)

/-- Whether a record may name `r` over a page's `p` (R97). -/
def fmtFamily (p r : Nat) : Bool :=
  p == 0 || p == r || ([(5, 6), (6, 5), (7, 8), (8, 7), (3, 4), (4, 3), (1, 2), (2, 1)] : List (Nat × Nat)).contains (p, r)

/-- The value of an element. -/
def eltVal (f x : Nat) : FV :=
  match fmtFloat f with
  | some F => decodeF F (x % 2 ^ F.width)
  | none => intFV (signedOf (fmtBits f) x)

/-- The value of an element of an MX tensor under its scale byte (R92). -/
def eltMx (f sc x : Nat) : FV := scaled sc (if f = 10 then mxInt8 x else eltVal f x)

/-- Rounding a value to an element format (R163). -/
def eltPut (f mode : Nat) (sat : Bool) (x : FV) : Nat :=
  match fmtFloat f with
  | some F => roundF F mode 0 sat false x
  | none => toIntF mode (fmtBits f) true x

/-- The element a fill of 1 writes: the canonical NaN, or zero (R186). -/
def eltNaN (f : Nat) : Nat :=
  match fmtFloat f with
  | some F => F.qnan
  | none => 0

/-! Records. -/

/-- A tensor record from its eight words (Table 9.5). -/
def parseTensor (ws : List DWord) : Tensor :=
  let w := fun i h l => fld (wordAt ws i) h l
  { base := w 0 59 0
    ext := [w 1 31 0, w 1 63 32, w 2 31 0, w 2 63 32, w 3 15 0]
    str := [0, w 3 63 32, w 4 31 0, w 4 63 32, w 5 63 32]
    box := [w 5 8 0, w 5 17 9, w 5 26 18, w 6 8 0, w 6 17 9]
    order := (List.range 5).map fun j => w 6 (20 + 3 * j) (18 + 3 * j)
    rank := w 5 29 27
    space := fbit (wordAt ws 3) 31
    bv := fbit (wordAt ws 3) 30
    fill := w 5 31 30
    bar := w 6 63 48
    fovr := fbit (wordAt ws 6) 47
    cbi := w 6 46 39
    geo := w 6 38 37
    fmt := w 6 36 33
    scale := w 7 59 0 }

/-- Extent of axis `k`. -/
def Tensor.extAt (t : Tensor) (k : Nat) : Nat := t.ext.getD k 0
/-- Stride of axis `k` in bytes. -/
def Tensor.strAt (t : Tensor) (k : Nat) : Nat := 16 * t.str.getD k 0
/-- Box size of axis `k`. -/
def Tensor.boxAt (t : Tensor) (k : Nat) : Nat := t.box.getD k 0 + 1
/-- Source axis that is destination axis `j`. -/
def Tensor.axis (t : Tensor) (j : Nat) : Nat := t.order.getD j j
/-- Sizes of the destination axes. -/
def Tensor.dims (t : Tensor) : List Nat := (List.range 5).map fun j => t.boxAt (t.axis j)
/-- Elements of the box. -/
def Tensor.count (t : Tensor) : Nat := t.dims.foldl (· * ·) 1

/-- The word that holds field `j` (0 extent, 1 stride, 2 box) of axis `k`. -/
def axisWord (j k : Nat) : Nat :=
  match j with
  | 0 => 1 + k / 2
  | 1 => (if k = 1 then 3 else if k ≤ 3 then 4 else 5)
  | _ => if k ≤ 2 then 5 else 6

/-- The failing conditions of Table 20.6 that need no element size, in its order: subcode, word. -/
def tensorBads (ws : List DWord) (global pool rb : Bool) : List (Nat × Nat) :=
  let t := parseTensor ws
  let c := fun (b : Bool) (sub w : Nat) => if b then [(sub, w)] else []
  let hi := (List.range 5).filter fun k => t.rank ≤ k
  let lo := (List.range 5).filter fun k => k < t.rank
  c (fld (wordAt ws 0) 63 60 ≠ 0 || (t.space && fld (wordAt ws 0) 59 32 ≠ 0)) 1 0 ++
  c (fld (wordAt ws 3) 29 16 ≠ 0) 1 3 ++ c (fld (wordAt ws 7) 63 60 ≠ 0) 1 7 ++
  c (t.rank = 0 || 6 ≤ t.rank) 2 5 ++
  lo.flatMap (fun k => c (t.extAt k = 0) 3 (axisWord 0 k)) ++
  hi.flatMap (fun k => c (t.extAt k ≠ 0) 3 (axisWord 0 k) ++ c (t.strAt k ≠ 0) 3 (axisWord 1 k) ++
    c (t.box.getD k 0 ≠ 0) 3 (axisWord 2 k) ++ c (t.order.getD k 0 ≠ k) 3 6) ++
  c (!lo.all fun k => (t.order.take t.rank).contains k) 4 6 ++
  c (if t.space then !pool else !global) 5 3 ++
  c (rb && !t.bv) 6 3 ++
  c (fmtReserved t.fmt t.geo) 8 6

/-! Boxes. -/

/-- Digits of `p` in a mixed radix, lowest first. -/
def digits : List Nat → Nat → List Nat
  | [], _ => []
  | d :: t, p => p % d :: digits t (p / d)

/-- Index along source axis `k` of the element at destination coordinates `ds`. -/
def Tensor.along (t : Tensor) (ds : List Nat) (k : Nat) : Nat :=
  ((findIdx (· == k) t.order).map fun j => ds.getD j 0).getD 0

/-- Where a box element stands. -/
inductive Src where
  /-- Its coordinates, and its bit offset from BASE. -/
  | at (co : List Nat) (bit : Nat)
  /-- Outside: written as zero, as NaN, or not at all. -/
  | zero | nan | skip
  deriving DecidableEq, Repr

/-- The element at destination position `p` of a box at an origin (R186); `stores` for a destination box, whose outside
elements are never written. -/
def Tensor.elt (t : Tensor) (org : List Int) (bits : Nat) (stores : Bool) (p : Nat) : Src :=
  let ds := digits t.dims p
  let cs : List Int := (List.range 5).map fun k => if k < t.rank then org.getD k 0 + (t.along ds k : Int) else 0
  let out := (List.range t.rank).any fun k => let x := cs.getD k 0; decide (x < 0) || decide ((t.extAt k : Int) ≤ x)
  let place := fun (co : List Nat) =>
    Src.at co (co.getD 0 0 * bits + 8 * ((List.range 5).foldl (fun n k => n + t.strAt k * co.getD k 0) 0))
  if !out then place (cs.map Int.toNat)
  else if stores then .skip
  else
    match t.fill with
    | 0 => .zero
    | 1 => .nan
    | 2 => place ((List.range 5).map fun k => (max 0 (min ((t.extAt k : Int) - 1) (cs.getD k 0))).toNat)
    | _ => .skip

/-- Row index of destination position `p` (R187): destination axis 1, or 0 in a record of rank 1. -/
def Tensor.row (t : Tensor) (p : Nat) : Nat :=
  if t.rank = 1 then p % max 1 (t.dims.getD 0 1) else p / max 1 (t.dims.getD 0 1) % max 1 (t.dims.getD 1 1)

/-- The byte at packed position `q` of elements of `bits` bits: written where one of its elements is, the rest of it as
before (R90). -/
def streamByte (bits : Nat) (val : Nat → Option Nat) (old : Byte) (q : Nat) : Option Byte :=
  let touched := (List.range 8).any fun j => (val ((8 * q + j) / bits)).isSome
  if touched then
    some (BitVec.ofNat 8 ((List.range 8).foldl (fun n j =>
      let b := match val ((8 * q + j) / bits) with
        | some v => v.testBit ((8 * q + j) % bits)
        | none => old.getLsbD j
      if b then n + 2 ^ j else n) 0))
  else none

/-- Bytes that `n` elements of `bits` bits occupy. -/
def packedLen (n bits : Nat) : Nat := (n * bits + 7) / 8

/-- Single-copy units that hold an element at a bit address (R69, Table 4.1): address and bytes. -/
def eltUnits (bits bit : Nat) : List (Nat × Nat) :=
  if 8 ≤ bits then [(bit / 8, bits / 8)] else ((List.range ((bit + bits + 7) / 8 - bit / 8)).map fun j => (bit / 8 + j, 1))

/-- An element from the bytes at its address. -/
def eltFrom (bits bit : Nat) (byte : Nat → Byte) : Nat :=
  let n := (bit + bits + 7) / 8 - bit / 8
  ofBytes ((List.range n).map fun j => byte (bit / 8 + j)) / 2 ^ (bit % 8) % 2 ^ bits

/-! Streams. -/

/-- An element on its way: its bits, and the format and codebook index they are in (those of its own page under R97). -/
structure Elem where
  raw : Nat
  fmt : Nat
  cbi : Nat := 0
  deriving DecidableEq, Repr

/-- Its value. -/
def Elem.val (e : Elem) : FV := eltVal e.fmt e.raw

/-- The elements of a command on their way: sizes of the axes, the format, whether under MX, each element, none for one
that is not delivered; whether runs are padded: in a record of rank 1 a run's padding belongs to rows beyond the last (R42). -/
structure Stream where
  dims : List Nat
  fmt : Nat
  mx : Bool
  pads : Bool
  val : List (Option Elem)
  /-- Scale bytes that mxscale selected, by stream position of the first element they scale. -/
  scales : List (Nat × Nat)
  deriving DecidableEq, Repr

/-- Fields of a node (R201). -/
def nodeOp (n : DWord) : Nat := fld n 7 0
/-- FMT. -/
def nodeFmt (n : DWord) : Nat := fld n 11 8
/-- RND. -/
def nodeRnd (n : DWord) : Nat := fld n 14 12
/-- NSAT. -/
def nodeNsat (n : DWord) : Bool := fbit n 15
/-- ARG8. -/
def nodeArg8 (n : DWord) : Nat := fld n 23 16
/-- ARG24. -/
def nodeArg24 (n : DWord) : Nat := fld n 47 24

/-- The nodes of a graph. -/
def graphNodes (g : List DWord) : List DWord := (List.range (fld (wordAt g 0) 3 0)).map fun i => wordAt g (i + 1)

/-- Whether a graph holds a node. -/
def graphHas (g : List DWord) (op : Nat) : Bool := (graphNodes g).any fun n => nodeOp n == op

/-- A node's output format on an input format and MX flag; none where it does not accept them (Table 9.9). Table 5.4 has no
code for igather's .i32 indices: a stream of code 2, whose elements are 32 bits wide, carries them (DESIGN CHOICE, log entry 123). -/
def nodeType (n : DWord) (f : Nat) (mx : Bool) (tf : Nat) : Option (Nat × Bool) :=
  match nodeOp n with
  | 1 => if fmtNumeric f && !mx && fmtNumeric (nodeFmt n) then some (nodeFmt n, false) else none
  | 2 => if f = 2 && !mx && fmtMx (nodeFmt n) then some (nodeFmt n, true) else none
  | 3 => if mx && fmtMx f then some (2, false) else none
  | 4 => if f = 12 then some (4, false) else none
  | 5 => if f = 2 || f = 4 then some (12, false) else none
  | 10 => if f = 2 && !mx then some (tf, false) else none
  | 11 => if fmtNumeric f && !mx then some (2, false) else none
  | _ => some (f, mx)

/-- The format that a graph delivers, or none (R202); `tf` is the format of igather's table. -/
def graphType (tf : Nat) : List DWord → Nat → Bool → Option (Nat × Bool)
  | [], f, mx => some (f, mx)
  | n :: t, f, mx =>
    match nodeType n f mx tf with
    | some (g, m) => graphType tf t g m
    | none => none

/-- Whether the node runs in a direction: TCOPY, or TSTORE. -/
def nodeDir (n : DWord) (store : Bool) : Bool :=
  match nodeOp n with
  | 2 | 5 | 9 => store
  | 3 | 4 | 7 | 8 | 10 => !store
  | _ => true

/-- The rounding and saturation codes of a node that its target forbids (R98, R99, R201): the offending value. -/
def nodeRoundBad (n : DWord) : Option Nat :=
  if nodeOp n ≠ 1 && nodeOp n ≠ 2 then none
  else if 3 < nodeRnd n then some (nodeRnd n)
  else if nodeNsat n && (nodeFmt n = 10 || nodeFmt n = 11) then some 1
  else none

/-- Cutting a list into runs of `n`. -/
def runsOf {α : Type} (n : Nat) : Nat → List α → List (List α)
  | 0, _ => []
  | k + 1, l => if l.isEmpty || n = 0 then [] else l.take n :: runsOf n k (l.drop n)

/-- Position in the stream that delivers to `p` under tr16. -/
def tr16Src (dims : List Nat) (p : Nat) : Nat :=
  let d0 := max 1 (dims.getD 0 1)
  let d1 := max 1 (dims.getD 1 1)
  let x := p % d0
  let y := p / d0 % d1
  (p / (d0 * d1)) * (d0 * d1) + (16 * (y / 16) + x % 16) * d0 + 16 * (x / 16) + y % 16

/-- Conversion of an element to a format (R163): a conversion that every value survives never saturates (Table 8.6). -/
def eltCvt (f mode : Nat) (nsat : Bool) (e : Elem) : Nat :=
  let exact := match fmtFloat e.fmt, fmtFloat f with
    | some S, some D => e.fmt == f || widens S D
    | _, _ => false
  eltPut f mode (!nsat && !exact) e.val

/-- An entry of a codebook as BF16, a NaN as the canonical one (R88). -/
def cbEntry (cb : List (BitVec 16)) (i : Nat) : Nat :=
  let x := (cb.getD (i % 16) 0).toNat
  if (decodeF bf16 x).isNaN then bf16.qnan else x

/-- One node's effect on a stream. `cb` gives the codebook of an index, `cbq` is that of a cbq node, `sc` the scale byte of an input
element, `row` the elements of row i of igather's table. Elements that are not delivered take no part, and a run of which none is
delivered has no padding (DEDUCED, log entry 24). -/
def applyNode (cb : Nat → List (BitVec 16)) (cbq : List (BitVec 16)) (sc : Nat → Option Nat) (row : Nat → List (Option Nat)) (tf : Nat) (n : DWord) (st : Stream) :
    Stream :=
  let run := max 1 (st.dims.getD 0 1)
  match nodeOp n with
  | 1 =>
    { st with fmt := nodeFmt n
              val := st.val.map fun e => e.map fun x => { raw := eltCvt (nodeFmt n) (nodeRnd n) (nodeNsat n) x, fmt := nodeFmt n } }
  | 2 =>
    let groups := runsOf 32 st.val.length st.val
    let scs := groups.map fun g => mxScale (match fmtFloat (nodeFmt n) with | some F => emaxF F | none => 0)
      (g.filterMap fun e => e.map fun x => eltVal 2 x.raw)
    let put := fun (s x : Nat) =>
      let q := match scaleExp s with
        | some k => scaleFV (-k) (eltVal 2 x)
        | none => FV.nan
      if nodeFmt n = 10 then toIntF (nodeRnd n) 8 true (scaleFV 6 q) else eltPut (nodeFmt n) (nodeRnd n) (!nodeNsat n) q
    { st with fmt := nodeFmt n, mx := true
              val := (groups.zip scs).flatMap fun (g, s) => g.map fun e => e.map fun x => { raw := put s x.raw, fmt := nodeFmt n }
              scales := (List.range scs.length).map fun i => (32 * i, scs.getD i 0) }
  | 3 =>
    { st with fmt := 2, mx := false
              val := (List.range st.val.length).map fun p => ((st.val.getD p none).map fun x =>
                { raw := eltPut 2 0 false (match sc p with | some k => eltMx x.fmt k x.raw | none => x.val), fmt := 2 }) }
  | 4 => { st with fmt := 4, val := st.val.map fun e => e.map fun x => { raw := cbEntry (cb x.cbi) x.raw, fmt := 4 } }
  | 5 =>
    { st with fmt := 12
              val := st.val.map fun e => e.map fun x => { raw := cbIndex (cbq.map fun b => decodeF bf16 b.toNat) x.val, fmt := 12 } }
  | 6 => { st with val := (List.range st.val.length).map fun p => st.val.getD (tr16Src st.dims p) none }
  | 7 =>
    let w := max run (nodeArg24 n)
    { st with dims := st.dims.set 0 w
              val := (runsOf run st.val.length st.val).flatMap fun r =>
                r ++ List.replicate (w - run) (if st.pads && r.any Option.isSome then some { raw := 0, fmt := st.fmt } else none) }
  | 10 =>
    let rows := st.val.map fun e => match e with
      | some i => (row i.raw).map fun v => v.map fun x => { raw := x, fmt := tf }
      | none => (row 0).map fun _ => none
    { st with dims := st.dims.set 0 (run * max 1 (row 0).length), fmt := tf, mx := false, val := rows.flatten }
  | 11 =>
    { st with dims := st.dims.set 0 1, fmt := 2
              val := (runsOf run st.val.length st.val).map fun r =>
                if r.all Option.isNone then none
                else some { raw := eltPut 2 0 false (sumFV 0 (r.filterMap fun e => e.map Elem.val)), fmt := 2 } }
  | _ => st

/-- The sizes of the axes after a graph: run length of igather's rows `rl`. -/
def graphDims (rl : Nat) : List DWord → List Nat → List Nat
  | [], d => d
  | n :: t, d =>
    let run := max 1 (d.getD 0 1)
    graphDims rl t (match nodeOp n with
      | 7 => d.set 0 (max run (nodeArg24 n))
      | 10 => d.set 0 (run * rl)
      | 11 => d.set 0 1
      | _ => d)

/-- For each element that a graph delivers, the positions of the source elements that decide it; `rl` is the length of igather's
rows. Expand is no part of it: it is read in groups. -/
def graphDeps (rl : Nat) : List DWord → List Nat → List (List Nat) → List (List Nat)
  | [], _, v => v
  | n :: t, d, v =>
    let run := max 1 (d.getD 0 1)
    let next := graphDims rl [n] d
    graphDeps rl t next (match nodeOp n with
      | 2 => (runsOf 32 v.length v).flatMap fun g => g.map fun _ => g.flatten
      | 6 => (List.range v.length).map fun p => v.getD (tr16Src d p) []
      | 7 => (runsOf run v.length v).flatMap fun r => r ++ List.replicate (max run (nodeArg24 n) - run) []
      | 10 => v.flatMap fun e => List.replicate rl e
      | 11 => (runsOf run v.length v).map List.flatten
      | _ => v)

/-- The elements that compress writes for one group: mask bits, then the nonzero elements (Table 9.9). -/
def compressGroup (g : List (Option Elem)) : Nat × List Nat :=
  ((List.range g.length).foldl (fun m i => if (((g.getD i none).map (·.raw)).getD 0) = 0 then m else m + 2 ^ i) 0,
   g.filterMap fun e => match e with
     | some x => if x.raw = 0 then none else some x.raw
     | none => none)

/-- The bits that compress writes from BASE on: values with their widths. -/
def compressBits (bits : Nat) (v : List (Option Elem)) : List (Nat × Nat) :=
  (runsOf 32 v.length v).flatMap fun g =>
    let c := compressGroup g
    (c.1, 32) :: c.2.map fun x => (x, bits)

end Sys2Proof.Machine
end

