-- ==== Sys2Proof/Machine/EngineIssue.lean ====
section
/-! DEFINITION. The issue of engine commands (R185, R188, R189): reading the record, the checks, and taking the tiles. -/

namespace Sys2Proof.Machine

/-! Faults at issue. -/

/-- A malformed record (cause 0x07): subcode, word index, that word, where the record stands. -/
def recordFault (s : State) (r : Run) (sub word : Nat) (val : DWord) (addr asp : Nat) : State :=
  preciseFault s r { cause := 0x07, addr := dw addr, asp := asp, info0 := sub, info1 := word, aux := val }

/-- What an issue step gives: it goes on, holds with nothing changed, stays at issue in a state that notes what it waits
for, or a fault. -/
inductive Iss (α : Type) where
  | ok (a : α) (s : State)
  | hold
  | stay (s : State)
  | fault (s : State)

/-- One step after another. -/
def Iss.bind {α β : Type} (x : Iss α) (f : α → State → Iss β) : Iss β :=
  match x with
  | .ok a s => f a s
  | .hold => .hold
  | .stay s => .stay s
  | .fault s => .fault s

/-- A check that gives a fault. -/
def issCheck (s : State) (r : Run) (it : Item) (b : Option LaneBad) : Iss Unit :=
  match b with
  | some b => .fault (onceFault s r it b)
  | none => .ok () s

/-- Eight words from 64 bytes. -/
def wordsOf (bs : List Byte) (n : Nat) : List DWord :=
  (List.range n).map fun i => dw (ofBytes ((bs.drop (8 * i)).take 8))

/-- Bytes of the parameter window of a launch (R47). -/
def windowBytes (s : State) (w : Warp) (off n : Nat) : List Byte :=
  match ctxOf s w with
  | some c => ngetRange 0 c.param off n
  | none => List.replicate n 0

/-- Reading a 64-byte record from the pool, or from the parameter window with `prm` (R185). -/
def readRecord (s : State) (w : Warp) (r : Run) (it : Item) (prm : Bool) (a : Nat) : Iss (List DWord) :=
  if prm then
    if a % 64 ≠ 0 then .fault (onceFault s r it ⟨0x06, 6, dw a, 0⟩)
    else if ((ctxOf s w).map (·.psize)).getD 0 < a + 64 then .fault (recordFault s r 11 0 0 a 0)
    else .ok (wordsOf (windowBytes s w a 64) 8) s
  else
    (issCheck s r it (poolReadCheck s w a 64 64)).bind fun _ s =>
      let p := poolLoc s w a 64
      .ok (wordsOf (poolBytes s p.1 p.2 64) 8) s

/-- Reading a tensor record and making the checks that need no element size (R185). -/
def readTensor (s : State) (w : Warp) (r : Run) (it : Item) (prm global pool rb : Bool) (a : Nat) : Iss Tensor :=
  (readRecord s w r it prm a).bind fun ws s =>
    match tensorBads ws global pool rb with
    | (sub, k) :: _ => .fault (recordFault s r sub k (wordAt ws k) a (if prm then 0 else 2))
    | [] => .ok (parseTensor ws) s

/-! Pool ranges. -/

/-- Core and offset of the `n` bytes at BASE + `o`: the sum is a pool address, its member index among its bits (R186, R49). -/
def poolSpan (s : State) (w : Warp) (base o n : Nat) : Except Nat (Nat × Nat) :=
  if 2 ^ 32 ≤ base + o then .error 5 else poolAt s w (base + o) n

/-- The bounds fault of such a range. -/
def spanBad (s : State) (w : Warp) (base o n : Nat) : Option LaneBad :=
  match poolSpan s w base o n with
  | .error k => some ⟨0x20, k, dw (base + o), 2⟩
  | .ok _ => none

/-- Its core and offset. -/
def spanLoc (s : State) (w : Warp) (base o n : Nat) : Nat × Nat :=
  match poolSpan s w base o n with
  | .ok p => p
  | .error _ => (w.core, 0)

/-- Core and offset that a pool address names, its window aside (R32): what R361 judges, and where a range that is only written
in part stands. -/
def poolRaw (s : State) (w : Warp) (a : Nat) : Option (Nat × Nat) :=
  if 2 ^ 24 ≤ a then none else (memberCore s w (bitsN a 23 20)).map fun core => (core, bitsN a 19 0)

/-- A range by core, offset and length. -/
def rawRange (s : State) (w : Warp) (base o n : Nat) : Option (Nat × Nat × Nat) :=
  (poolRaw s w (base + o)).map fun p => (p.1, p.2, n)

/-- Its tiles. -/
def rawTiles (s : State) (w : Warp) (base o n : Nat) : List (Nat × Nat) :=
  match poolRaw s w (base + o) with
  | some p => (tilesOf p.2 n).map fun t => (p.1, t)
  | none => []

/-- Ascending numbers as runs: first, how many. -/
def runsAscending (l : List Nat) : List (Nat × Nat) :=
  (l.foldl (fun (acc : List (Nat × Nat)) q => match acc with
    | (a, n) :: t => if a + n = q then (a, n + 1) :: t else (q, 1) :: acc
    | [] => [(q, 1)]) []).reverse

/-- The control word: BAROFF and MASK (R188). -/
def ctlBar (ctl : Word) : Nat := bitsN ctl.toNat 31 12
/-- MASK. -/
def ctlMask (ctl : Word) : Nat := bitsN ctl.toNat 11 0

/-- Destination members of a TCOPY: MASK's, or the one A names. -/
def destMembers (ctl a : Word) : List Nat :=
  if ctlMask ctl = 0 then [bitsN a.toNat 23 20] else (List.range 12).filter fun m => (ctlMask ctl).testBit m

/-- Pool address of an offset on a member. -/
def onMember (m off : Nat) : Nat := m * 2 ^ 20 + off

/-! Boxes of a command. -/

/-- Format of the elements as a command's stream begins: a TSTORE with a graph begins in the record's (DEDUCED, log entry 26). -/
def Cmd.srcFmt (c : Cmd) : Nat :=
  match c.kind, c.graph, c.tens with
  | .tstore, some _, some t => t.fmt
  | _, _, _ => c.fmt

/-- The record, or an empty one. -/
def Cmd.tensor (c : Cmd) : Tensor := c.tens.getD (parseTensor [])

/-- Whether the box is a destination. -/
def Cmd.stores (c : Cmd) : Bool := c.kind == .tstore

/-- Bits of an element of the box as it stands in global memory or in the record's pool range. -/
def Cmd.bits (c : Cmd) : Nat := fmtBits c.fmt

/-- The box element at destination position `p`. -/
def Cmd.elt (c : Cmd) (p : Nat) : Src := c.tensor.elt c.org c.bits c.stores p

/-- Elements of the box. -/
def Cmd.count (c : Cmd) : Nat := c.tensor.count

/-- Positions of the rows that are processed (R42). -/
def Cmd.live (c : Cmd) : List Nat := (List.range c.count).filter fun p => decide (c.tensor.row p < c.vc)

/-- The graph's nodes. -/
def Cmd.nodes (c : Cmd) : List DWord :=
  match c.graph with
  | some g => graphNodes g
  | none => []

/-- The record of an igather node's table, read at issue. -/
def Cmd.table (c : Cmd) : Option Tensor := c.iters.head?.map (·.tens)

/-- Length of igather's rows, and the format of their elements. -/
def tableRow (c : Cmd) : Nat × Nat :=
  match c.table with
  | some t => (t.extAt 0, t.fmt)
  | none => (1, 0)

/-- Bits of an element as the stream delivers it. -/
def Cmd.outBits (c : Cmd) : Nat :=
  match graphType (tableRow c).2 c.nodes c.srcFmt (c.geo != 0 && fmtMx c.srcFmt) with
  | some (f, _) => fmtBits f
  | none => fmtBits c.srcFmt

/-- Elements that the stream delivers at most. -/
def Cmd.outCount (c : Cmd) : Nat := (graphDims (tableRow c).1 c.nodes c.tensor.dims).foldl (· * ·) 1

/-- Bytes of the packed side of a copy. -/
def Cmd.packed (c : Cmd) : Nat :=
  match c.kind with
  | .pcopy => c.len
  | .tstore => packedLen c.count (fmtBits c.srcFmt)
  | _ => packedLen (c.outCount) (c.outBits)

/-- The codebook of an index (R94). -/
def Cmd.book (c : Cmd) (i : Nat) : List (BitVec 16) := ((c.books.find? fun e => e.1 == i).map (·.2)).getD []

/-- A command's stream as it begins. -/
def Cmd.stream (c : Cmd) (v : List (Option Elem)) : Stream :=
  { dims := c.tensor.dims, fmt := c.srcFmt, mx := c.geo != 0, pads := c.tensor.rank ≠ 1 || decide (c.tensor.dims.getD 0 1 ≤ c.vc)
    val := v, scales := [] }

/-- Which positions of the delivered stream hold an element, by a stream of zeros. -/
def Cmd.pattern (c : Cmd) : List Bool :=
  let val := (List.range c.count).map fun p =>
    if c.tensor.row p < c.vc && c.elt p != .skip then some { raw := 0, fmt := c.srcFmt } else (none : Option Elem)
  let st := c.stream val
  let rl := (tableRow c).1
  (c.nodes.foldl (fun st n => applyNode (fun _ => []) [] (fun _ => none) (fun _ => List.replicate rl (some 0)) (tableRow c).2 n st) st).val.map
    Option.isSome

/-- Bytes of the packed side that are moved: where the pattern has an element (DEDUCED, log entry 63); a TSTORE's graph reads
the whole source. -/
def Cmd.writesByte (c : Cmd) (pat : List Bool) (bits q : Nat) : Bool :=
  match c.kind, c.graph with
  | .pcopy, _ => true
  | .tstore, some _ => true
  | _, _ => (List.range 8).any fun j => pat.getD ((8 * q + j) / bits) false

/-- The pattern where it matters. -/
def Cmd.side1 (c : Cmd) : List Bool := if c.kind = .pcopy then [] else c.pattern

/-- Width of an element on the packed side. -/
def Cmd.packBits (c : Cmd) : Nat := if c.kind = .tstore then fmtBits c.srcFmt else c.outBits

/-- The packed positions that are moved, as runs: what its bounds are judged by, so that a skipped row raises no fault (R42). -/
def Cmd.moved (c : Cmd) : List (Nat × Nat) :=
  let pat := c.side1
  runsAscending ((List.range c.packed).filter (c.writesByte pat c.packBits))

/-- Tiles of the packed side that hold a byte of a processed element (R42, R52): numbers from the tile of its first byte. -/
def Cmd.chunks (c : Cmd) : List Nat :=
  let off := if c.kind = .bload then 0 else bitsN c.a.toNat 9 0
  let n := c.packed
  let pat := c.side1
  (List.range ((off + n + 1023) / 1024)).filter fun j =>
    (List.range 1024).any fun i => decide (off ≤ 1024 * j + i) && decide (1024 * j + i < off + n) &&
      c.writesByte pat c.packBits (1024 * j + i - off)

/-- Pool byte offsets, from BASE, of the elements of a pool record's box: offset and bytes. -/
def Cmd.poolSpans (c : Cmd) : List (Nat × Nat) :=
  (c.live.filterMap fun p => match c.elt p with
    | .at _ bit => some (bit / 8, (bit + c.bits + 7) / 8 - bit / 8)
    | _ => none).eraseDups

/-- Global byte addresses of elements of the box: address and bytes. -/
def Cmd.spansAt (c : Cmd) (ps : List Nat) : List (Nat × Nat) :=
  (ps.filterMap fun p => match c.elt p with
    | .at _ bit => some (c.tensor.base + bit / 8, (bit + c.bits + 7) / 8 - bit / 8)
    | _ => none).eraseDups

/-- Those of the processed elements. -/
def Cmd.globalSpans (c : Cmd) : List (Nat × Nat) := c.spansAt c.live

/-- Address of an element's scale byte, as Config.scaleOffset lays out the scale tensor: the 32 elements of a block, which follow one
another on the axis that the geometry names (R92, Table 5.5), share one (DESIGN CHOICE, log entry 25). -/
def Cmd.scaleAddr (c : Cmd) (geo p : Nat) : Option Nat :=
  match c.elt p with
  | .at co _ => some (c.tensor.scale + Config.scaleOffset geo c.tensor.ext (co.set (geo - 1) (co.getD (geo - 1) 0 / 32)))
  | _ => none

/-- Whether the command reads or writes scale bytes of its record's scale tensor. -/
def Cmd.usesScales (c : Cmd) : Bool :=
  match c.kind with
  | .bload | .chrun => c.geo != 0 && fmtMx c.fmt
  | _ => c.nodes.any fun n => nodeOp n == 2 || nodeOp n == 3

/-- Most bytes that compress and expand move from BASE on for the positions `ps`: groups beyond their last are not reached (R42). -/
def Cmd.denseLen (c : Cmd) (ps : List Nat) : Nat :=
  let n := if ps.isEmpty then 0 else ps.foldl max 0 / 32 + 1
  4 * n + packedLen (32 * n) c.bits

/-- Global addresses that the command reaches beside its elements: its scale bytes, the bytes of expand and compress. -/
def Cmd.extraSpans (c : Cmd) (ps : List Nat) : List (Nat × Nat) :=
  (if c.usesScales then (ps.filterMap (c.scaleAddr (max 1 c.geo))).eraseDups.map fun a => (a, 1) else []) ++
    if (c.nodes.any fun n => nodeOp n == 8 || nodeOp n == 9) && !ps.isEmpty then [(c.tensor.base, c.denseLen ps)] else []

/-! Step 4 of R189. -/

/-- The format in force over a page of format `pf`: none where the record's override leaves its family (R97). -/
def formatOver (t : Tensor) (pf : Nat) : Option Nat :=
  if t.fovr then (if fmtFamily pf t.fmt then some t.fmt else none) else if pf = 0 then some t.fmt else some pf

/-- Address of the first inside element among positions, in format `f`. -/
def firstInside (c : Cmd) (f : Nat) (ps : List Nat) : Option Nat := (Cmd.spansAt { c with fmt := f } ps).head?.map (·.1)

/-- What the first page gives. -/
structure PageFmt where
  fmt : Nat
  geo : Nat
  cbi : Nat
  deriving DecidableEq, Repr

/-- What the record gives where no page is asked. -/
def Tensor.own (t : Tensor) : PageFmt := ⟨t.fmt, t.geo, t.cbi⟩

/-- The format under one leaf, or a fault (R96, R97). -/
def leafFormat (t : Tensor) (va : Nat) (e : DWord) : Except LaneBad PageFmt :=
  if fmtReserved (leafFMT e) (leafGEO e) then .error ⟨0x45, 6, dw va, 1⟩
  else
    match formatOver t (leafFMT e) with
    | none => .error ⟨0x23, 1, dw va, 1⟩
    | some f => .ok (if t.fovr || leafFMT e = 0 then ⟨f, t.geo, t.cbi⟩ else ⟨f, leafGEO e, leafCBI e⟩)

/-- A command at issue meets a page that no leaf maps. It stays at issue and asks the fault unit for the page; a report on the
page then stops its group here, where it goes on after TRET (DESIGN CHOICE, log entry 124). -/
def wantPage {α : Type} (s : State) (w : Warp) (r : Run) (it : Item) (va : Nat) : Iss α :=
  match w.deferred with
  | (ws, lanes) :: t =>
    let s := { s with cur := { w with deferred := t }, wants := s.wants.filter fun x => x.warp != w.uid }
    .fault (stopWith s ws (lanes &&& w.live) r.grp (some r))
  | [] =>
    let x : Want := { tenant := tenantOf s w, page := va / 65536, warp := w.uid, lanes := r.grp, pc := r.pc, insn := it.raw }
    if s.wants.any fun y => y.warp == x.warp && y.page == x.page && y.tenant == x.tenant then .stay s
    else .stay { s with wants := s.wants ++ [x] }

/-- Translating the page of a box's first element: its format (DEDUCED, log entry 27). -/
def firstPage (s : State) (w : Warp) (r : Run) (it : Item) (t : Tensor) (va : Nat) (acc : Acc) : Iss PageFmt :=
  if 2 ^ 60 ≤ va then .fault (onceFault s r it ⟨0x05, 0, dw va, 1⟩)
  else
  match findLeaf s (coreShelf w.core) (tenantOf s w) va with
  | (.invalid _, s) => wantPage s w r it va
  | (.bad sub, s) => .fault (onceFault s r it ⟨0x45, sub, dw va, 1⟩)
  | (.leaf e g, s) =>
    match leafAccess s (coreShelf w.core) (tenantOf s w) va acc 2 e g with
    | .bad c i a asp => .fault (onceFault s r it ⟨c, i, dw a, asp⟩)
    | _ =>
      match leafFormat t va e with
      | .error b => .fault (onceFault s r it b)
      | .ok f => .ok f s

/-- The format under the page of an element whose row is skipped: translating it raises no fault (R42), so that a page that gives
none leaves the record's. -/
def quietPage (s : State) (w : Warp) (t : Tensor) (va : Nat) (acc : Acc) : PageFmt :=
  if 2 ^ 60 ≤ va then t.own
  else
    match (findLeaf s (coreShelf w.core) (tenantOf s w) va).1 with
    | .leaf e g =>
      (match leafAccess s (coreShelf w.core) (tenantOf s w) va acc 2 e g, leafFormat t va e with
       | .bad _ _ _ _, _ => t.own
       | _, .error _ => t.own
       | _, .ok f => f)
    | _ => t.own

/-- Fixing the element format (R189 step 4) from the processed positions `ps`: the first element's address is found with the
record's element size, and again with the page's where that differs (DEDUCED, log entry 27). A box that is skipped whole asks
the page of its first inside element without a fault (R42). -/
def fixFormat (s : State) (w : Warp) (r : Run) (it : Item) (c : Cmd) (ps : List Nat) : Iss PageFmt :=
  let t := c.tensor
  let acc := if c.stores then Acc.write else Acc.read
  if t.space then .ok t.own s
  else
    match firstInside c t.fmt ps with
    | none =>
      (match firstInside c t.fmt (List.range c.count) with
       | some va => .ok (quietPage s w t va acc) s
       | none => .ok t.own s)
    | some va =>
      (firstPage s w r it t va acc).bind fun f s =>
        match firstInside c f.fmt ps with
        | none => .ok f s
        | some va' => if va' / 65536 = va / 65536 then .ok f s else firstPage s w r it t va' acc

/-- The packed size and sub-byte BOX0 (Table 20.6, subcode 7), then the canonical form of the addresses of the processed
positions `ps` (R46; no later tile raises it, R354), the origin's byte position and BASE's alignment (R186, R46). -/
def boxBad (c : Cmd) (ps : List Nat) : Option (Except Nat LaneBad) :=
  let t := c.tensor
  let b := c.bits
  let asp := if t.space then 2 else 1
  let far := if t.space then [] else (c.spansAt ps ++ c.extraSpans ps).filter fun e => decide (2 ^ 60 < e.1 + e.2)
  if 0x80000 < packedLen c.count b || (b < 8 && t.boxAt 0 * b % 8 ≠ 0) then some (.error 7)
  else if let some e := far.head? then some (.ok ⟨0x05, 0, dw (max e.1 (2 ^ 60)), 1⟩)
  else if (c.org.getD 0 0 * (b : Int)) % 8 ≠ 0 then some (.ok ⟨0x06, 0, dw t.base, asp⟩)
  else if t.space && t.base % 16 ≠ 0 then some (.ok ⟨0x06, 4, dw t.base, 2⟩)
  else if 8 < b && t.base % (b / 8) ≠ 0 then some (.ok ⟨0x06, Nat.log2 (b / 8), dw t.base, asp⟩)
  else none

/-- Graph typing and shape (R202): a fault, or subcode 9. -/
def graphBad (c : Cmd) : Option (Except Nat LaneBad) :=
  match c.graph with
  | none => none
  | some g =>
    let t := c.tensor
    let va := (firstInside c c.fmt c.live).getD t.base
    match graphType (tableRow c).2 (graphNodes g) c.srcFmt (c.geo != 0 && fmtMx c.srcFmt) with
    | none => some (.ok ⟨0x23, 3, dw va, 1⟩)
    | some (f, _) =>
      if c.stores && f ≠ c.fmt then some (.ok ⟨0x23, 3, dw va, 1⟩)
      else if ((graphHas g 8 || graphHas g 9) && c.count % 32 ≠ 0) ||
          (graphHas g 6 && (t.boxAt 0 % 16 ≠ 0 || t.boxAt 1 % 16 ≠ 0)) then some (.error 9)
      else none

/-- The first bytes that ranges of two lists share: core and offset. -/
def sharedBytes (a b : List (Nat × Nat × Nat)) : List (Nat × Nat) :=
  a.flatMap fun x => b.filterMap fun y =>
    if x.1 = y.1 && x.2.1 < y.2.1 + y.2.2 && y.2.1 < x.2.1 + x.2.2 then some (x.1, max x.2.1 y.2.1) else none

/-- The lowest of some numbers. -/
def lowest (l : List Nat) : Option Nat := l.foldl (fun m x => some (match m with | some y => min x y | none => x)) none

/-- The copy-overlap fault at the lowest shared byte (R361). -/
def sharedBad (s : State) (w : Warp) (sub : Nat) (l : List (Nat × Nat)) : Option LaneBad :=
  (lowest (l.map fun p => (memberAddr s w.key p.1 p.2).toNat)).map fun a => ⟨0x08, sub, dw a, 2⟩

/-- Whether an access of another warp of the core is on its way over the Causeway, so that a command that takes tiles
waits (R52): some of its lanes may lead to those tiles. -/
def transitOut (s : State) (w : Warp) (tiles : List (Nat × Nat)) : Bool :=
  !tiles.isEmpty && s.allWarps.any fun x => x.core == w.core && x.uid != w.uid && match x.run with
    | some r => r.transit
    | none => false

/-- Whether a tile stands at 15 (R52). -/
def tileFull (s : State) (tiles : List (Nat × Nat)) : Bool := tiles.any fun t => decide (15 ≤ tileCount s t.1 t.2)

/-- Whether a command held before the warp's at this core could go on now: it is examined first (R52). -/
def heldBefore (s : State) (w : Warp) : Bool :=
  let mine := (s.held.filter fun h => h.core == w.core).takeWhile fun h => h.warp != w.uid
  mine.any fun h => !tileFull s h.tiles && s.allWarps.any fun x => x.uid == h.warp && x.core == h.core && x.run.isSome

/-- A command of the warp is no longer held. -/
def unhold (s : State) (uid : Nat) : State :=
  { s with held := s.held.filter fun h => h.warp != uid, wants := s.wants.filter fun x => x.warp != uid }

/-- A command held by a full tile, at its place among those held. -/
def holdCmd (s : State) (w : Warp) (tiles : List (Nat × Nat)) : State :=
  if s.held.any fun h => h.warp == w.uid then
    { s with held := s.held.map fun h => if h.warp == w.uid then { h with tiles := tiles } else h }
  else { s with held := s.held ++ [⟨w.core, w.uid, tiles⟩] }

/-- Raising the counts of tiles. -/
def takeTiles (s : State) (tiles : List (Nat × Nat)) : State :=
  tiles.foldl (fun s t => tileSet s t.1 t.2 (tileCount s t.1 t.2 + 1)) s

/-- Lowering them. -/
def releaseTiles (s : State) (tiles : List (Nat × Nat)) : State :=
  tiles.foldl (fun s t => tileSet s t.1 t.2 (tileCount s t.1 t.2 - 1)) s

/-- A command's release of tiles is a signal of its thread to whoever performs on them afterwards (Table 4.4, R79). -/
def markTiles (s : State) (gs : List Sig) (tiles : List (Nat × Nat)) : State :=
  { s with tileSigs := tiles.foldl (fun m t => let k := 512 * t.1 + t.2; nset [] m k (nget [] m k ++ gs).eraseDups) s.tileSigs }

/-- Whether the operand log of the warp names a page of the box (R301). -/
def boxLogged (w : Warp) (c : Cmd) (ps : List Nat) : Bool :=
  !w.olog.isEmpty && !c.tensor.space && (c.spansAt ps).any fun e => pageLogged w e.1

/-- The 16 entries that 32 bytes hold. -/
def bookOf (bs : List Byte) : List (BitVec 16) := (List.range 16).map fun j => BitVec.ofNat 16 (ofBytes ((bs.drop (2 * j)).take 2))

/-- Reading a codebook (R94): a fault with CBBASE.V clear; no entries where it is poisoned, which whoever consumes it meets (DEDUCED,
log entry 139). Where its table's page is not resident the command stays at issue and asks the fault unit for the page: R94 does not
say what happens then (DESIGN CHOICE, log entry 124). -/
def readCodebook (s : State) (w : Warp) (r : Run) (it : Item) (i : Nat) : Iss (List (BitVec 16)) :=
  let base := shelfReg s (coreShelf w.core) 0x10 (tenantOf s w)
  let va := fld base 59 13 * 8192 + 32 * i
  if !fbit base 0 then .fault (onceFault s r it ⟨0x24, 1, dw va, 1⟩)
  else
    match translate s (coreShelf w.core) (tenantOf s w) va .read 1 with
    | (.ok pa _, s) =>
      let bs := (List.range 4).foldl (fun (acc : List Byte × RowView × State) j =>
        let x := readElem acc.2.2 (lowLane r.grp) false acc.2.1 (pa + 8 * j) 8
        (acc.1 ++ x.1, x.2)) ([], rowViewOf s 8 ((List.range 4).map fun j => (lowLane r.grp, pa + 8 * j)), s)
      let bad := unitPoison s w.core false pa 32 || stagedPoison s w.core w.uid pa 32
      .ok (if bad then [] else bookOf bs.1) bs.2.2
    | (.zero _, s) => .ok (List.replicate 16 0) s
    | (.park _, s) => wantPage s w r it va
    | (.bad c k a asp, s) => .fault (onceFault s r it ⟨c, k, dw a, asp⟩)

/-- Codebooks by index. -/
def readBooks (s : State) (w : Warp) (r : Run) (it : Item) : List Nat → Iss (List (Nat × List (BitVec 16)))
  | [] => .ok [] s
  | i :: t => (readCodebook s w r it i).bind fun cb s => (readBooks s w r it t).bind fun l s => .ok ((i, cb) :: l) s

/-- The indexes of the codebooks that the pages of the positions `ps` of a CB4 box name, that of the first page in front (R96, R97);
a page that does not translate is passed over. -/
def pageBooks (s : State) (w : Warp) (c : Cmd) (first : Nat) (ps : List Nat) : List Nat :=
  (first :: if c.tensor.space then [] else
    (distinct ((c.spansAt ps).map (·.1)) (· / 65536)).filterMap fun page =>
      let f := quietPage s w c.tensor (65536 * page) .read
      if f.fmt = 12 then some f.cbi else none).eraseDups

/-- A command with what every command samples. -/
def newCmd (w : Warp) (r : Run) (it : Item) (kind : CmdKind) : Cmd :=
  { id := 0, kind := kind, warp := w.uid, core := w.core, ctx := w.ctx, clu := w.clu, bid := w.bid, wid := w.wid,
    lanes := r.grp, insn := it.raw, lit := it.f.lit.getD 0, pc := r.pc, phase := nget [] w.phase (lowLane r.grp), sig := [laneSig w (lowLane r.grp)] }

/-- The credits of zero bytes of a command with nothing to write (R43) (DEDUCED, log entry 83). -/
def zeroCredits (s : State) (c : Cmd) : List Credit :=
  let cores := match c.kind with
    | .tcopy => (destMembers c.ctl c.a).filterMap (memberCore s s.cur)
    | .pcopy | .pcopyR => [((memberCore s s.cur (bitsN c.a.toNat 23 20)).getD c.core)]
    | _ => [c.core]
  if c.kind = .preft then [] else cores.map fun k => ⟨c.ctx, c.clu, k, c.bar.toNat % 2 ^ 20, 0, c.sig⟩

/-- Steps 5 and 6 of R189: the command waits for its tiles, behind those held earlier, and accesses under way, then takes its tiles,
reads its codebooks (`reads`) and is under way; one that has nothing to write is complete at once (R43). -/
def startCmd (s : State) (r : Run) (it : Item) (c : Cmd) (at0 : Cmd → State → State := fun _ s => s)
    (reads : Cmd → State → Iss Cmd := fun c s => .ok c s) : Iss State :=
  let w := s.cur
  if tileFull s c.tiles then .stay (holdCmd s w c.tiles)
  else if heldBefore s w || transitOut s w c.tiles then .hold
  else
    (reads c s).bind fun c s =>
    let s := at0 c (unhold s w.uid)
    if c.units = 0 then .ok (finish { s with credits := s.credits ++ zeroCredits s c } r it) s
    else
      let (id, s) := takeId s
      let c := { c with id := id, floor := w.seen, saving := (clusterOf s w).any fun k => k.saving.isSome }
      .ok (finish (takeTiles { s with cmds := s.cmds ++ [c] } c.tiles) r it) s

/-- The outcome of the issue steps: a hold leaves the machine as it was. -/
def issued (s : State) (x : Iss State) : State :=
  match x with
  | .ok s' _ => s'
  | .hold => s
  | .stay s' => s'
  | .fault s' => s'

end Sys2Proof.Machine
end

