-- ==== Sys2Proof/Machine/Engine.lean ====
section
/-! DEFINITION. The engine commands at issue (R187 to R200). -/

namespace Sys2Proof.Machine

/-! Checks of the fields. -/

/-- MOD bits [hi:lo] that a layout marks zero. -/
def modZero (it : Item) (hi lo : Nat) : List Bad := encBad (it.m hi lo ≠ 0) 7 lo

/-- DC = 7 (Table 20.3). -/
def dcBads (it : Item) : List Bad := encBad (it.m 63 61 = 7) 7 61

/-- DST names the s register of the control word (R188). -/
def ctlBads (s : State) (w : Warp) (it : Item) : List Bad :=
  encBad (0x80 ≤ it.d) 5 (dstLow it) ++ opdBad (slim s w ≤ it.d) 3 it.d

/-- C names the first origin register: n + `more` is at most 127 (R188). -/
def originBads (it : Item) (more : Nat) : List Bad := opdBad (127 < it.code .c - 0x100 + more) 8 (it.code .c)

/-- `n` s registers that a field names beside its own: none stands at or above UREGS (Table 20.4; those beyond s127 are its limit's,
DEDUCED, log entry 148). -/
def sRegsBad (s : State) (w : Warp) (first n info : Nat) : List Bad :=
  opdBad (n ≠ 0 && first < 128 && slim s w < min (first + n) 128) 3 info

/-- First register of the origin. -/
def originReg (it : Item) : Nat := it.code .c - 0x100

/-- The s registers that a command reads beside A and B: control word and origin. -/
def engineRegs (it : Item) (more : Nat) : List (Nat × Nat) :=
  (1, it.d) :: (List.range (more + 1)).map fun j => (1, it.code .c - 0x100 + j)

/-- Graph of the command: its number is the literal's. -/
def graphOf (s : State) (w : Warp) (it : Item) : Option (List DWord) :=
  if it.mb 60 then (ctxOf s w).bind fun c => c.graphs[(it.f.lit.getD 0).toNat % 256]? else none

/-- Checks of a graph (R188, R202): extended form, literal, number, direction, igather first, rounding and saturation (R98, R99). -/
def graphBads (s : State) (w : Warp) (it : Item) (store : Bool) (used : List Fld) : List Bad :=
  if !it.mb 60 then []
  else
    let lit := (it.f.lit.getD 0).toNat
    let g := (graphOf s w it).getD []
    let nodes := graphNodes g
    encBad it.f.lit.isNone 10 0 ++ encBad (lit / 256 ≠ 0) 7 8 ++ encBad (used.any fun x => it.code x == 0x1FF) 4 0 ++
      opdBad (fld (khdrWord s w 5) 8 4 ≤ lit % 256) 12 (lit % 256) ++
      opdBad (!nodes.all (nodeDir · store) || !fbit (wordAt g 0) (if store then 5 else 4) ||
        (nodes.drop 1).any fun n => nodeOp n == 10) 12 (lit % 256) ++
      opdBad (nodes.any fun n => (nodeRoundBad n).isSome) 6 ((nodes.findSome? nodeRoundBad).getD 0)

/-- MASK is nonzero only in TCOPY (R188) (DEDUCED, log entry 60). -/
def maskBads (w : Warp) (it : Item) : List Bad := opdBad (ctlMask (sget w it.d) ≠ 0) 8 (ctlMask (sget w it.d))

/-- A uniform operand's value. -/
def uniVal (s : State) (w : Warp) (r : Run) (it : Item) (x : Fld) : Nat := operand s w r it vtCount x 0

/-- The box origin that C names, one s register an axis of the record (R188, R227): an axis at or above RANK has none, and counts
as 0. -/
def originOf (w : Warp) (it : Item) (rank : Nat) : List Int :=
  (List.range 5).map fun j => if j < rank then signedOf 32 (sget w (it.code .c - 0x100 + j)).toNat else 0

/-! Shared steps. -/

/-- A record whose box starts at the origin that C names: one declared register for each of its axes (R188, R189 step 3). -/
def readAtOrigin (s : State) (w : Warp) (r : Run) (it : Item) (prm global pool rb : Bool) (a : Nat) : Iss Tensor :=
  (readTensor s w r it prm global pool rb a).bind fun t s =>
    match firstBad (sRegsBad s w (originReg it) t.rank (it.code .c)) with
    | some b => .fault (badTrap s r it b)
    | none => .ok t s

/-- A 16-byte aligned engine address (Table 20.5). -/
def align16 (a asp : Nat) : Option LaneBad := if a % 16 ≠ 0 then some ⟨0x06, 4, dw a, asp⟩ else none

/-- The barrier object's offset: the record's BAR under RB, otherwise BAROFF (R188). -/
def barOffset (it : Item) (ctl : Word) (t : Tensor) : Nat := if it.mb 55 then 16 * t.bar else ctlBar ctl

/-- The first of several checks that fails. -/
def firstOf (l : List (Option LaneBad)) : Option LaneBad := l.findSome? id

/-- A check whose failure is a subcode of the malformed record, or a fault. -/
def issBox (s : State) (r : Run) (it : Item) (t : Tensor) (addr asp : Nat) (x : Option (Except Nat LaneBad)) : Iss Unit :=
  match x with
  | none => .ok () s
  | some (.ok b) => .fault (onceFault s r it b)
  | some (.error sub) =>
    .fault (recordFault s r sub 5 (dw (t.fill * 2 ^ 30 + t.rank * 2 ^ 27 + t.box.getD 2 0 * 2 ^ 18 + t.box.getD 1 0 * 2 ^ 9 +
      t.box.getD 0 0 + t.str.getD 4 0 * 2 ^ 32)) addr asp)

/-- Step 4 of R189 on formats and the box: format, typing, size, shape. -/
def fixBox (s : State) (w : Warp) (r : Run) (it : Item) (c : Cmd) (addr : Nat) : Iss (Cmd × Nat) :=
  (fixFormat s w r it c c.live).bind fun f s =>
    let c := { c with fmt := f.fmt, geo := f.geo }
    let g := graphBad c
    let typing := match g with
      | some (.ok b) => some (.ok b)
      | _ => none
    let asp := if it.mb 59 then 0 else 2
    (issBox s r it c.tensor addr asp typing).bind fun _ s =>
      (issBox s r it c.tensor addr asp (boxBad c c.live)).bind fun _ s =>
        (issBox s r it c.tensor addr asp g).bind fun _ s => .ok (c, f.cbi) s

/-- The bounds of the barrier object on a member, and whether it lies in one of the tiles (R191, Table 20.7). -/
def barBad (s : State) (w : Warp) (m off : Nat) (tiles : List (Nat × Nat)) : Option LaneBad :=
  (spanBad s w (onMember m 0) off 16).or
    (let p := spanLoc s w (onMember m 0) off 16
     if tiles.contains (p.1, p.2 / 1024) then some ⟨0x08, 1, dw (onMember m off), 2⟩ else none)

/-- Bounds of the packed side of a copy that stands at `base` + `o`: the bytes that are moved are judged (R42, R49). -/
def packBad (s : State) (w : Warp) (c : Cmd) (base o : Nat) : Option LaneBad :=
  c.moved.findSome? fun e =>
    if o + e.1 < 2 ^ 20 then spanBad s w base (o + e.1) e.2 else spanBad s w base o (e.1 + e.2)

/-- The tiles of the packed side that are taken (R52): those that hold a byte of a processed element. -/
def packTiles (s : State) (w : Warp) (c : Cmd) (base o : Nat) : List (Nat × Nat) :=
  match poolRaw s w (base + o) with
  | some p => c.chunks.map fun j => (p.1, p.2 / 1024 + j)
  | none => []

/-- Out-of-bounds element of a pool record's box. -/
def boxSpanBad (s : State) (w : Warp) (c : Cmd) : Option LaneBad :=
  c.poolSpans.findSome? fun e => spanBad s w c.tensor.base e.1 e.2

/-- The bytes that the full box of a pool record reaches, extents ignored: core, offset, length (R361). -/
def Cmd.fullRanges (s : State) (w : Warp) (c : Cmd) : List (Nat × Nat × Nat) :=
  let t := c.tensor
  (List.range t.count).filterMap fun p =>
    let ds := digits t.dims p
    let cs : List Int := (List.range 5).map fun k => if k < t.rank then c.org.getD k 0 + (t.along ds k : Int) else 0
    let bit : Int := 8 * (t.base : Int) + cs.getD 0 0 * (c.bits : Int) +
      8 * ((List.range 5).foldl (fun n k => n + (t.strAt k : Int) * cs.getD k 0) 0)
    if bit < 0 then none
    else
      let b := bit.toNat
      rawRange s w 0 (b / 8) ((b + c.bits + 7) / 8 - b / 8)

/-- Tiles of ranges. -/
def rangeTiles (l : List (Nat × Nat × Nat)) : List (Nat × Nat) :=
  (l.flatMap fun x => (tilesOf x.2.1 x.2.2).map fun t => (x.1, t)).eraseDups

/-- The tiles of a pool record's box. -/
def boxTiles (s : State) (w : Warp) (c : Cmd) : List (Nat × Nat) :=
  (c.poolSpans.flatMap fun e => rawTiles s w c.tensor.base e.1 e.2).eraseDups

/-! TCOPY. -/

/-- The igather table of a command: its record's checks and bounds, its byte range and tiles (DEDUCED, log entry 24). -/
def tableIssue (s : State) (w : Warp) (r : Run) (it : Item) (c : Cmd) : Iss (List Iter × List (Nat × Nat × Nat)) :=
  match c.nodes.find? fun n => nodeOp n == 10 with
  | none => .ok ([], []) s
  | some n =>
    (readTensor s w r it false false true false (onMember 14 (bitsN (nodeArg24 n) 19 6 * 64))).bind fun t s =>
      let len := (t.extAt 1 - 1) * t.strAt 1 + packedLen (t.extAt 0) (fmtBits t.fmt)
      (issCheck s r it (spanBad s w t.base 0 len)).bind fun _ s =>
        let p := spanLoc s w t.base 0 len
        .ok ([{ tens := t, org := [] }], [(p.1, p.2, len)]) s

/-- The codebooks that a stream graph needs (R94): those of a cbdec node's pages, and the one that a cbq node names. -/
def graphBooks (r : Run) (it : Item) (cbi : Nat) (c : Cmd) (s : State) : Iss Cmd :=
  let dec := c.nodes.any fun n => nodeOp n == 4
  let q := c.nodes.find? fun n => nodeOp n == 5
  (readBooks s s.cur r it (if dec then pageBooks s s.cur c cbi c.live else [])).bind fun l s =>
    (readBooks s s.cur r it (q.map nodeArg8).toList).bind fun l2 s =>
      .ok { c with books := l, codebook2 := (l2.head?.map (·.2)).getD [] } s

/-- The steps of R189 from the record on, for TCOPY. -/
def tcopySteps (s : State) (w : Warp) (r : Run) (it : Item) : Iss State :=
  let a := uniVal s w r it .a
  let b := uniVal s w r it .b
  let ctl := sget w it.d
  (readAtOrigin s w r it (it.mb 59) true false (it.mb 55) b).bind fun t s =>
    let bar := barOffset it ctl t
    let vc := if it.mb 58 then (sget w (it.code .c - 0x100 + 5)).toNat % 2 ^ 16 else w.vcnt.toNat % 2 ^ 16
    let nc := ((clusterOf s w).map (·.cores.length)).getD 0
    let mems := destMembers ctl (w32 a)
    let high := bitsN a 31 24 * 2 ^ 24
    let c : Cmd := { newCmd w r it .tcopy with
      ctl := ctl, a := w32 a, b := w32 b, tens := some t, org := originOf w it t.rank, fmt := t.fmt, geo := t.geo,
      vc := vc, graph := graphOf s w it, bar := w32 bar }
    (issCheck s r it (firstOf [align16 a 2, align16 bar 2,
      if ctlMask ctl / 2 ^ nc ≠ 0 then some ⟨0x20, 4, dw a, 2⟩ else none])).bind fun _ s =>
    (tableIssue s w r it c).bind fun (its, tab) s =>
    (fixBox s w r it { c with iters := its } b).bind fun (c, cbi) s =>
    let len := c.packed
    let off := bitsN a 19 0
    let all := mems.flatMap fun m => rawTiles s w (high + onMember m 0) off len
    (issCheck s r it (firstOf (mems.map fun m => packBad s w c (high + onMember m 0) off))).bind fun _ s =>
    let dst := mems.filterMap fun m => rawRange s w (high + onMember m 0) off len
    (issCheck s r it (sharedBad s w 2 (sharedBytes tab dst))).bind fun _ s =>
    (issCheck s r it (firstOf (mems.map fun m => barBad s w m bar (all ++ rangeTiles tab)))).bind fun _ s =>
    if boxLogged w c c.live then .hold
    else
      let tiles := mems.flatMap fun m => packTiles s w c (high + onMember m 0) off
      startCmd s r it { c with tiles := (tiles ++ rangeTiles tab).eraseDups, units := mems.length * c.chunks.length } (fun _ s => s)
        (graphBooks r it cbi)

/-- A command that acts once: nothing under a false guard (R188). -/
def onceDo (steps : State → Warp → Run → Item → Iss State) (it : Item) (s : State) (w : Warp) (r : Run) : State :=
  if !guardU w it then finish s r it
  else if dcFull w it.dc then s
  else issued s (steps s w r it)

/-- TCOPY. -/
def tcopyOp (it : Item) (s : State) : Out :=
  let k := if it.mb 58 then 5 else 4
  issue it (fun s w _ =>
    { uses := [.src .a vtCount accUni, .src .b vtCount accUni, .src .c vtCount accS]
      bads := dcBads it ++ ctlBads s w it ++ originBads it k ++ graphBads s w it false [.a, .b, .c] ++ modZero it 54 52 ++
        sRegsBad s w (originReg it + 5) (if it.mb 58 then 1 else 0) (it.code .c)
      usesLit := it.mb 60
      extra := engineRegs it k }) s (onceDo tcopySteps it)

/-! TSTORE. -/

/-- Publishing the staged entries that a TSTORE's destination overlaps (R71): its elements, and the scale and mask bytes that its
graph writes. -/
def publishSpans (s : State) (w : Warp) (c : Cmd) : State :=
  if (s.staging.any fun e => e.core == w.core) then
    (c.globalSpans ++ c.extraSpans c.live).foldl (fun s e =>
      match (translate s (coreShelf w.core) (tenantOf s w) e.1 .write 2).1 with
      | .ok pa _ => raiseOverlap s w.core pa e.2
      | _ => s) s
  else s

/-- The steps of R189 for TSTORE. -/
def tstoreSteps (s : State) (w : Warp) (r : Run) (it : Item) : Iss State :=
  let a := uniVal s w r it .a
  let b := uniVal s w r it .b
  let ctl := sget w it.d
  (readAtOrigin s w r it (it.mb 59) true false (it.mb 55) b).bind fun t s =>
    let bar := barOffset it ctl t
    let c : Cmd := { newCmd w r it .tstore with
      ctl := ctl, a := w32 a, b := w32 b, tens := some t, org := originOf w it t.rank, fmt := t.fmt, geo := t.geo,
      scope := it.m 58 56, graph := graphOf s w it, bar := w32 bar, vc := 0x10000 }
    (issCheck s r it (firstOf [align16 a 2, align16 bar 2])).bind fun _ s =>
    (fixBox s w r it c b).bind fun (c, _) s =>
    let off := bitsN a 19 0
    (issCheck s r it (packBad s w c (a - off) off)).bind fun _ s =>
    (issCheck s r it (barBad s w 14 bar (rawTiles s w a 0 c.packed))).bind fun _ s =>
    if boxLogged w c c.live then .hold
    else
      startCmd s r it { c with tiles := packTiles s w c (a - off) off, units := c.chunks.length }
        (fun c s => publishSpans (doom s 0x06) w c) (graphBooks r it 0)

/-- TSTORE. -/
def tstoreOp (it : Item) (s : State) : Out :=
  issue it (fun s w _ =>
    { uses := [.src .a vtCount accUni, .src .b vtCount accUni, .src .c vtCount accS]
      bads := dcBads it ++ ctlBads s w it ++ maskBads w it ++ originBads it 4 ++ graphBads s w it true [.a, .b, .c] ++
        modZero it 54 52 ++ opdBad (it.m 58 56 = 7) 6 7
      usesLit := it.mb 60
      extra := engineRegs it 4 }) s (onceDo tstoreSteps it)

/-! PCOPY. -/

/-- Tiles of a copy inside the pool: destination, then source. -/
def copyTiles (s : State) (w : Warp) (c : Cmd) (src : List (Nat × Nat)) : List (Nat × Nat) :=
  (packTiles s w c c.a.toNat 0 ++ src).eraseDups

/-- The steps of R189 for a plain PCOPY. -/
def pcopySteps (s : State) (w : Warp) (r : Run) (it : Item) : Iss State :=
  let a := uniVal s w r it .a
  let b := uniVal s w r it .b
  let n := uniVal s w r it .c
  let ctl := sget w it.d
  let bar := ctlBar ctl
  let m := bitsN a 23 20
  let c : Cmd := { newCmd w r it .pcopy with ctl := ctl, a := w32 a, b := w32 b, len := n, bar := w32 bar }
  (issCheck s r it (firstOf [align16 a 2, align16 b 2, align16 bar 2, spanBad s w a 0 n, spanBad s w b 0 n,
    barBad s w m bar (rawTiles s w a 0 n ++ rawTiles s w b 0 n)])).bind fun _ s =>
  startCmd s r it { c with tiles := copyTiles s w c (rawTiles s w b 0 n), units := c.chunks.length }

/-- PCOPY: C is the length, a multiple of 16 from 16 to 0x8_0000. -/
def pcopyOp (it : Item) (s : State) : Out :=
  issue it (fun s w r =>
    let n := uniVal s w r it .c
    { uses := [.src .a vtCount accUni, .src .b vtCount accUni, .src .c vtCount accUni]
      bads := dcBads it ++ ctlBads s w it ++ maskBads w it ++ modZero it 60 60 ++ modZero it 58 56 ++ modZero it 54 52 ++
        opdBad (it.mb 55) 6 1 ++ opdBad (n % 16 ≠ 0 || n < 16 || 0x80000 < n) 8 n
      extra := [(1, it.d)] }) s (onceDo pcopySteps it)

/-- The steps of R189 for PCOPY.r. -/
def pcopyRSteps (s : State) (w : Warp) (r : Run) (it : Item) : Iss State :=
  let a := uniVal s w r it .a
  let b := uniVal s w r it .b
  let ctl := sget w it.d
  (readAtOrigin s w r it (it.mb 59) false true (it.mb 55) b).bind fun t s =>
    let bar := barOffset it ctl t
    let m := bitsN a 23 20
    let c : Cmd := { newCmd w r it .pcopyR with
      ctl := ctl, a := w32 a, b := w32 b, tens := some t, org := originOf w it t.rank, fmt := t.fmt, geo := t.geo, bar := w32 bar,
      vc := 0x10000 }
    (issCheck s r it (firstOf [align16 a 2, align16 bar 2])).bind fun _ s =>
    (fixBox s w r it c b).bind fun (c, _) s =>
    let off := bitsN a 19 0
    (issCheck s r it (firstOf [packBad s w c (a - off) off, boxSpanBad s w c])).bind fun _ s =>
    let src := c.fullRanges s w
    (issCheck s r it (sharedBad s w 2 (sharedBytes src (rawRange s w a 0 c.packed).toList))).bind fun _ s =>
    (issCheck s r it (barBad s w m bar (rawTiles s w a 0 c.packed ++ rangeTiles src))).bind fun _ s =>
    startCmd s r it { c with tiles := copyTiles s w c (boxTiles s w c), units := c.chunks.length }

/-- PCOPY.r. -/
def pcopyROp (it : Item) (s : State) : Out :=
  issue it (fun s w _ =>
    { uses := [.src .a vtCount accUni, .src .b vtCount accUni, .src .c vtCount accS]
      bads := dcBads it ++ ctlBads s w it ++ maskBads w it ++ originBads it 4 ++ modZero it 58 56 ++ modZero it 54 52
      extra := engineRegs it 4 }) s (onceDo pcopyRSteps it)

/-! BLOAD. -/

/-- Elements of one column's run (R196). -/
def Cmd.runLen (c : Cmd) : Nat := c.count / max 1 (c.tensor.dims.getD 1 1)

/-- Whether a column carries scale bytes. -/
def Cmd.scaled (c : Cmd) : Bool := c.geo != 0 && fmtMx c.fmt

/-- Bytes of a column: its run, and its scale bytes from the next multiple of 4 on. -/
def Cmd.columnBytes (c : Cmd) : Nat :=
  let n := packedLen c.runLen c.bits
  if c.scaled then (n + 3) / 4 * 4 + (c.runLen + 31) / 32 else n

/-- The column-store bounds fault (Table 21.1, cause 0x22): columns [col, col + cols), bytes [off, off + n). -/
def columnBad (s : State) (w : Warp) (a col cols off n : Nat) : Option LaneBad :=
  let lo := ((blockOf s w).map (·.cbase)).getD 0
  let hi := ((blockOf s w).map fun b => b.cbase + b.cn).getD 0
  if 64 < col + cols then some ⟨0x22, 1, dw a, 0⟩
  else if off < lo || hi < off + n then some ⟨0x22, 2, dw a, 0⟩
  else none

/-- Loading the array codebook register of the block (R196, R206). -/
def setBlockCodebook (s : State) (w : Warp) (cb : List (BitVec 16)) : State :=
  match blockOf s w with
  | some b => putBlock s { b with cb := some cb }
  | none => s

/-- A BLOAD that names scales while CBBASE.V is clear raises the codebook fault (R196, R94). -/
def scalesBad (s : State) (w : Warp) (c : Cmd) : Option LaneBad :=
  if c.scaled && !fbit (shelfReg s (coreShelf w.core) 0x10 (tenantOf s w)) 0 then some ⟨0x24, 1, dw c.tensor.scale, 1⟩ else none

/-- The codebook that a BLOAD reads: that of its first page, which the array's one register takes (R196) (DEDUCED, log entry 125); a box
with scales asks for a valid table too. -/
def columnBooks (r : Run) (it : Item) (cbi : Nat) (c : Cmd) (s : State) : Iss Cmd :=
  (issCheck s r it (scalesBad s s.cur c)).bind fun _ s =>
    (readBooks s s.cur r it (if c.fmt = 12 then [cbi] else [])).bind fun l s => .ok { c with books := l } s

/-- The steps of R189 for BLOAD. -/
def bloadSteps (s : State) (w : Warp) (r : Run) (it : Item) : Iss State :=
  let a := uniVal s w r it .a
  let b := uniVal s w r it .b
  let ctl := sget w it.d
  (readAtOrigin s w r it (it.mb 59) true true (it.mb 55) b).bind fun t s =>
    let bar := barOffset it ctl t
    let c : Cmd := { newCmd w r it .bload with
      ctl := ctl, a := w32 a, b := w32 b, tens := some t, org := originOf w it t.rank, fmt := t.fmt, geo := t.geo, bar := w32 bar,
      vc := 0x10000 }
    (issCheck s r it (firstOf [align16 a 0, align16 bar 2])).bind fun _ s =>
    (fixBox s w r it c b).bind fun (c, cbi) s =>
    (issCheck s r it (firstOf [columnBad s w a (bitsN a 21 16) (t.dims.getD 1 1) (a % 65536) c.columnBytes,
      if t.space then boxSpanBad s w c else none])).bind fun _ s =>
    let tiles := if t.space then boxTiles s w c else []
    (issCheck s r it (barBad s w 14 bar (if t.space then rangeTiles (c.fullRanges s w) else []))).bind fun _ s =>
    if boxLogged w c c.live then .hold
    else
      startCmd s r it { c with tiles := tiles, units := c.chunks.length }
        (fun c s => if c.fmt = 12 then setBlockCodebook s s.cur (c.book cbi) else s) (columnBooks r it cbi)

/-- BLOAD. -/
def bloadOp (it : Item) (s : State) : Out :=
  issue it (fun s w _ =>
    { uses := [.src .a vtCount accUni, .src .b vtCount accUni, .src .c vtCount accS]
      bads := dcBads it ++ ctlBads s w it ++ maskBads w it ++ originBads it 4 ++ modZero it 60 60 ++ modZero it 58 56 ++
        modZero it 54 52
      extra := engineRegs it 4 }) s (onceDo bloadSteps it)

/-! PREFT. -/

/-- Filling a line's sectors at its home. -/
def fillLine (s : State) (pa : Nat) : State :=
  if paLocal pa then (List.range 8).foldl (fun s k => fillSector s (pa / 256 * 256 + 32 * k)) s else s

/-- Filling the lines of a box that translate (R198): the others are dropped silently (DEDUCED, log entry 61). -/
def prefetch (s : State) (w : Warp) (c : Cmd) : State :=
  let vas := (c.globalSpans.map fun e => e.1 / 256 * 256).eraseDups
  let (leaves, s) := pageLeaves s (coreShelf w.core) (tenantOf s w) [] (distinct vas (· / 65536))
  vas.foldl (fun s va =>
    match laneXlate s (coreShelf w.core) (tenantOf s w) leaves va .read 1 with
    | .ok pa _ => fillLine s pa
    | _ => s) s

/-- PREFT's format: a page that does not translate, or has a reserved attribute, is passed over (R198). -/
def preftFormat (s : State) (w : Warp) (c : Cmd) : Except LaneBad PageFmt :=
  let t := c.tensor
  match firstInside c t.fmt c.live with
  | none => .ok t.own
  | some va =>
    if 2 ^ 60 ≤ va then .ok t.own
    else
    match (findLeaf s (coreShelf w.core) (tenantOf s w) va).1 with
    | .leaf e g =>
      (match leafAccess s (coreShelf w.core) (tenantOf s w) va .read 1 e g, leafFormat t va e with
       | .bad _ _ _ _, _ => .ok t.own
       | _, .error b => if b.cause = 0x45 then .ok t.own else .error b
       | _, .ok f => .ok f)
    | _ => .ok t.own

/-- The steps of R189 for PREFT. -/
def preftSteps (s : State) (w : Warp) (r : Run) (it : Item) : Iss State :=
  let b := uniVal s w r it .b
  (readAtOrigin s w r it (it.mb 59) true false false b).bind fun t s =>
    let c : Cmd := { newCmd w r it .preft with
      b := w32 b, tens := some t, org := originOf w it t.rank, fmt := t.fmt, geo := t.geo, vc := 0x10000 }
    match preftFormat s w c with
    | .error b => .fault (onceFault s r it b)
    | .ok f =>
      let c := { c with fmt := f.fmt, geo := f.geo }
      (issBox s r it t b (if it.mb 59 then 0 else 2) (boxBad c c.live)).bind fun _ s =>
        if boxLogged w c c.live then .hold else .ok (finish (prefetch s w c) r it) s

/-- PREFT. -/
def preftOp (it : Item) (s : State) : Out :=
  issue it (fun _ _ _ =>
    { uses := [.unused .a, .src .b vtCount accUni, .src .c vtCount accS, .dstNone]
      bads := dcBads it ++ originBads it 4 ++ modZero it 60 60 ++ modZero it 58 52
      extra := engineRegs it 4 }) s (onceDo preftSteps it)

/-! TOWN. -/

/-- TOWN's effect, sampled at the target (R199). -/
def townDo (atTarget : Bool) (it : Item) (s : State) (w : Warp) (r : Run) : State :=
  let r := r.arrived
  let act := lanesOf (activeLanes w r it)
  let addr := fun l => operand s w r it vtCount .a l
  match firstLane act fun l => poolCheck s w (addr l) 1 1 false with
  | some (l, b) => laneFault s r it l b
  | none =>
    let met := watchMet atTarget r (dataWatch s w act true true false (fun l => addr l % 2 ^ 20) 1)
    overCauseway (met := met) atTarget (poolCores s w act addr 1) s r fun _ =>
      let val := fun l =>
        let p := poolLoc s w (addr l) 1
        let n := tileCount s p.1 (p.2 / 1024)
        w32 ((if n = 0 then 0 else 1) + n % 16 * 16)
      goOn { s with cur := act.foldl (fun w' l => vset w' it.d l (val l)) w } r it met

/-- TOWN. -/
def townOp (it : Item) (s : State) : Out :=
  issue it (fun _ _ _ =>
    { uses := [.src .a vtCount accMem, .unused .b, .unused .c, .dstData 1 1], bads := modZero it 63 52 }) s (townDo false it)

/-- TCOPY (R187 to R193). -/
def execTcopy (f : Long) (s : State) : Out := tcopyOp (longItem 0x140 true f) s

/-- TSTORE (R188 to R194). -/
def execTstore (f : Long) (s : State) : Out := tstoreOp (longItem 0x141 true f) s

/-- PCOPY (R188 to R192, R195). -/
def execPcopy (f : Long) (s : State) : Out := pcopyOp (longItem 0x142 true f) s

/-- PCOPY.r (R188 to R192, R195). -/
def execPcopyR (f : Long) (s : State) : Out := pcopyROp (longItem 0x142 true f) s

/-- BLOAD (R188 to R191, R196, R197). -/
def execBload (f : Long) (s : State) : Out := bloadOp (longItem 0x143 true f) s

/-- PREFT (R188, R198). -/
def execPreft (f : Long) (s : State) : Out := preftOp (longItem 0x144 true f) s

/-- TOWN (R199). -/
def execTown (f : Long) (s : State) : Out := townOp (longItem 0x145 false f) s

end Sys2Proof.Machine
end

