-- ==== Sys2Proof/Machine/Land.lean ====
section
/-! DEFINITION. Engine commands under way: translating, reading and landing their tiles (R189 to R197, R299), and credits. -/

namespace Sys2Proof.Machine

/-! A command's place in the machine. -/

/-- What the address rules ask of a command: its warp's number, core, cluster and block. -/
def Cmd.who (c : Cmd) : Warp := { uid := c.warp, core := c.core, ctx := c.ctx, clu := c.clu, bid := c.bid, wid := c.wid }

/-- Replacing a command. -/
def putCmd (s : State) (c : Cmd) : State := { s with cmds := s.cmds.map fun x => if x.id == c.id then c else x }

/-- Removing a command. -/
def dropCmd (s : State) (c : Cmd) : State := { s with cmds := s.cmds.filter fun x => x.id != c.id }

/-- A command stopped by a fault of a later tile (R189): its tiles are released, nothing more is credited, the issuing
group's lanes stop at their next boundary. -/
def stopCmd (s : State) (c : Cmd) (rep : Report) : State :=
  let s := dropCmd (releaseTiles s c.tiles) c
  deferFault s ((findWarp s c.warp).getD c.who)
    { rep with pc := c.pc.toNat, lanes := c.lanes, aux := if 0x80 ≤ rep.cause then 0 else c.insn, src := 1 }

/-- A unit that parks (R65): the command keeps its tiles and names the page; one already reported stays so (R375). -/
def parkCmd (s : State) (c : Cmd) (u va : Nat) : State :=
  if c.parks.any fun p => p.unit == u && p.page == va / 65536 then s
  else putCmd s { c with parks := (c.parks.filter fun p => p.unit != u) ++ [{ unit := u, page := va / 65536 }] }

/-- A command whose unit is no longer parked. -/
def Cmd.unpark (c : Cmd) (u : Nat) : Cmd := { c with parks := c.parks.filter fun p => p.unit != u }

/-! Translating a tile. -/

/-- What a tile's translation and read give. -/
inductive Tiled (α : Type) where
  | ok (a : α) (s : State)
  | park (va : Nat) (s : State)
  | bad (b : LaneBad) (s : State)
  | wait
  /-- READ packets are under way: nothing lands yet. -/
  | hold (s : State)

/-- One after another. -/
def Tiled.bind {α β : Type} (x : Tiled α) (f : α → State → Tiled β) : Tiled β :=
  match x with
  | .ok a s => f a s
  | .park va s => .park va s
  | .bad b s => .bad b s
  | .wait => .wait
  | .hold s => .hold s

/-- Whether a page of format `f` gives a tile what the command was fixed for at issue: elements of the same size, and for a
graph the same types (DEDUCED, log entry 125). -/
def sameShape (c : Cmd) (f : Nat) : Bool :=
  let ty := fun g => (c.nodes.foldl (fun (acc : Option (Nat × Bool)) n =>
    acc.bind fun x => nodeType n x.1 x.2 (tableRow c).2) (some (g, c.geo != 0 && fmtMx g)))
  fmtBits f == fmtBits c.fmt && (f == 12) == (c.fmt == 12) &&
    (c.graph.isNone || f == c.fmt || (!c.stores && (ty f).map (fun x => fmtBits x.1) == (ty c.fmt).map (fun x => fmtBits x.1)))

/-- The format check of a page that a later tile meets (R97, R189): subcode 2. -/
def laterFormat (c : Cmd) (va : Nat) (e : DWord) : Option LaneBad :=
  match formatOver c.tensor (leafFMT e) with
  | some f => if sameShape c f then none else some ⟨0x23, 2, dw va, 1⟩
  | none => some ⟨0x23, 2, dw va, 1⟩

/-- The places of a tile's addresses, none for zeros, the leaves of their pages, and all leaves that the tile has found. -/
structure Places where
  loc : Nat → Option Nat
  leaf : Nat → DWord
  known : List (Nat × Walk)

/-- Translating the addresses of a tile, one translation a page: `known` are the leaves that earlier reads of the same tile have found
(R299). A reserved attribute of any page is a fault (R96); `typed` says of which addresses the page's format is checked. -/
def tileXlate (s : State) (c : Cmd) (known : List (Nat × Walk)) (acc : Acc) (typed : Nat → Bool) (vas : List Nat) : Tiled Places :=
  let shelf := coreShelf c.core
  let ten := tenantOf s c.who
  let (leaves, s) := pageLeaves s shelf ten known (distinct vas (· / 65536))
  let x := fun va => laneXlate s shelf ten leaves va acc 2
  let check := fun va e =>
    if fmtReserved (leafFMT e) (leafGEO e) then some (⟨0x45, 6, dw va, 1⟩ : LaneBad)
    else if typed va then laterFormat c va e else none
  let bad := vas.findSome? fun va => match x va with
    | .bad k i a asp => some (⟨k, i, dw a, asp⟩ : LaneBad)
    | .ok _ e => check va e
    | .zero e => check va e
    | .park _ => none
  match bad with
  | some b => .bad b s
  | none =>
    match vas.find? fun va => match x va with | .park _ => true | _ => false with
    | some va => .park va s
    | none =>
      let loc := fun va => match x va with
        | .ok pa _ => some pa
        | _ => none
      let leaf := fun va => match x va with
        | .ok _ e => e
        | .zero e => e
        | _ => 0
      if anyLocked s (vas.filterMap loc) || (acc = .write && anyHeld s (vas.filterMap loc)) then .wait else .ok ⟨loc, leaf, leaves⟩ s

/-- Bytes read: by address, the addresses whose sectors are poisoned, the leaves of their pages, and all that the tile has found. -/
structure Bytes where
  m : NMap Byte := []
  bad : List Nat := []
  leaf : Nat → DWord := fun _ => 0
  known : List (Nat × Walk) := []

/-- What a read by a command leaves to its warp: the bounds of its other reads (R74, R79); and to its own other reads of a line that a
row operation has written: the old line or the new one (R253). -/
def cmdRead (s : State) (c : Cmd) (pa n t : Nat) : State :=
  let s := boundReads s c.warp c.id pa n t
  let row := rowOrder s pa
  let line := pa / 256 * 256
  let s := if row = 0 then s
    else if row ≤ t then putCmd s { c with floor := raiseTo c.floor line 256 row }
    else putCmd s { c with cap := lowerTo c.cap line 256 (row - 1) }
  let k := setSeen s pa n t
  match findWarp s c.warp with
  | some w => putWarp s (observe [lowLane c.lanes] [] k { w with seen := raiseTo w.seen pa n t })
  | none => s

/-- Reading one single-copy unit in the command's phase, staged bytes merged (R193), between what its warp's earlier and later
reads of it have returned (R74). -/
def readTileUnit (c : Cmd) (loc : Nat → Option Nat) (acc : Bytes × State) (u : Nat × Nat) : Bytes × State :=
  match loc u.1 with
  | none => acc
  | some pa =>
    let c := (acc.2.cmds.find? fun x => x.id == c.id).getD c
    let lo := (List.range u.2).foldl (fun m j => max m (nget 0 c.floor (pa + j))) 0
    let hi := (List.range u.2).foldl (fun m j => let k := nget 0 c.cap (pa + j); if k = 0 then m else min m (k - 1)) acc.2.order
    let rep := c.kind == .tcopy && fbit c.insn 57
    let (bs, t, s) := readMerged (reachUnit acc.2 c.core rep pa u.2) c.core c.warp c.phase lo (max lo hi) pa u.2
    let s := cmdRead s c pa u.2 t
    let struck := c.struck && acc.1.m.isEmpty && acc.1.bad.isEmpty
    let bad := if struck || unitPoison s c.core rep pa u.2 || stagedPoison s c.core c.warp pa u.2 then (List.range u.2).map (u.1 + ·) else []
    ({ acc.1 with m := nsetRange 0 acc.1.m u.1 bs, bad := acc.1.bad ++ bad }, s)

/-- Adding read lines, each with its virtual address, to the open transaction of a warp (R182, R250): a 65th line dooms it. -/
def addReads (s : State) (uid : Nat) (lines : List (Nat × Nat)) : State :=
  match findWarp s uid with
  | none => s
  | some w =>
    if !w.txn.isOpen || w.txn.doomed then s
    else
      let new := ((lines.map (·.1)).eraseDups.filter fun l => !w.txn.reads.any fun e => e.1 == l).map fun l => (l, nget 0 s.ver l)
      let rs := w.txn.reads ++ new
      if 64 < rs.length then
        let (w, s) := doomWarp s w 0x04
        putWarp s w
      else
        let vas := lines.foldl (fun m e => if (nget 0 m e.1) = 0 then nset 0 m e.1 (e.2 / 256 * 256) else m) w.txn.vas
        putWarp s { w with txn := { w.txn with reads := rs, vas := vas } }

/-- A read that carries .rep may place a replica of each read-only line in the requester's near slice (R58): whether it does is a free
choice for each (DESIGN CHOICE, log entry 137). -/
def addReplicas (s : State) (core ctx : Nat) (pas : List (Nat × DWord)) : State :=
  let lines := ((pas.filter fun e => leafRO e.2 && paLocal e.1).map fun e => e.1 / 256).eraseDups
  lines.foldl (fun s k =>
    if (replicaOf s core true (256 * k)).isSome then s
    else
      let (c, s) := choose s 2
      let bad := (List.range 8).foldl (fun (m : BitVec 8) i => if nget false s.poison (8 * k + i) then m ||| (1#8 <<< i) else m) 0
      if c = 1 then { s with replicas := s.replicas ++ [⟨k, nearSlice core (256 * k), ctx, bad⟩] } else s) s

/-- The sectors of the fast tier that a read needs and its home does not hold, each with whether the page is compressed: units with their
sizes and leaves. With `rep`, a line that the near slice holds a replica of is read there (R58). -/
def missing (s : State) (core : Nat) (rep : Bool) (us : List (Nat × Nat × DWord)) : List (Nat × Bool) :=
  (us.flatMap fun u => (List.range ((u.1 % 32 + u.2.1 + 31) / 32)).map fun k => ((u.1 / 32 + k) * 32, leafCMP u.2.2)).eraseDups.filter fun e =>
    paKind e.1 = .fast && !sectorValid s e.1 && (replicaOf s core rep e.1).isNone

/-- A READ packet for sectors of a line that no READ under way asks for (R55, R62): it asks for the line's mask of nonzero sectors where
the page is compressed (R63, R64). -/
def sendRead (s : State) (line : Nat) (mask : BitVec 8) (cmp : Bool) : State :=
  let asked := s.packets.foldl (fun (m : BitVec 8) p => if p.kind == 0 && p.pa / 256 == line then m ||| p.sectors else m) 0
  let new := mask &&& ~~~asked
  if new = 0 then s
  else (sendPacket s { stack := stackOf (256 * line), tag := 0, kind := 0, reply := false, pa := 256 * line, sectors := new, bytes := [],
                       args := if cmp then [1] else [], src := 0 }).getD s

/-- READ packets for the missing sectors, one a line. -/
def sendReads (s : State) (need : List (Nat × Bool)) : State :=
  ((need.map fun e => e.1 / 256).eraseDups).foldl (fun s k =>
    let mine := need.filter fun e => e.1 / 256 == k
    sendRead s k (mine.foldl (fun (m : BitVec 8) e => m ||| (1#8 <<< (e.1 / 32 % 8))) 0) (mine.any (·.2))) s

/-- Whether an atomic that the command's warp issued before it is still bound for a line, or something of its core has been overtaken 16
times: two requests of a warp to one line are never reordered, and none is overtaken more often (R60, R66). -/
def behindAtomic (s : State) (c : Cmd) (pas : List Nat) : Bool :=
  (s.reqs.any fun q => q.warp == c.warp && decide (q.id < c.id) && q.groups.any fun g => pas.any fun pa => pa / 256 == g.pa / 256) ||
    (!pas.isEmpty && overtaken s c.core c.id)

/-- Lines of which a unit that a command is about to read cannot show the content before a row operation any more: all show the new one
(R253). -/
def cmdRows (s : State) (c : Cmd) (units : List (Nat × Nat)) : Cmd :=
  units.foldl (fun x u =>
    let row := rowOrder s u.1
    let lo := (List.range u.2).foldl (fun m j => max m (nget 0 c.floor (u.1 + j))) (viewFloor s c.phase u.1 u.2)
    if row ≠ 0 && row ≤ lo then { x with floor := raiseTo x.floor (u.1 / 256 * 256) 256 row } else x) c

/-- Reading global units of a tile: MOD[56] of a TCOPY adds its lines to the open transaction, MOD[57] places replicas of them
(R193). -/
def readGlobal (s : State) (c : Cmd) (known : List (Nat × Walk)) (typed : Bool) (units : List (Nat × Nat)) : Tiled Bytes :=
  (tileXlate s c known .read (fun _ => typed) (units.map (·.1))).bind fun pl s =>
    let at_ := units.filterMap fun u => (pl.loc u.1).map fun pa => (pa, u.1)
    let need := missing s c.core (c.kind == .tcopy && fbit c.insn 57)
      (units.filterMap fun u => (pl.loc u.1).map fun pa => (pa, u.2, pl.leaf u.1))
    if behindAtomic s c (at_.map (·.1)) then .wait
    else if !need.isEmpty then .hold (sendReads s need)
    else
      let s := if c.kind == .tcopy && fbit c.insn 56 then addReads s c.warp (at_.map fun x => (x.1 / 256, x.2)) else s
      let s := if c.kind == .tcopy && fbit c.insn 57 then addReplicas s c.core c.ctx (at_.map fun x => (x.1, pl.leaf x.2)) else s
      let s := if at_.isEmpty then s else overtakes s c.core c.id
      let s := putCmd s (cmdRows s ((s.cmds.find? fun x => x.id == c.id).getD c) (units.filterMap fun u => (pl.loc u.1).map fun pa => (pa, u.2)))
      let x := units.foldl (readTileUnit c pl.loc) ({ leaf := pl.leaf, known := pl.known }, s)
      .ok x.1 x.2

/-- Reading pool bytes from a base: keys are offsets from it. -/
def readPool (s : State) (c : Cmd) (base : Nat) (units : List (Nat × Nat)) : Tiled Bytes :=
  .ok (units.foldl (fun (b : Bytes) u =>
    let p := spanLoc s c.who base u.1 u.2
    { m := nsetRange 0 b.m u.1 (poolBytes s p.1 p.2 u.2)
      bad := b.bad ++ if poolPoisoned s p.1 p.2 u.2 then (List.range u.2).map (u.1 + ·) else [] }) {}) s

/-! Elements of a box. -/

/-- Units of the elements at positions `ps`, from `base`. -/
def Cmd.unitsAt (c : Cmd) (base : Nat) (ps : List Nat) : List (Nat × Nat) :=
  (ps.flatMap fun p => match c.elt p with
    | .at _ bit => (eltUnits c.bits bit).map fun u => (base + u.1, u.2)
    | _ => []).eraseDups

/-- Where the box's bytes are counted from: BASE, or 0 for a pool record, whose bytes are read by offset. -/
def Cmd.base (c : Cmd) : Nat := if c.tensor.space then 0 else c.tensor.base

/-- The value of the element at position `p`. -/
def Cmd.value (c : Cmd) (b : Bytes) (p : Nat) : Option Nat :=
  match c.elt p with
  | .at _ bit => some (eltFrom c.bits (8 * c.base + bit) (nget 0 b.m))
  | .zero => some 0
  | .nan => some (eltNaN c.fmt)
  | .skip => none

/-- Format, geometry and codebook of the element at position `p`: those of its own page (R97). -/
def Cmd.fmtAt (c : Cmd) (b : Bytes) (p : Nat) : PageFmt :=
  let own : PageFmt := ⟨c.fmt, c.geo, c.tensor.cbi⟩
  if c.tensor.space then own
  else
    match c.elt p with
    | .at _ bit =>
      let va := c.tensor.base + bit / 8
      match leafFormat c.tensor va (b.leaf va) with
      | .ok f => f
      | .error _ => own
    | _ => own

/-- The element at position `p`, in its own page's format. -/
def Cmd.elem (c : Cmd) (b : Bytes) (p : Nat) : Option Elem := (c.value b p).map fun v => let f := c.fmtAt b p; { raw := v, fmt := f.fmt, cbi := f.cbi }

/-- Whether a poisoned byte reaches the element at position `p`. -/
def Cmd.tainted (c : Cmd) (b : Bytes) (p : Nat) : Bool :=
  match c.elt p with
  | .at _ bit => b.bad.any fun a => decide ((8 * c.base + bit) / 8 ≤ a) && decide (8 * a < 8 * c.base + bit + c.bits)
  | _ => false

/-- Reading the elements at positions `ps` of a box. -/
def readBox (s : State) (c : Cmd) (known : List (Nat × Walk)) (ps : List Nat) : Tiled Bytes :=
  if c.tensor.space then (readPool s c c.tensor.base (c.unitsAt 0 ps)).bind fun b s => .ok { b with known := known } s
  else readGlobal s c known true (c.unitsAt c.base ps)

/-- Address of the scale byte of the element at position `p`, by its own page's geometry; none where it has no scale: an MX geometry
over a format that MX does not accept leaves its elements unscaled (DESIGN CHOICE, log entry 140). -/
def Cmd.scaleOf (c : Cmd) (b : Bytes) (p : Nat) : Option Nat :=
  let f := c.fmtAt b p
  if f.geo = 0 || !fmtMx f.fmt then none else c.scaleAddr f.geo p

/-- The scale bytes of positions, by address. -/
def readScales (s : State) (c : Cmd) (need : Bool) (b : Bytes) (ps : List Nat) : Tiled Bytes :=
  if need then readGlobal s c b.known false (((ps.filterMap (c.scaleOf b)).eraseDups).map fun a => (a, 1))
  else .ok { known := b.known } s

/-- The codebooks among `is` that the command has not read yet: the page of a tile that was not found at issue names one of its own,
which is read with the tile (DEDUCED, log entry 139). -/
def tileBooks (known : List (Nat × Walk)) : List Nat → Cmd → State → Tiled Cmd
  | [], c, s => .ok c s
  | i :: t, c, s =>
    if c.books.any fun e => e.1 == i then tileBooks known t c s
    else
      let base := shelfReg s (coreShelf c.core) 0x10 (tenantOf s c.who)
      let va := fld base 59 13 * 8192 + 32 * i
      if !fbit base 0 then .bad ⟨0x24, 1, dw va, 1⟩ s
      else
        (readGlobal s c known false ((List.range 4).map fun j => (va + 8 * j, 8))).bind fun b s =>
          tileBooks known t { c with books := c.books ++ [(i, if b.bad.isEmpty then bookOf (ngetRange 0 b.m va 32) else [])] } s

/-- The codebook indexes of CB4 elements. -/
def eltBooks (v : List (Option Elem)) : List Nat := (v.filterMap fun e => e.bind fun x => if x.fmt = 12 then some x.cbi else none).eraseDups

/-- Whether one of these codebooks was read with poison. -/
def Cmd.booksBad (c : Cmd) (is : List Nat) : Bool := is.any fun i => (c.book i).isEmpty

/-- Row `i` of igather's table. R201 states no result for an index at or above the table's rows: the record's FILL decides it, as it does
an element outside a box (DESIGN CHOICE, log entry 141). -/
def tableVals (s : State) (c : Cmd) (i : Nat) : List (Option Nat) :=
  match c.table with
  | none => []
  | some t =>
    let bits := fmtBits t.fmt
    let fill := match t.fill with
      | 0 => some 0
      | 1 => some (eltNaN t.fmt)
      | _ => none
    let at_ := fun (row k : Nat) =>
      let bit := 8 * (row * t.strAt 1) + k * bits
      let n := (bit + bits + 7) / 8 - bit / 8
      let p := spanLoc s c.who t.base (bit / 8) n
      some (poolNat s p.1 p.2 n / 2 ^ (bit % 8) % 2 ^ bits)
    (List.range (t.extAt 0)).map fun k =>
      if i < t.extAt 1 then at_ i k else if t.fill = 2 then at_ (t.extAt 1 - 1) k else fill

/-- Whether row `i` of igather's table, or the one a clamped index reads, holds poison. -/
def tableBad (s : State) (c : Cmd) (i : Nat) : Bool :=
  match c.table with
  | none => false
  | some t =>
    let row := if i < t.extAt 1 then some i else if t.fill = 2 then some (t.extAt 1 - 1) else none
    row.any fun k =>
      let n := packedLen (t.extAt 0) (fmtBits t.fmt)
      let p := spanLoc s c.who t.base (k * t.strAt 1) n
      poolPoisoned s p.1 p.2 n

/-! Expand (Table 9.9): groups of a mask and its set elements, read densely from BASE. -/

/-- Bit offset past BASE of group `g`, by the masks before it. -/
def Cmd.groupBit (c : Cmd) (g : Nat) : Nat :=
  (c.masks.take g).foldl (fun n m => n + 32 + ((List.range 32).filter fun i => m.testBit i).length * c.bits) 0

/-- Bytes that bits past BASE stand in, as units to read. -/
def Cmd.denseUnits (c : Cmd) (bit n : Nat) : List (Nat × Nat) :=
  (List.range ((bit % 8 + n + 7) / 8)).map fun j => (c.base + bit / 8 + j, 1)

/-- Reading the masks of the groups up to `n` that have not been read. -/
def expandMasks (c : Cmd) (known : List (Nat × Walk)) : Nat → State → Tiled (Cmd × List (Nat × Walk))
  | 0, s => .ok (c, known) s
  | n + 1, s =>
    (expandMasks c known n s).bind fun (c, known) s =>
      if n < c.masks.length then .ok (c, known) s
      else
        let bit := c.groupBit n
        (readGlobal s c known true (c.denseUnits bit 32)).bind fun b s =>
          if !b.bad.isEmpty then .bad ⟨0x82, 5, dw c.base, 1⟩ s
          else .ok ({ c with masks := c.masks ++ [eltFrom 32 (8 * c.base + bit) (nget 0 b.m)] }, b.known) s

/-- The bit offset past BASE of position `p`'s element; none where its mask bit is clear. -/
def Cmd.denseAt (c : Cmd) (p : Nat) : Option Nat :=
  let m := c.masks.getD (p / 32) 0
  if m.testBit (p % 32) then some (c.groupBit (p / 32) + 32 + ((List.range (p % 32)).filter fun i => m.testBit i).length * c.bits)
  else none

/-- The elements that expand gives at the positions `ps`, each in its own page's format; skipped rows' elements are not read, nor the
masks beyond the last group that is (R42). -/
def expandRead (s : State) (c : Cmd) (ps : List Nat) : Tiled (Cmd × (Nat → Option Elem) × Bytes) :=
  (expandMasks c [] (if ps.isEmpty then 0 else ps.foldl max 0 / 32 + 1) s).bind fun (c, known) s =>
    (readGlobal s c known true ((ps.filterMap c.denseAt).flatMap fun bit => c.denseUnits bit c.bits).eraseDups).bind fun b s =>
      let elem := fun p =>
        if !ps.contains p then none
        else match c.denseAt p with
          | none => some { raw := 0, fmt := c.fmt }
          | some bit =>
            let va := c.base + bit / 8
            let f := match leafFormat c.tensor va (b.leaf va) with
              | .ok f => f
              | .error _ => ⟨c.fmt, c.geo, c.tensor.cbi⟩
            some { raw := eltFrom c.bits (8 * c.base + bit) (nget 0 b.m), fmt := f.fmt, cbi := f.cbi }
      .ok (c, elem, b) s

/-- A stream through the command's graph (R202). -/
def runGraph (s : State) (c : Cmd) (sc : Nat → Option Nat) (v : List (Option Elem)) : Stream :=
  c.nodes.foldl (fun st n => applyNode c.book c.codebook2 sc (tableVals s c) (tableRow c).2 n st) (c.stream v)

/-- The source stream of a TCOPY with a graph over the positions `ps`: the command with the codebooks it has read, elements, scales,
and whether any was poisoned. -/
def graphSource (s : State) (c : Cmd) (ps : List Nat) : Tiled (Cmd × List (Option Elem) × (Nat → Option Nat) × Bool) :=
  let all := fun (f : Nat → Option Elem) => (List.range c.count).map f
  let books := fun (c : Cmd) (known : List (Nat × Walk)) (v : List (Option Elem)) (sc : Nat → Option Nat) (bad : Bool) (s : State) =>
    let is := if c.nodes.any fun n => nodeOp n == 4 then eltBooks v else []
    (tileBooks known is c s).bind fun c s => Tiled.ok (c, v, sc, bad || c.booksBad is) s
  if c.nodes.any fun n => nodeOp n == 8 then
    (expandRead s c ps).bind fun (c, f, b) s => books c b.known (all f) (fun _ => none) (!b.bad.isEmpty) s
  else
    (readBox s c [] ps).bind fun b s =>
      (readScales s c (c.nodes.any fun n => nodeOp n == 3) b ps).bind fun sc s =>
        let v := all fun p => if ps.contains p then c.elem b p else none
        let table := (c.nodes.any fun n => nodeOp n == 10) && v.any fun e => e.any fun x => tableBad s c x.raw
        books c sc.known v (fun p => (c.scaleOf b p).map fun a => (nget 0 sc.m a).toNat) (!b.bad.isEmpty || !sc.bad.isEmpty || table) s

/-! Reading a part of the packed side. -/

/-- Packed positions of part `j`. -/
def Cmd.partRange (c : Cmd) (j : Nat) : List Nat :=
  let off := if c.kind = .bload then 0 else bitsN c.a.toNat 9 0
  ((List.range 1024).filter fun i => decide (off ≤ 1024 * j + i) && decide (1024 * j + i < off + c.packed)).map
    fun i => 1024 * j + i - off

/-- Elements of which a part holds a byte. -/
def Cmd.partElts (c : Cmd) (bits j : Nat) : List Nat :=
  ((c.partRange j).flatMap fun q => [8 * q / bits, (8 * q + 7) / bits]).eraseDups.filter fun p =>
    decide (p < c.count) && decide (c.tensor.row p < c.vc)

/-- Packed bytes of elements: those of `qs` that an element covers. -/
def packAt (bits : Nat) (val : Nat → Option Nat) (qs : List Nat) : List (Nat × Byte) :=
  qs.filterMap fun q => (streamByte bits val 0 q).map fun b => (q, b)

/-- Whether a plain PCOPY's ranges meet, so that it reads everything first (R192). -/
def Cmd.overlaps (s : State) (c : Cmd) : Bool :=
  let a := spanLoc s c.who c.a.toNat 0 c.len
  let b := spanLoc s c.who c.b.toNat 0 c.len
  !(sharedBytes [(a.1, a.2, c.len)] [(b.1, b.2, c.len)]).isEmpty

/-- The positions whose elements decide part `j` of a graph's output. -/
def Cmd.graphElts (c : Cmd) (j : Nat) : List Nat :=
  let deps := graphDeps (tableRow c).1 c.nodes c.tensor.dims ((List.range c.count).map fun p => [p])
  let outs := ((c.partRange j).flatMap fun q => [8 * q / c.outBits, (8 * q + 7) / c.outBits]).eraseDups
  let live := c.live
  ((outs.flatMap fun p => deps.getD p []).eraseDups).filter live.contains

/-- Reading part `j` of a copy into the pool, once for every member (R193): the command with the bytes it now holds. -/
def readPart (s : State) (c : Cmd) (j : Nat) : Tiled Cmd :=
  if c.sent.contains j then .ok c s
  else
    match c.kind with
    | .pcopy =>
      let qs := if c.overlaps s then List.range c.len else c.partRange j
      let js := if c.overlaps s then List.range 513 else [j]
      (readPool s c c.b.toNat (qs.map fun q => (q, 1))).bind fun b s =>
        .ok { c with data := c.data ++ qs.map (fun q => (q, nget 0 b.m q)), bad := c.bad ++ b.bad, sent := js ++ c.sent } s
    | _ =>
      if c.graph.isSome then
        (graphSource s c (c.graphElts j)).bind fun (c, v, sc, bad) s =>
          if bad then .bad ⟨0x82, 5, dw c.base, 1⟩ s
          else
            let st := runGraph s c sc v
            let qs := c.partRange j
            .ok { c with data := c.data ++ packAt (fmtBits st.fmt) (fun p => (st.val.getD p none).map (·.raw)) qs, sent := j :: c.sent } s
      else
        let ps := c.partElts c.bits j
        (readBox s c [] ps).bind fun b s =>
          let qs := c.partRange j
          let tq := qs.filter fun q => ([8 * q / c.bits, (8 * q + 7) / c.bits] : List Nat).any (c.tainted b)
          .ok { c with data := c.data ++ packAt c.bits (fun p => if ps.contains p then c.value b p else none) qs
                       bad := c.bad ++ tq, sent := j :: c.sent } s

/-! Landing. -/

/-- The members a copy into the pool writes to. -/
def Cmd.members (c : Cmd) : List Nat := if c.kind = .tcopy then destMembers c.ctl c.a else [bitsN c.a.toNat 23 20]

/-- Units of a command that has units of 1 KiB of its packed side, or of a GATHER. -/
def Cmd.unitList (c : Cmd) : List Nat :=
  match c.kind with
  | .tcopy => c.chunks.flatMap fun j => (List.range c.members.length).map fun i => 1024 * i + j
  | .pcopy | .pcopyR | .bload | .tstore => c.chunks
  | .gather => (c.data.map fun (e : Nat × Byte) => e.1 / 1024).eraseDups
  | _ => []

/-- The source elements that decide each element a TSTORE's graph delivers. -/
def Cmd.storeDeps (c : Cmd) : List (List Nat) := graphDeps 1 c.nodes c.tensor.dims ((List.range c.count).map fun p => [p])

/-- The source tile of the first byte of element `q`, counted from that of A (R52). -/
def Cmd.srcTile (c : Cmd) (q : Nat) : Nat := (bitsN c.a.toNat 9 0 + q * fmtBits c.srcFmt / 8) / 1024

/-- The unit that stores delivered element `p`: that of the first source element it needs. -/
def Cmd.storeUnitOf (c : Cmd) (deps : List (List Nat)) (p : Nat) : Nat := c.srcTile ((deps.getD p []).headD 0)

/-- The source elements that a unit of a TSTORE needs; where a group of a compress goes, all those before it decide. -/
def Cmd.storeElts (c : Cmd) (u : Nat) : List Nat :=
  if c.graph.isSome then
    let deps := c.storeDeps
    let compress := c.nodes.any fun n => nodeOp n == 9
    let unit := fun p => c.storeUnitOf deps (if compress then p / 32 * 32 else p)
    let outs := (List.range deps.length).filter fun p => unit p = u
    let mine := (outs.flatMap fun p => deps.getD p []).eraseDups
    if compress then List.range (mine.foldl max 0 + 1) else mine
  else (List.range c.count).filter fun p => c.srcTile p = u

/-- Tiles that a unit reads or writes. -/
def Cmd.unitTiles (s : State) (c : Cmd) (u : Nat) : List (Nat × Nat) :=
  let w := c.who
  let part := fun (base : Nat) (qs : List Nat) => (qs.flatMap fun q => rawTiles s w base q 1).eraseDups
  let elts := fun (ps : List Nat) => ((ps.filterMap fun p => match c.elt p with
    | .at _ bit => some (bit / 8, (bit + c.bits + 7) / 8 - bit / 8)
    | _ => none).flatMap fun e => rawTiles s w c.tensor.base e.1 e.2).eraseDups
  match c.kind with
  | .tcopy =>
    part (onMember (c.members.getD (u / 1024) 0) 0 + bitsN c.a.toNat 31 24 * 2 ^ 24 + bitsN c.a.toNat 19 0) (c.partRange (u % 1024)) ++
      (match c.table with
       | some t => rawTiles s w t.base 0 ((t.extAt 1 - 1) * t.strAt 1 + packedLen (t.extAt 0) (fmtBits t.fmt))
       | none => [])
  | .pcopy =>
    part c.a.toNat (c.partRange u) ++ (if c.overlaps s then rawTiles s w c.b.toNat 0 c.len else part c.b.toNat (c.partRange u))
  | .pcopyR => part c.a.toNat (c.partRange u) ++ elts (c.partElts c.bits u)
  | .bload => if c.tensor.space then elts (c.live.filter fun p => decide (p * c.bits / 8192 = u)) else []
  | .tstore =>
    let bits := fmtBits c.srcFmt
    ((c.storeElts u).flatMap fun p => rawTiles s w c.a.toNat (p * bits / 8) ((p * bits + bits + 7) / 8 - p * bits / 8)).eraseDups ++
      part c.a.toNat (c.partRange u)
  | .gather => [(u / 512, u % 512)]
  | _ => []

/-- An engine command as a writer: its thread's releases, and its own number and its core's engines among the agents. -/
def Cmd.writer (c : Cmd) : List Sig := c.sig.map fun g => { g with agents := [2 ^ 40 + c.id, 2 ^ 41 + c.core] }

/-- The thread as the acquirer of a command's credit finds it: a TSTORE has published its writes at the scope it names, a row operation
at .device (R79, R253). -/
def Cmd.creditSig (c : Cmd) (s : State) : List Sig :=
  let publishes := fun (sc : Nat) => c.sig.map fun g =>
    { g with rel := listSet g.rel sc (joinView (g.rel.getD sc []) (nset 0 [] (2 ^ 40 + c.id) s.order)) }
  match c.kind with
  | .tstore => publishes c.scope
  | .rowzf | .rowcp => publishes 5
  | _ => c.sig

/-- A unit has landed (R191): of its tiles and those of `tiles` the command releases the ones that no later unit of it needs, the
rest with its last unit, and credits its bytes, in the same step where the barrier is on their core, after the release elsewhere
(R52). A command that has credited nothing credits zero bytes with its last unit (R43) (DEDUCED, log entry 59). -/
def landedUnit (s : State) (c : Cmd) (u : Nat) (tiles : List (Nat × Nat)) (core off bytes : Nat) : State :=
  let none_ := c.cred = 0 && bytes = 0
  let c := { (if c.kind = .qpost then c else c.unpark u) with landed := u :: c.landed, cred := c.cred + bytes, struck := false }
  let last := decide (c.units ≤ c.landed.length)
  let mine := c.unitTiles s u ++ tiles
  let keep := if last then [] else (c.unitList.filter fun v => !c.landed.contains v).flatMap (c.unitTiles s)
  let rel := if last then c.tiles else c.tiles.filter fun t => mine.contains t && !keep.contains t
  let s := markTiles (releaseTiles s rel) c.sig rel
  let s := if last then dropCmd s c else putCmd s { c with tiles := c.tiles.filter fun t => !rel.contains t }
  let near := if (rel ++ mine).isEmpty then core == c.core else (if rel.isEmpty then mine else rel).any fun t => t.1 == core
  if bytes = 0 && !(last && none_) then s
  else if near then creditBar s ⟨c.ctx, c.clu⟩ core off bytes (c.creditSig s)
  else { s with credits := s.credits ++ [⟨c.ctx, c.clu, core, off, bytes, c.creditSig s⟩] }

/-- Core of a member of the command's cluster. -/
def Cmd.memCore (s : State) (c : Cmd) (m : Nat) : Nat := (memberCore s c.who m).getD c.core

/-- The poison of 8-byte words after a write of the bytes `keys`, of which `bad` are poisoned: a word written whole is poisoned no
more, and a narrower write leaves its poison (R382). -/
def markWords (m : NMap Bool) (keys bad : List Nat) : NMap Bool :=
  let words := (keys.map (· / 8)).eraseDups
  let whole := words.filter fun k => (List.range 8).all fun i => keys.contains (8 * k + i)
  (bad.map (· / 8)).foldl (fun m k => nset false m k true) (whole.foldl (fun m k => nset false m k false) m)

/-- Writing packed bytes of a part at `off` of a core's pool: returns the bytes written. The bits of a last, partial byte beyond the
stream are zero (R90). -/
def landPool (s : State) (c : Cmd) (core off j : Nat) : State × Nat :=
  let qs := c.partRange j
  let bits := c.outBits
  let pat := c.side1
  let ws := qs.filter fun q => c.writesByte pat bits q
  let new := fun q =>
    let old := (poolBytes s core (off + q) 1).headD 0
    let x := ((c.data.find? fun e => e.1 == q).map (·.2)).getD 0
    if c.kind = .pcopy then x
    else BitVec.ofNat 8 ((List.range 8).foldl (fun n i =>
      let p := (8 * q + i) / bits
      let b := if pat.length ≤ p then false else if pat.getD p false then x.getLsbD i else old.getLsbD i
      if b then n + 2 ^ i else n) 0)
  let bytes := ws.map fun q => (q, new q)
  let keys := ws.map fun q => poolKey core (off + q)
  let s := { s with pool := bytes.foldl (fun m (e : Nat × Byte) => nset 0 m (poolKey core (off + e.1)) e.2) s.pool
                    poolPoison := markWords s.poolPoison keys ((c.bad.filter ws.contains).map fun q => poolKey core (off + q)) }
  (s, ws.length)

/-- The outcome of a unit's read: landing, a park, a stop, or nothing yet. -/
def landAfter {α : Type} (s0 : State) (c : Cmd) (u : Nat) (x : Tiled α) (k : α → State → State) : State :=
  match x with
  | .ok a s => k a s
  | .park va s => parkCmd s c u va
  | .bad b s => stopCmd s c { cause := b.cause, addr := b.addr, asp := b.asp, info0 := b.info0 }
  | .wait => s0
  | .hold s => s

/-- A unit of a TCOPY or PCOPY: member number `u / 1024` of its list, part `u` modulo 1024. -/
def landCopy (s : State) (c : Cmd) (u : Nat) : State :=
  let m := c.members.getD (u / 1024) 0
  let j := u % 1024
  let off := bitsN c.a.toNat 19 0
  landAfter s c u (readPart s c j) fun c s =>
    let core := c.memCore s m
    let (s, n) := landPool s c core off j
    landedUnit s c u [] core c.bar.toNat n

/-- Bits written over the bytes that stand at physical addresses. -/
def putBits (s : State) (acc : List (Nat × Byte)) (pa bit bits v : Nat) : List (Nat × Byte) :=
  let n := (bit + bits + 7) / 8
  (List.range n).foldl (fun acc i =>
    let old := ((acc.find? fun e => e.1 == pa + i).map (·.2)).getD (homeByte s (pa + i))
    let b := BitVec.ofNat 8 ((List.range 8).foldl (fun x k =>
      let p := 8 * i + k
      let t := if bit ≤ p && p < bit + bits then v.testBit (p - bit) else old.getLsbD k
      if t then x + 2 ^ k else x) 0)
    (pa + i, b) :: acc.filter fun e => e.1 != pa + i) acc

/-- A value to store: address, bit in its first byte, width, value, whether its source was poisoned, whether its page's format is
that of the box. -/
structure Put where
  va : Nat
  bit : Nat
  bits : Nat
  v : Nat
  bad : Bool
  typed : Bool := true

/-- Storing values of a TSTORE at their homes: nothing where a page parks or a line is held; the bytes written. -/
def storePuts (s : State) (c : Cmd) (ps : List Put) : Tiled Nat :=
  (tileXlate s c [] .write (fun va => ps.any fun p => p.va == va && p.typed) (ps.map (·.va))).bind fun pl s =>
    let loc := pl.loc
    if ps.any fun p => (loc p.va).any fun pa => entryAhead s c.core c.id pa ((p.bit + p.bits + 7) / 8) then .wait else
    let ws := ps.foldl (fun acc p => match loc p.va with
      | some pa => putBits s acc pa p.bit p.bits p.v
      | none => acc) []
    let bad := (ps.filter (·.bad)).flatMap fun p => ((loc p.va).map fun pa => (List.range ((p.bit + p.bits + 7) / 8)).map (pa + ·)).getD []
    .ok ws.length (applyWriteBad 512 (fun _ => c.writer) (bad.map (· / 32)) s ws.reverse)

/-- Position in the box of position `p` of a stream whose axes have sizes `ds`. -/
def boxPos (box ds : List Nat) (p : Nat) : Nat :=
  ((box.zip (digits ds p)).foldl (fun (acc : Nat × Nat) e => (acc.1 + e.2 * acc.2, acc.2 * e.1)) (0, 1)).1

/-- The element of a TSTORE's pool source at position `p`: value, and whether it was poisoned. -/
def sourceElt (s : State) (c : Cmd) (p : Nat) : Nat × Bool :=
  let bits := fmtBits c.srcFmt
  let o := p * bits / 8
  let n := (p * bits + bits + 7) / 8 - o
  let q := spanLoc s c.who c.a.toNat o n
  (poolNat s q.1 q.2 n / 2 ^ (p * bits % 8) % 2 ^ bits, poolPoisoned s q.1 q.2 n)

/-- A value to store, cut where it runs into the next page. -/
def putsOf (va bit bits v : Nat) (bad : Bool) : List Put :=
  let n := 8 * (65536 - va % 65536) - bit
  if bits ≤ n then [{ va := va, bit := bit, bits := bits, v := v, bad := bad }]
  else
    [{ va := va, bit := bit, bits := n, v := v % 2 ^ n, bad := bad },
     { va := va / 65536 * 65536 + 65536, bit := 0, bits := bits - n, v := v / 2 ^ n, bad := bad }]

/-- Where a TSTORE's element at box position `p` goes. The last element of a run along axis 0 is widened with zero bits to the end
of its byte (R90). -/
def storeAt (c : Cmd) (p : Nat) (bits v : Nat) (bad : Bool) : List Put :=
  match c.elt p with
  | .at co bit =>
    let pad := if co.getD 0 0 + 1 = c.tensor.extAt 0 then (8 - (bit + bits) % 8) % 8 else 0
    putsOf (c.base + bit / 8) (bit % 8) (bits + pad) (v % 2 ^ bits) bad
  | _ => []

/-- The bytes that compress writes from bit `o` past BASE: the last one of all is filled with zeros. -/
def densePuts (c : Cmd) (o : Nat) (last : Bool) (bs : List (Nat × Nat)) : List Put :=
  let t := bs.foldl (fun (acc : Nat × Nat) b => (acc.1 + b.1 % 2 ^ b.2 * 2 ^ acc.2, acc.2 + b.2)) (0, 0)
  let n := if last then (o + t.2 + 7) / 8 * 8 - o else t.2
  (List.range ((o % 8 + n + 7) / 8)).map fun i =>
    let lo := 8 * i - o % 8
    let bit := if i = 0 then o % 8 else 0
    { va := c.base + o / 8 + i, bit := bit, bits := min (8 - bit) (n - lo), v := t.1 / 2 ^ lo % 2 ^ min (8 - bit) (n - lo), bad := false }

/-- What unit `j` of a TSTORE with a graph stores of its stream (R201, R202): elements or compressed groups, and the scale byte of a
block of which an element stands in the tensor. -/
def graphPuts (c : Cmd) (st : Stream) (j : Nat) : List Put :=
  let deps := c.storeDeps
  let unit := c.storeUnitOf deps
  let ob := fmtBits st.fmt
  let at_ := fun p => boxPos c.tensor.dims st.dims p
  let scs := (st.scales.filter fun (e : Nat × Nat) => unit e.1 = j).filterMap fun (e : Nat × Nat) =>
    ((List.range 32).findSome? fun i => c.scaleAddr (max 1 c.geo) (at_ (e.1 + i))).map fun a =>
      ({ va := a, bit := 0, bits := 8, v := e.2, bad := false, typed := false } : Put)
  scs ++ if c.nodes.any fun n => nodeOp n == 9 then
    let gs := (runsOf 32 st.val.length st.val).map fun g => compressBits ob g
    let width := fun (l : List (Nat × Nat)) => l.foldl (fun n e => n + e.2) 0
    ((List.range gs.length).filter fun i => unit (32 * i) = j).flatMap fun i =>
      densePuts c ((gs.take i).foldl (fun n l => n + width l) 0) (decide (i + 1 = gs.length)) (gs.getD i [])
  else ((List.range st.val.length).filter fun p => unit p = j).flatMap (fun p => match st.val.getD p none with
    | some v => storeAt c (at_ p) ob v.raw false
    | none => [])

/-- The values that a unit of a TSTORE stores, and whether a graph met poison (DEDUCED, log entry 57). -/
def storeUnit (s : State) (c : Cmd) (j : Nat) : List Put × Bool :=
  if c.graph.isSome then
    let st := runGraph s c (fun _ => none) ((List.range c.count).map fun p => some { raw := (sourceElt s c p).1, fmt := c.srcFmt })
    (graphPuts c st j, ((c.storeElts j).any fun p => (sourceElt s c p).2) ||
      (c.nodes.any fun n => nodeOp n == 5) && c.codebook2.isEmpty)
  else ((c.storeElts j).flatMap fun p => let e := sourceElt s c p; storeAt c p (fmtBits c.srcFmt) e.1 e.2, false)

/-- Bytes that values are stored over. -/
def putBytes (ps : List Put) : List Nat := (ps.flatMap fun p => (List.range ((p.bit + p.bits + 7) / 8)).map (p.va + ·)).eraseDups

/-- The bytes that unit `j` of a TSTORE credits: a byte that elements of several units share counts with the first. -/
def storeCredit (s : State) (c : Cmd) (j : Nat) : Nat :=
  let before := if c.bits < 8 then putBytes ((c.chunks.filter (· < j)).flatMap fun i => (storeUnit s c i).1) else []
  ((putBytes (storeUnit s c j).1).filter fun a => !before.contains a).length

/-- A unit of a TSTORE (R194). -/
def landStore (s : State) (c : Cmd) (j : Nat) : State :=
  let (ps, bad) := storeUnit s c j
  if bad then stopCmd s c { cause := 0x82, addr := (c.a.setWidth 64), asp := 2, info0 := 5 }
  else
    let n := storeCredit s c j
    landAfter s c j (storePuts s c ps) fun _ s => landedUnit s c j [] c.core c.bar.toNat n

/-- Key of a column-store byte. -/
def csKey (core col off : Nat) : Nat := 2 ^ 22 * core + 2 ^ 16 * col + off

/-- Bits stored in a column, at a bit address past `off`. -/
def csPut (s : State) (core col off bit bits v : Nat) : State :=
  let k := csKey core col (off + bit / 8)
  let n := (bit % 8 + bits + 7) / 8
  let old := ofBytes (ngetRange 0 s.cstore k n)
  let lo := bit % 8
  let x := old % 2 ^ lo + v % 2 ^ bits * 2 ^ lo + old / 2 ^ (lo + bits) * 2 ^ (lo + bits)
  { s with cstore := nsetRange 0 s.cstore k (bytesOf n x) }

/-- Column and position in its run of box position `p` (R196) (DEDUCED, log entry 64). -/
def Cmd.columnOf (c : Cmd) (p : Nat) : Nat × Nat :=
  let d := digits c.tensor.dims p
  let n := fun j => c.tensor.dims.getD j 1
  let x := fun j => d.getD j 0
  (bitsN c.a.toNat 21 16 + x 1, x 0 + n 0 * (x 2 + n 2 * (x 3 + n 3 * x 4)))

/-- The blocks of 32 elements of a column whose scale bytes unit `j` of a BLOAD lands, by the position of their first element, each with
the positions of its elements that stand in the tensor. -/
def Cmd.scaleBlocks (c : Cmd) (ps : List Nat) : List (Nat × List Nat) :=
  let heads := ps.filter fun p => (c.columnOf p).2 % 32 = 0
  let live := c.live
  heads.map fun p =>
    let q := c.columnOf p
    (p, live.filter fun x => let y := c.columnOf x
      y.1 == q.1 && y.2 / 32 == q.2 / 32 && (match c.elt x with | .at _ _ => true | _ => false))

/-- The scale byte of a block: that of its first element in the tensor; where none of its elements stands there R196 names none, and
it is free (DESIGN CHOICE, log entry 126). -/
def blockScales (c : Cmd) (b sc : Bytes) : List (Nat × List Nat) → State → List (Nat × Nat) × State
  | [], s => ([], s)
  | (p, ins) :: t, s =>
    let (x, s) := match ins.findSome? (c.scaleOf b) with
      | some a => (some (nget 0 sc.m a).toNat, s)
      | none => if (c.value b p).isNone then (none, s) else let y := choose s 256; (some y.1, y.2)
    let (l, s) := blockScales c b sc t s
    ((x.map fun v => (p, v)).toList ++ l, s)

/-- The column-store bytes of elements that are delivered. -/
def Cmd.columnKeys (c : Cmd) (ps : List Nat) : List Nat :=
  let off := bitsN c.a.toNat 15 0
  ((ps.filter fun p => c.elt p != .skip).flatMap fun p =>
    let q := c.columnOf p
    (List.range ((q.2 * c.bits % 8 + c.bits + 7) / 8)).map fun i => csKey c.core q.1 (off + q.2 * c.bits / 8 + i)).eraseDups

/-- A unit of a BLOAD (R196). The array latches a product's or a step's columns whole at its start, so no earlier one is
still reading them (R197). A byte that elements of several units share is credited with the first. -/
def landColumns (s : State) (c : Cmd) (j : Nat) : State :=
  let ps := c.live.filter fun p => decide (p * c.bits / 8192 = j)
  let blocks := if c.scaled then c.scaleBlocks ps else []
  let x := (readBox s c [] (ps ++ blocks.flatMap fun e => e.2.take 1).eraseDups).bind fun b s =>
    (readScales s c c.scaled b (blocks.flatMap fun e => e.2.take 1)).bind fun sc s => .ok (b, sc) s
  landAfter s c j x fun (b, sc) s =>
    let off := bitsN c.a.toNat 15 0
    let vals : List (Nat × Nat) := ps.filterMap fun p => (c.value b p).map fun v => (p, v)
    let s := vals.foldl (fun s (e : Nat × Nat) =>
      let q := c.columnOf e.1
      csPut s c.core q.1 off (q.2 * c.bits) c.bits e.2) s
    let run := (packedLen c.runLen c.bits + 3) / 4 * 4
    let (ss, s) := blockScales c b sc blocks s
    let scaleKey := fun p => let q := c.columnOf p; csKey c.core q.1 (off + run + q.2 / 32)
    let s := ss.foldl (fun s (e : Nat × Nat) =>
      let q := c.columnOf e.1
      csPut s c.core q.1 (off + run + q.2 / 32) 0 8 e.2) s
    let keys := c.columnKeys ps
    let badScales := (blocks.filter fun e => (e.2.findSome? (c.scaleOf b)).any sc.bad.contains).map fun e => scaleKey e.1
    let s := { s with csPoison := markWords s.csPoison (keys ++ ss.map fun e => scaleKey e.1)
                                    (c.columnKeys (ps.filter (c.tainted b)) ++ badScales) }
    let before := if c.bits < 8 then c.columnKeys (c.live.filter fun p => decide (p * c.bits / 8192 < j)) else []
    landedUnit s c j [] c.core c.bar.toNat ((keys.filter fun k => !before.contains k).length + ss.length)

/-- A tile of a GATHER, `u` its core and number: the bytes read are stored there, the barrier credited (R183). -/
def landGather (s : State) (c : Cmd) (u : Nat) : State :=
  let mine := c.data.filter fun e => e.1 / 1024 == u
  let s := { s with pool := mine.foldl (fun m (e : Nat × Byte) => nset 0 m e.1 e.2) s.pool
                    poolPoison := markWords s.poolPoison (mine.map (·.1)) (c.bad.filter fun k => k / 1024 == u) }
  let bar := poolLoc s c.who c.bar.toNat 16
  landedUnit s c u [] bar.1 bar.2 mine.length

/-- BARRIER_CREDIT (DEDUCED, log entry 112). -/
def deliverCredit (n : Nat) (s : State) : State :=
  match s.credits[n]? with
  | some e =>
    if ctxHalted s e.ctx then { s with credits := s.credits.eraseIdx n } else
    creditBar { s with credits := s.credits.eraseIdx n } ⟨e.ctx, e.clu⟩ e.core e.off e.bytes e.sig
  | none => s

/-- BARRIER_CREDIT (R191): credit `n` of those on their way to another core. -/
def execBarrierCredit (n : Nat) (s : State) : Out := .next (deliverCredit n s)

end Sys2Proof.Machine
end

