-- ==== Sys2Proof/Machine/Gather.lean ====
section
/-! DEFINITION. GATHER: global elements into the pool (R183). -/

namespace Sys2Proof.Machine

/-! GATHER (R183). -/

/-- The checks of a lane of GATHER before translation, in the order of R176. -/
def gatherPre (s : State) (w : Warp) (n va dst bar : Nat) : Option LaneBad :=
  (globalCheck va n).or <|
  (if dst % n ≠ 0 then some (⟨0x06, Nat.log2 n, dw dst, 2⟩ : LaneBad) else none).or <|
  (align16 bar 2).or <|
  (poolCheck s w dst n 1 false).or (poolCheck s w bar 16 1 false)

/-- The tiles that the lanes' destinations lie in. -/
def gatherTiles (s : State) (w : Warp) (n : Nat) (lanes : List Nat) (dst : Nat → Nat) : List (Nat × Nat) :=
  (lanes.map fun l => let p := poolLoc s w (dst l) n; (p.1, p.2 / 1024)).eraseDups

/-- The bytes that a GATHER lands: pool key and byte, the higher lane's at a key that two lanes name; keys of poisoned
bytes. Each element is a read in its lane's phase (DEDUCED, log entry 23). -/
def gatherRead (s : State) (w : Warp) (rep : Bool) (n : Nat) (lanes : List Nat) (dst : Nat → Nat) (loc : Nat → Option Nat) :
    List (Nat × Byte) × List Nat × State :=
  let r := lanes.foldl (fun (acc : List (Nat × Byte) × List Nat × RowView × State) l =>
    let p := poolLoc s w (dst l) n
    let k := poolKey p.1 p.2
    let s := acc.2.2.2
    let (bs, bad, rest) := match loc l with
      | some pa => let x := readElem s l rep acc.2.2.1 pa n; (x.1, unitPoison s w.core rep pa n || stagedPoison s w.core w.uid pa n, x.2)
      | none => (List.replicate n 0, false, acc.2.2)
    let old := acc.1.filter fun e => e.1 < k || k + n ≤ e.1
    let oldBad := acc.2.1.filter fun a => a < k || k + n ≤ a
    (old ++ (List.range n).zipWith (fun i b => (k + i, b)) bs, oldBad ++ (if bad then (List.range n).map (k + ·) else []), rest))
    ([], [], rowViewOf s n (lanes.filterMap fun l => (loc l).map fun pa => (l, pa)), s)
  (r.1, r.2.1, r.2.2.2)

/-- A GATHER's command once its elements are read: read set and replicas first. -/
def gatherCmd (s : State) (c : Cmd) (n : Nat) (lanes : List Nat) (dst va : Nat → Nat)
    (loc : List (Nat × Option Nat × DWord)) :
    Cmd × State :=
  let w := c.who
  let s := overtakes s c.core s.fresh
  let at_ := fun l => (locOf loc l).1
  let s := if fbit c.insn 53 then addReads s c.warp (lanes.filterMap fun l => (at_ l).map fun pa => (pa / 256, va l)) else s
  let s := if fbit c.insn 52 then addReplicas s c.core c.ctx (loc.filterMap fun e => e.2.1.map fun pa => (pa, e.2.2)) else s
  let (data, bad, s) := gatherRead s w (fbit c.insn 52) n lanes dst at_
  ({ c with data := data, bad := bad, units := ((data.map fun (e : Nat × Byte) => e.1 / 1024).eraseDups).length }, s)

/-- GATHER's effect. -/
def gatherDo (it : Item) (s : State) (w : Warp) (r : Run) : State :=
  let n := tyBytes it.mty
  let act := lanesOf (activeLanes w r it)
  let va := operand s w r it (.int 64 false) .a
  let dst := operand s w r it vtCount .b
  let bar := operand s w r it vtCount .c 0
  let go := fun s => goOn s r it (dataWatch s w act false true false va n)
  let tiles := gatherTiles s w n act dst
  let bp := poolLoc s w bar 16
  let c : Cmd := { newCmd w r it .gather with bar := w32 bar, tiles := tiles }
  if let some id := r.watching then (if s.cmds.any fun x => x.id == id then s else goOn s r it true)
  else if act.isEmpty then finish s r it
  else
    match translateLanes s w act (fun l => gatherPre s w n (va l) (dst l) bar) va .read 1 true with
    | (.fault l b, s') => laneFault s' r it l b
    | (x, s') =>
      if tiles.contains (bp.1, bp.2 / 1024) then onceFault s' r it ⟨0x08, 1, dw bar, 2⟩
      else if tileFull s tiles then holdCmd s w tiles
      else if heldBefore s w || transitOut s w tiles then s
      else
        match x with
        | .park l a =>
          parkAccess s' r it act (fun l => ⟨va l, dst l, 0⟩) l a 0 [] (fun e => { e with tiles := tiles, bar := w32 bar })
            fun s => go (takeTiles (unhold s w.uid) tiles)
        | .ok loc =>
          if anyLocked s' (loc.filterMap (·.2.1)) || behindAtomic s' { c with id := s'.fresh } (loc.filterMap (·.2.1)) then s
          else if !(missing s' w.core (it.mb 52) (loc.filterMap fun e => e.2.1.map fun pa => (pa, n, e.2.2))).isEmpty then
            sendReads s' (missing s' w.core (it.mb 52) (loc.filterMap fun e => e.2.1.map fun pa => (pa, n, e.2.2)))
          else
            let (c, s') := gatherCmd s' c n act dst va loc
            let (id, s') := takeId s'
            watched id r it (dataWatch s w act false true false va n)
              (takeTiles { unhold s' w.uid with cmds := s'.cmds ++ [{ c with id := id }] } tiles)
        | .fault _ _ => s

/-- GATHER. -/
def gatherOp (it : Item) (s : State) : Out :=
  issue it (fun _ _ _ =>
    { uses := [.src .a (.int 64 false) accMem, .src .b vtCount accMem, .src .c vtCount { accMem with v := false, uni := true },
        .dstNone]
      bads := memBads it [4, 5, 8, 9] false 55 54 }) s (gatherDo it)

/-- GATHER (R183). -/
def execGather (f : Long) (s : State) : Out := gatherOp (longItem 0x123 false f) s

end Sys2Proof.Machine
end

