-- ==== Sys2Proof/Machine/RowOps.lean ====
section
/-! DEFINITION. Row operations in the stacks (R252, R253). -/

namespace Sys2Proof.Machine

/-! ROWZF and ROWCP (R252, R253). -/

/-- Role bit of the kernel header (R130): TX 2, QRY 3, ROWOP 4, DLAUNCH 5. -/
def roleBads (s : State) (w : Warp) (bit : Nat) : List Bad := opdBad (!fbit (khdrWord s w 3) bit) 9 bit

/-- Frame addresses: canonical, then 64 KiB-aligned (R359, Table 20.5). -/
def framesBad (vas : List Nat) : Option LaneBad :=
  firstOf ((vas.map fun va => if bitsN va 63 60 ≠ 0 then some ⟨0x05, 0, dw va, 1⟩ else none) ++
    vas.map fun va => if va % 65536 ≠ 0 then some ⟨0x06, 16, dw va, 1⟩ else none)

/-- Translating a frame of a row operation at issue: its place, none where it is not there (the command then parks). -/
def frameAt (s : State) (w : Warp) (r : Run) (it : Item) (va : Nat) (acc : Acc) : Iss (Option Nat) :=
  match translate s (coreShelf w.core) (tenantOf s w) va acc 3 with
  | (.ok pa _, s) => .ok (some pa) s
  | (.bad c i a asp, s) => .fault (onceFault s r it ⟨c, i, dw a, asp⟩)
  | (_, s) => .ok none s

/-- The steps of R189 for a row operation. -/
def rowSteps (kind : CmdKind) (s : State) (w : Warp) (r : Run) (it : Item) : Iss State :=
  let a := operand s w r it (.int 64 false) .a 0
  let b := operand s w r it (.int 64 false) .b 0
  let cp := kind == .rowcp
  let ctl := sget w it.d
  let bar := ctlBar ctl
  let c : Cmd := { newCmd w r it kind with ctl := ctl, bar := w32 bar, kv := [dw a, dw b], units := 1 }
  (issCheck s r it (firstOf [framesBad (if cp then [a, b] else [a]), align16 bar 2])).bind fun _ s =>
  (frameAt s w r it a .write).bind fun pa s =>
  (if cp then frameAt s w r it b .read else .ok none s).bind fun pb s =>
  (issCheck s r it (firstOf [if cp && (a == b || (pa.isSome && pa == pb)) then some ⟨0x08, 5, dw a, 1⟩ else none,
    barBad s w 14 bar []])).bind fun _ s =>
  if pageLogged w a || (cp && pageLogged w b) then .hold
  else
    startCmd s r it c fun _ s =>
      let s := (pa.map fun pa => raiseOverlap s w.core pa 65536).getD s
      (pb.map fun pb => raiseOverlap s w.core pb 65536).getD s

/-- ROWZF, and ROWCP where `cp`. -/
def rowOp (cp : Bool) (it : Item) (s : State) : Out :=
  let frame := VT.int 64 false
  issue it (fun s w _ =>
    { uses := [.src .a frame accUni, if cp then .src .b frame accUni else .unused .b, .unused .c]
      bads := dcBads it ++ modZero it 60 52 ++ ctlBads s w it ++ maskBads w it ++ roleBads s w 4
      extra := [(1, it.d)] }) s (onceDo (rowSteps (if cp then .rowcp else .rowzf)) it)

/-- The lines of a frame. -/
def frameLines (pa : Nat) : List Nat := (List.range 256).map (pa / 256 + ·)

/-- Changing the tags of a frame's lines. -/
def mapLines (s : State) (pa : Nat) (f : Line → Line) : State :=
  { s with l2 := (frameLines pa).foldl (fun m k => nset {} m k (f (nget {} m k))) s.l2 }

/-- Whether a row operation under way has a frame as its destination. -/
def rowTarget (s : State) (pa : Nat) : Bool :=
  s.cmds.any fun c => (c.kind == .rowzf || c.kind == .rowcp) && !c.sent.isEmpty && (wordAt c.kv 2).toNat == pa

/-- Whether a frame's lines are held against a row operation: the destination by any hold; the source not by a row operation that is
still to replace it, with which it is unordered (R80). -/
def rowHeld (s : State) (c : Cmd) (src : Bool) (pa : Nat) : Bool :=
  let mine := src && rowTarget s pa
  ((frameLines pa).any fun l => let t := nget {} s.l2 l; (t.locked && !mine) || t.holdWr) || entryAhead s c.core c.id pa 65536

/-- Whether pages let the shelf send a ROWOP packet (R63): all are row-local to it, in the stacks. -/
def rowPacket (pages : List (Nat × DWord)) : Bool := pages.all fun p => leafLAY p.2 == 1 && paKind p.1 == .fast

/-- A compressed source's metadata goes with its contents (R253 step 4). -/
def rowMeta (s : State) (pa : Nat) (pb : Option Nat) : State :=
  match pb with
  | some b =>
    if (nget ({} : FrameMeta) s.fmeta (b / 65536)).cmp then
      { s with fmeta := nset {} s.fmeta (pa / 65536) { nget ({} : FrameMeta) s.fmeta (pa / 65536) with cmp := true } }
    else s
  | none => s

/-- Starting a row operation at its homes (R253 steps 2 to 4): the source is written back and its writes are held, the
destination is locked (its sectors are dropped with step 5); then the packet is sent, or the copy streams through the homes. Not while a
line of either frame is held, or no tag is free (DEDUCED, log entry 62). -/
def rowStart (s : State) (c : Cmd) : State :=
  let a := (wordAt c.kv 0).toNat
  let b := (wordAt c.kv 1).toNat
  let cp := c.kind == .rowcp
  let shelf := coreShelf c.core
  let ten := tenantOf s c.who
  let stop := fun s k i x asp => stopCmd s c { cause := k, addr := dw x, asp := asp, info0 := i }
  match translate s shelf ten a .write 3 with
  | (.bad k i x asp, s) => stop s k i x asp
  | (.park _, s) => parkCmd s c 0 a
  | (.zero _, s) => parkCmd s c 0 a
  | (.ok pa ea, s1) =>
    let src : Xlate × State := if cp then translate s1 shelf ten b .read 1 else (.zero 0, s1)
    match src with
    | (.bad k i x asp, s) => stop s k i x asp
    | (.park _, s) => parkCmd s c 0 b
    | (x, s1) =>
      let page := match x with
        | .ok pb e => some (pb, e)
        | _ => none
      let pb := page.map (·.1)
      if rowHeld s1 c false pa || pb.any (rowHeld s1 c true) then s
      else
        let s2 := match pb with
          | some pb => mapLines ((frameLines pb).foldl writeBack s1) pb fun l => { l with holdWr := true }
          | none => s1
        let s2 := mapLines s2 pa fun l => { l with locked := true }
        let s2 := { s2 with replicas := s2.replicas.filter fun r => r.line / 256 != pa / 65536 }
        let pkt := rowPacket ((pa, ea) :: page.toList)
        let kv := [dw a, dw b, dw pa, dw (pb.getD 0), dw ((if pb.isSome then 1 else 0) + (if pkt then 2 else 0))]
        let started := fun (s : State) => putCmd s { c.unpark 0 with sent := [1], done := if pkt then [] else [1], kv := kv }
        if !pkt then rowMeta (started s2) pa pb
        else
          let p : Packet :=
            { stack := stackOf pa, tag := 0, kind := 4, reply := false, pa := pa, sectors := 0, bytes := [],
              args := pb.toList, src := c.id }
          match sendPacket s2 p with
          | some s2 => started s2
          | none => s

/-- Whether a row operation takes the path inside the DRAM, which the frames' metadata chooses (R253 step 4): a row-local destination,
with a row-local source in the same bank and 512-row subarray where there is one. -/
def rowInDram (s : State) (pa : Nat) (pb : Option Nat) : Bool :=
  let a := nget ({} : FrameMeta) s.fmeta (pa / 65536)
  a.layout == .rowLocal && pb.all fun pb =>
    let b := nget ({} : FrameMeta) s.fmeta (pb / 65536)
    b.layout == .rowLocal && stackOf pb == stackOf pa && b.pch == a.pch && b.bank == a.bank && b.row / 512 == a.row / 512

/-- A report about a row operation, to the tenant of its command (Table 24.4). -/
def rowReport (s : State) (c : Cmd) (pa : Nat) (pb : DWord) (sub sev : Nat) : State :=
  match findCtx s c.ctx with
  | none => s
  | some x =>
    reportBare s x.tenant x.queue
      { cause := 0xA2, addr := dw pa, asp := 3, info0 := sub, info1 := stackOf pa, aux := pb, src := 5, sev := sev }

/-- The path inside the DRAM may fail; the operation is then completed through the buffer, with the same bytes, and reported
(cause 0xA2, subcode 2). Whether it fails is a free choice. -/
def rowFallback (s : State) (c : Cmd) (pa : Nat) (pb : Option Nat) : State :=
  if !fbit (wordAt c.kv 4) 1 || !rowInDram s pa pb then s
  else
    let (k, s) := choose s 2
    if k = 1 then rowReport s c pa (dw (pb.getD 0)) 2 0 else s

/-- Another ROWCP under way that reads the frame which this one replaces: each sector that it has not kept it may have read before
(R80). -/
def keepSource (pa : Nat) (s : State) (c : Cmd) : State :=
  if c.kind == .rowcp && !c.sent.isEmpty && fbit (wordAt c.kv 4) 0 && (wordAt c.kv 3).toNat == pa then
    (List.range 2048).foldl (fun s k =>
      let (x, s) := choose s 2
      let keep := fun (c : Cmd) =>
        { c with kept := nset [] c.kept k (homeBytes s (pa + 32 * k) 32), bad := c.bad ++ if nget false s.poison (pa / 32 + k) then [k] else [] }
      if x = 0 || !(nget [] c.kept k).isEmpty then s
      else { s with cmds := s.cmds.map fun y => if y.id == c.id then keep y else y }) s
  else s

/-- Sector `k` of what a row operation writes: its bytes, and whether they are poisoned. -/
def rowSector (s : State) (c : Cmd) (k : Nat) : List Byte × Bool :=
  let pb := (wordAt c.kv 3).toNat
  if !fbit (wordAt c.kv 4) 0 then (List.replicate 32 0, false)
  else
    match nget [] c.kept k with
    | [] => (homeBytes s (pb + 32 * k) 32, nget false s.poison (pb / 32 + k))
    | bs => (bs, c.bad.contains k)

/-- Step 5 for one destination line: its bytes are applied as one write at its home, which keeps no sector of it (R344). -/
def rowLine (who : List Sig) (pa : Nat) (bad : List Nat) (bs : List Byte) (s : State) : State :=
  invalidateLine (writeBack (applyWriteBad 512 (fun _ => who) bad s (atAddr pa bs)) (pa / 256)) (pa / 256)

/-- ROWOP_COMPLETE (R253 steps 5 and 6): each destination line is applied as one write at its home and unlocked, the source
holds are released, the command credits 65,536 bytes; none where its tenant has been reset meanwhile (R378 step 3). -/
def rowComplete (n : Nat) (s : State) : State :=
  match (s.cmds.filter fun c => (c.kind == .rowzf || c.kind == .rowcp) && c.done.contains 1)[n]? with
  | none => s
  | some c =>
    let pa := (wordAt c.kv 2).toNat
    let pb := (wordAt c.kv 3).toNat
    let from_ := fbit (wordAt c.kv 4) 0
    let out := (List.range 2048).map (rowSector s c)
    let line := fun k => (out.drop (8 * k)).take 8
    let bad := (List.range 2048).filter fun k => (out.getD k ([], false)).2
    let badOf := fun k => (bad.filter fun j => j / 8 == k).map (pa / 32 + ·)
    let s' := (s.cmds.filter fun x => x.id != c.id).foldl (keepSource pa) s
    let s' := (List.range 256).foldl (fun s k => rowLine c.writer (pa + 256 * k) (badOf k) ((line k).flatMap (·.1)) s) s'
    let s' := { s' with rows := (List.range 256).foldl (fun m k => nset 0 m (pa / 256 + k) (s.order + k + 1)) s'.rows }
    let s' := mapLines s' pa fun l => { l with locked := false }
    let s' := if from_ then mapLines s' pb fun l => { l with holdWr := false } else s'
    let s' := rowFallback s' c pa (if from_ then some pb else none)
    let s' := if bad.isEmpty then s' else rowReport s' c pa (dw pb) 1 2
    if (findCtx s' c.ctx).isNone || ctxHalted s' c.ctx then { s' with cmds := s'.cmds.filter fun x => x.id != c.id }
    else landedUnit s' c 0 [] c.core c.bar.toNat 65536

/-- ROWZF (R252, R253). -/
def execRowzf (f : Long) (s : State) : Out := rowOp false (longItem 0x160 true f) s

/-- ROWCP (R252, R253). -/
def execRowcp (f : Long) (s : State) : Out := rowOp true (longItem 0x161 true f) s

/-- ROWOP_COMPLETE (R253): row operation `n` of those the stacks have done. -/
def execRowopComplete (n : Nat) (s : State) : Out := .next (rowComplete n s)

end Sys2Proof.Machine
end

