-- ==== Sys2Proof/Machine/Stack.lean ====
section
/-! DEFINITION. The stack base dies: packets, replies, refresh (R62 to R64, R270), and write-back (R55). -/

namespace Sys2Proof.Machine

/-! Packets to the stacks (R62, Table 3.6). -/

/-- Sectors of a line that a packet touches. -/
def pktSectors (p : Packet) : BitVec 8 := p.sectors

/-- Whether a packet waits for an earlier one of its port (R62). -/
def pktAfter (p q : Packet) : Bool :=
  p.stack == q.stack && !q.reply &&
    match p.kind with
    | 3 => q.kind ≤ 2 && q.pa / 65536 == p.pa / 65536
    | 4 => q.kind ≤ 2 && (q.pa / 65536 == p.pa / 65536 || p.args.any fun a => q.pa / 65536 == a / 65536)
    | _ => q.kind ≤ 2 && q.pa / 256 == p.pa / 256 && (pktSectors p &&& pktSectors q) != 0

/-- The packet at place `n` of a kind that its stack may serve now, and its index. -/
def servable (s : State) (kind n : Nat) : Option (Nat × Packet) :=
  let is := (List.range s.packets.length).filter fun i =>
    match s.packets[i]? with
    | some p => p.kind == kind && !p.reply && !((s.packets.take i).any (pktAfter p))
    | none => false
  match is[n]? with
  | some i => (s.packets[i]?).map fun p => (i, p)
  | none => none

/-- Replacing a packet. -/
def putPacket (s : State) (i : Nat) (p : Packet) : State := { s with packets := s.packets.set i p }

/-- The mask of a line's nonzero sectors (R64): a sector of zeros is not stored; all ones in a frame that is not compressed (R307). -/
def nonzeroMask (s : State) (line : Nat) : Nat :=
  if !(nget ({} : FrameMeta) s.fmeta (line / 256)).cmp then 255
  else (List.range 8).foldl (fun m k => if (ngetRange 0 s.dram (256 * line + 32 * k) 32).all (· == 0) then m else m + 2 ^ k) 0

/-- STACK_READ: the requested sectors, as an uncompressed frame would return them, and the line's mask where it is asked for (R64). -/
def serveRead (n : Nat) (s : State) : State :=
  match servable s 0 n with
  | none => s
  | some (i, p) =>
    let ks := (List.range 8).filter fun k => p.sectors.getLsbD k
    let bytes := ks.foldl (fun m k => nsetRange 0 m (p.pa / 256 * 256 + 32 * k) (ngetRange 0 s.dram (p.pa / 256 * 256 + 32 * k) 32)) []
    putPacket s i { p with reply := true, bytes := bytes, args := if p.args.isEmpty then [] else [nonzeroMask s (p.pa / 256)] }

/-- The reply of a READ: the sectors it brings, and those its mask tells to be zero, are valid at the home, where they are not already. -/
def readReply (s : State) (p : Packet) : State :=
  let zeros := p.args.foldl (fun (m : BitVec 8) a => m ||| ~~~(BitVec.ofNat 8 a)) 0
  ((List.range 8).filter fun k => (p.sectors ||| zeros).getLsbD k).foldl (fun s k =>
    let a := p.pa / 256 * 256 + 32 * k
    fillWith s a (ngetRange 0 p.bytes a 32)) s

/-- STACK_WRITE. -/
def serveWrite (n : Nat) (s : State) : State :=
  match servable s 1 n with
  | none => s
  | some (i, p) =>
    let ks := (List.range 8).filter fun k => p.sectors.getLsbD k
    let s := putPacket (writtenPoison (raceScans s p.pa) p) i { p with reply := true }
    { s with dram := ks.foldl (fun m k =>
        let a := p.pa / 256 * 256 + 32 * k
        nsetRange 0 m a (ngetRange 0 p.bytes a 32)) s.dram }

/-- STACK_ATOMIC: the operation on the bytes in the stack; the old value is the reply, with which the line's home applies the
write (its line is held until then). Poisoned bytes are left as they are, and the reply says so (R382). -/
def serveAtomic (n : Nat) (s : State) : State :=
  match servable s 2 n with
  | none => s
  | some (i, p) =>
    match p.args with
    | [op, ty, x, e, lane] =>
      let k := tyBytes ty
      if (List.range k).any fun j => storedPoison s ((p.pa + j) / 32) then putPacket s i { p with reply := true, args := [] } else
      let old := ofBytes (ngetRange 0 s.dram p.pa k)
      let res := applyGroup op ty old [⟨lane, dw x, dw e⟩]
      let new := bytesOf k res.1
      putPacket { s with dram := nsetRange 0 s.dram p.pa new } i { p with reply := true, args := [old, lane, k] }
    | _ => s

/-- STACK_QUERY: the stack splits the query into its chunks; the scan begins (R270). -/
def serveQuery (n : Nat) (s : State) : State :=
  let ok := fun (p : Packet) => match p.args with
    | _ :: _ :: _ :: _ :: _ :: acc :: _ => acc == 0
    | _ => false
  let is := (List.range s.packets.length).filter fun i =>
    match s.packets[i]? with
    | some p => p.kind == 3 && !p.reply && ok p && !((s.packets.take i).any (pktAfter p))
    | none => false
  match is[n]? with
  | none => s
  | some i =>
    match s.packets[i]? with
    | none => s
    | some p =>
      (match p.args with
       | u0 :: u1 :: tb :: mask :: k :: _ :: t => putPacket s i { p with args := u0 :: u1 :: tb :: mask :: k :: 1 :: t }
       | _ => s)

/-- STACK_ROWOP: the operation in DRAM, through the buffer or by streaming; its bytes reach the destination's lines when the
command completes (R253 steps 4 and 5), a compressed source's metadata goes with them. -/
def serveRowop (n : Nat) (s : State) : State :=
  match servable s 4 n with
  | none => s
  | some (i, p) =>
    let s := putPacket s i { p with reply := true }
    rowMeta s p.pa p.args.head?

/-- The sectors of a line that are poisoned in its slice. -/
def lineBad (s : State) (line : Nat) : BitVec 8 :=
  (List.range 8).foldl (fun (m : BitVec 8) k => if nget false s.poison (8 * line + k) then m ||| (1#8 <<< k) else m) 0

/-- Sending a line's dirty sectors to its stack in a WRITE packet, which leaves the line clean; a line of the capacity
tier is written at once. -/
def sendWriteBack (line : Nat) (s : State) : State :=
  let l := nget {} s.l2 line
  if l.dirty = 0 || l.locked then s
  else if paKind (256 * line) = .fast then
    let ks := (List.range 8).filter fun k => l.dirty.getLsbD k
    let bytes := ks.foldl (fun m k => nsetRange 0 m (256 * line + 32 * k) (ngetRange 0 s.l2b (256 * line + 32 * k) 32)) []
    let p : Packet :=
      { stack := stackOf (256 * line), tag := 0, kind := 1, reply := false, pa := 256 * line, sectors := l.dirty,
        bytes := bytes, args := [], src := 0, bad := lineBad s line }
    match sendPacket s p with
    | some s => { s with l2 := nset {} s.l2 line { l with dirty := 0 } }
    | none => s
  else writeBack s line

/-- The group that an ATOMIC packet carries comes back undone: its line is released. -/
def atomicBack (s : State) (p : Packet) (k : State → Req → AtomGroup → State) : State :=
  let s := setLock s (p.pa / 256) false
  match s.reqs.find? fun q => q.id == p.src with
  | none => s
  | some q =>
    let s := { s with reqs := s.reqs.map fun x => if x.id == q.id then { x with away := none } else x }
    (q.away.map fun g => k s q g).getD s

/-- The reply of an ATOMIC: the lane receives the old value, the line's write is applied, the line is released. -/
def atomicReply (s : State) (p : Packet) : State :=
  let q := s.reqs.find? fun q => q.id == p.src
  let old := p.args.getD 0 0
  let lane := p.args.getD 1 0
  let k := p.args.getD 2 0
  let f := foundAt s p.pa k
  let gs := (q.bind fun q => q.away.map (groupSigs s q)).getD [hostSig s]
  let core := (q.map (·.core)).getD 512
  let js := List.range k
  let s := { s with
    hist := js.foldl (fun h j => ⟨p.pa + j, BitVec.ofNat 8 (old / 256 ^ j), s.order, core, gs.flatMap (·.agents)⟩ :: h) s.hist
    order := s.order + 1
    sigs := js.foldl (fun m j => nset [] m (p.pa + j) gs) s.sigs }
  let s := lineWritten (setLock s (p.pa / 256) false) (p.pa / 256)
  match q with
  | some q =>
    let s := { s with reqs := s.reqs.map fun x => if x.id == q.id then { x with away := none } else x }
    dropGroup (deliverOld s q p.pa f [(lane, old)]) q p.pa [lane]
  | none => s

/-- STACK_REPLY: a reply reaches the slice and its tag is free (R62). -/
def takeReply (n : Nat) (s : State) : State :=
  let is := (List.range s.packets.length).filter fun i => (s.packets[i]?.map (·.reply)).getD false
  match is[n]? with
  | none => s
  | some i =>
    match s.packets[i]? with
    | none => s
    | some p =>
      let s := { s with packets := s.packets.eraseIdx i }
      match p.kind with
      | 0 => readReply s p
      | 2 => if p.args.isEmpty then atomicBack s p poisonGroup else atomicReply s p
      | 4 =>
        (match s.cmds.find? fun c => c.id == p.src with
         | some c => putCmd s { c with done := [1] }
         | none => s)
      | _ => s

/-- STACK_CTRL: system software sets a frame's metadata (R63, R260) with a CTRL packet, which takes a tag of its port and is answered
in the same step (DEDUCED, log entry 129). -/
def setFrameMeta (frame : Nat) (md : FrameMeta) (s : State) : State :=
  match freeTag s (stackOf (65536 * frame)) with
  | some _ => { s with fmeta := nset {} s.fmeta frame md }
  | none => s

/-- STACK_REFRESH: a refresh; where temperature has raised its multiple, cause 0xA3 says so (R394, R395). -/
def refreshStack (st mult temp : Nat) (s : State) : State :=
  let old := nget 1 s.refresh st
  let s := { s with refresh := nset 1 s.refresh st mult }
  if old < mult then
    reportModule s { cause := 0xA3, info0 := st, info1 := mult, aux := dw temp, src := 5, sev := 0 }
  else s

/-- STACK_READ (R64): READ packet `n` that may be served. -/
def execStackRead (n : Nat) (s : State) : Out := .next (serveRead n s)

/-- STACK_WRITE (R62, R64): WRITE packet `n` that may be served. -/
def execStackWrite (n : Nat) (s : State) : Out := .next (serveWrite n s)

/-- STACK_ATOMIC (R62): ATOMIC packet `n` that may be served. -/
def execStackAtomic (n : Nat) (s : State) : Out := .next (serveAtomic n s)

/-- STACK_QUERY (R62, R270): QUERY packet `n` that may be accepted. -/
def execStackQuery (n : Nat) (s : State) : Out := .next (serveQuery n s)

/-- STACK_ROWOP (R253): ROWOP packet `n` that may be served. -/
def execStackRowop (n : Nat) (s : State) : Out := .next (serveRowop n s)

/-- STACK_CTRL (R63). -/
def execStackCtrl (frame : Nat) (md : FrameMeta) (s : State) : Out := .next (setFrameMeta frame md s)

/-- STACK_REPLY (R62): reply `n` of those under way. -/
def execStackReply (n : Nat) (s : State) : Out := .next (takeReply n s)

/-- STACK_REFRESH (R270, R394). -/
def execStackRefresh (st : Nat) (mult : Nat) (temp : Nat) (s : State) : Out := .next (refreshStack st mult temp s)

/-- L2_WRITEBACK (R55). -/
def execL2Writeback (line : Nat) (s : State) : Out := .next (sendWriteBack line s)

end Sys2Proof.Machine
end

