-- ==== Sys2Proof/Machine/Attention.lean ====
section
/-! DEFINITION. Decode attention in the stacks (R260 to R273). -/

namespace Sys2Proof.Machine

/-! The KV segment (R261, R262). -/

/-- HDIM of a segment record (Table 12.1). -/
def kvHd (ws : List DWord) : Nat := 16 * 2 ^ fld (wordAt ws 1) 34 32
/-- FMT. -/
def kvFmt (ws : List DWord) : Nat := fld (wordAt ws 1) 38 35
/-- CBI. -/
def kvCbi (ws : List DWord) : Nat := fld (wordAt ws 1) 46 39
/-- BASE. -/
def kvBase (ws : List DWord) : Nat := fld (wordAt ws 0) 59 16 * 65536
/-- NTOK. -/
def kvTok (ws : List DWord) : Nat := fld (wordAt ws 1) 31 0
/-- Token bytes tb (R261). -/
def kvTb (ws : List DWord) : Nat := 2 * kvHd ws * fmtBits (kvFmt ws) / 8
/-- TPF (R261). -/
def kvTpf (ws : List DWord) : Nat := 65536 / max 1 (kvTb ws)

/-- The word of a segment record that breaks R262, if any. -/
def kvBad (ws : List DWord) : Option Nat :=
  if fld (wordAt ws 0) 63 60 ≠ 0 || fld (wordAt ws 0) 15 0 ≠ 0 then some 0
  else if fld (wordAt ws 1) 63 47 ≠ 0 || !([4, 5, 6, 12] : List Nat).contains (kvFmt ws) || 4 < fld (wordAt ws 1) 34 32 ||
      kvTok ws = 0 then some 1
  else if fld (wordAt ws 3) 63 32 ≠ 0 then some 3
  else ([4, 5, 6, 7] : List Nat).find? fun i => wordAt ws i ≠ 0

/-- Frames of a window (R266). -/
def kvFrames (ws : List DWord) (first len : Nat) : Nat := (first + len - 1) / kvTpf ws + 1 - first / kvTpf ws

/-- First and last window token of the window's frame `i`, within the frame. -/
def kvWindow (ws : List DWord) (first len i : Nat) : Nat × Nat :=
  let fb := (first / kvTpf ws + i) * kvTpf ws
  (max first fb - fb, min (first + len) (fb + kvTpf ws) - 1 - fb)

/-- Virtual address of the window's frame `i`. -/
def kvFrameVa (ws : List DWord) (first i : Nat) : Nat := kvBase ws + 65536 * (first / kvTpf ws + i)

/-- Bytes of a triple (R265). -/
def tripleBytes (hd : Nat) : Nat := 16 + 4 * hd

/-! The bank triple (R263, R264). -/

/-- Ex2Bau (R263): what EX2.f32 returns. -/
def ex2Bau (bits : Nat) : Nat := ex2F false bits (decodeF f32 bits)

/-- Round(_, FP32, RNE, false). -/
def toF32 (x : FV) : Nat := roundF f32 0 0 false false x

/-- Round(x − y, FP32, RNE, false) of two FP32 encodings. -/
def subF32 (x y : Nat) : Nat := toF32 (addFV 0 (decodeF f32 x) (decodeF f32 y).flip)

/-- A triple: m, s, STATUS bits [3:0], CNT, a. -/
structure Triple where
  m : Nat
  s : Nat
  stat : Nat
  cnt : Nat
  a : List Nat
  deriving DecidableEq, Repr

/-- The canonical-NaN triple. -/
def nanTriple (hd stat cnt : Nat) : Triple := ⟨f32.qnan, f32.qnan, stat, cnt, List.replicate hd f32.qnan⟩

/-- The value of a K or V element code. -/
def kvDecode (fmt : Nat) (cb : List (BitVec 16)) (x : Nat) : FV :=
  if fmt = 12 then decodeF bf16 ((cb.getD (x % 16) 0).toNat) else eltVal fmt x

/-- Element `d` of a token, K from 0 on and V from HDIM on, by its bytes (R261). -/
def kvElt (ws : List DWord) (cb : List (BitVec 16)) (byte : Nat → Byte) (tok d : Nat) : FV :=
  let bits := fmtBits (kvFmt ws)
  let bit := d * bits
  let n := (bit % 8 + bits + 7) / 8
  kvDecode (kvFmt ws) cb (ofBytes ((List.range n).map fun j => byte (tok + bit / 8 + j)) / 2 ^ (bit % 8) % 2 ^ bits)

/-- The window tokens of a bank (R261): slots from 0 on. -/
def bankTokens (ws : List DWord) (win : Nat × Nat) (bank : Nat) : List Nat :=
  (List.range (4096 / max 1 (kvTb ws))).filter fun sl => decide (win.1 ≤ 16 * sl + bank) && decide (16 * sl + bank ≤ win.2)

/-- The triple of a bank (R264) from the frame's bytes by offset; RACE and FAIL come in later. -/
def bankTriple (ws : List DWord) (cb : List (BitVec 16)) (query : List Word) (win : Nat × Nat) (bank : Nat)
    (byte : Nat → Byte) : Triple :=
  let hd := kvHd ws
  let scale := fun (x : Nat) => decodeF f32 x
  let ks := scale (fld (wordAt ws 2) 63 32)
  let ss := scale (fld (wordAt ws 2) 31 0)
  let vs := scale (fld (wordAt ws 3) 31 0)
  let q := query.map fun x => decodeF f32 x.toNat
  let toks := (bankTokens ws win bank).map fun sl => 4096 * bank + kvTb ws * sl
  if toks.isEmpty then ⟨0xFF800000, 0, 1, 0, List.replicate hd 0⟩
  else
    let k := fun t d => mulFV ks (kvElt ws cb byte t d)
    let v := fun t d => mulFV vs (kvElt ws cb byte t (hd + d))
    let score := fun t => toF32 (mulFV ss (sumFV 0 ((List.range hd).map fun d => mulFV (q.getD d .nan) (k t d))))
    let scores := toks.map score
    let vals := toks.map fun t => (List.range hd).map (v t)
    if scores.any (fun x => !(decodeF f32 x).finite) || vals.any (fun l => l.any fun x => !x.finite) ||
        q.any (fun x => !x.finite) then nanTriple hd 8 toks.length
    else
      let m := (scores.drop 1).foldl (minMaxEnc f32 false false) (scores.headD 0)
      let p := scores.map fun x => decodeF f32 (ex2Bau (subF32 x m))
      let s := toF32 (sumFV 0 p)
      let a := (List.range hd).map fun d => toF32 (sumFV 0 ((p.zip vals).map fun e => mulFV e.1 (e.2.getD d .nan)))
      let inf := (s :: a).any fun x => !(decodeF f32 x).finite
      ⟨m, s, if inf then 8 else 0, toks.length, a⟩

/-- The bytes of a triple (Table 12.2) with its status word (Table 12.3). -/
def tripleImage (t : Triple) (fidx bank : Nat) : List Byte :=
  bytesOf 4 t.m ++ bytesOf 4 t.s ++ bytesOf 4 (fidx * 65536 + bank * 256 + t.stat) ++ bytesOf 4 t.cnt ++ t.a.flatMap (bytesOf 4)

/-! QPOST (R266 to R268). -/

/-- The checks of a window frame at issue (R267): a frame that is not there parks later. -/
def windowFrame (s : State) (w : Warp) (r : Run) (it : Item) (va i : Nat) : Iss Unit :=
  let ten := tenantOf s w
  match findLeaf s (coreShelf w.core) ten va with
  | (.invalid _, s) => .ok () s
  | (.bad sub, s) => .fault (onceFault s r it ⟨0x45, sub, dw va, 1⟩)
  | (.leaf e g, s) =>
    let x := leafAccess s (coreShelf w.core) ten va .read 1 e g
    match x with
    | .bad c k a asp => .fault (onceFault s r it ⟨c, k, dw a, asp⟩)
    | _ =>
      if leafLAY e ≠ 2 then .fault (onceFault s r it ⟨0x28, i, dw va, 1⟩)
      else
        match x with
        | .ok pa _ =>
          (match paKind pa with
           | .host => .fault (onceFault s r it ⟨0x27, 1, dw va, 1⟩)
           | .peer => .fault (onceFault s r it ⟨0x27, 2, dw va, 1⟩)
           | _ => .ok () s)
        | _ => .ok () s

/-- The checks of every window frame, in order. -/
def windowFrames (s : State) (w : Warp) (r : Run) (it : Item) (ws : List DWord) (first : Nat) : List Nat → Iss Unit
  | [] => .ok () s
  | i :: t => (windowFrame s w r it (kvFrameVa ws first i) i).bind fun _ s => windowFrames s w r it ws first t

/-- The steps of R189 for QPOST, in the order of R267 (DEDUCED, log entry 65). -/
def qpostSteps (s : State) (w : Warp) (r : Run) (it : Item) : Iss State :=
  let a := uniVal s w r it .a
  let b := uniVal s w r it .b
  let n := it.code .c - 0x100
  let rec_ := (sget w n).toNat
  let first := (sget w (n + 1)).toNat
  let len := (sget w (n + 2)).toNat
  let ctl := sget w it.d
  let bar := ctlBar ctl
  let prm := it.mb 59
  (readRecord s w r it prm rec_).bind fun ws s =>
  match kvBad ws with
  | some k => .fault (recordFault s r 10 k (wordAt ws k) rec_ (if prm then 0 else 2))
  | none =>
    let hd := kvHd ws
    let frames := kvFrames ws first len
    let limit := if len = 0 then some 0 else if kvTok ws < first + len then some len else if 16 < frames then some frames else none
    match limit with
    | some v => .fault (badTrap s r it ⟨false, 8, v⟩)
    | none =>
      let size := 16 * frames * tripleBytes hd
      let m := bitsN a 23 20
      (issCheck s r it (firstOf [align16 b 2, align16 a 2, align16 bar 2, spanBad s w b 0 (4 * hd), spanBad s w a 0 size])).bind
        fun _ s =>
      let pb := spanLoc s w b 0 (4 * hd)
      let pa := spanLoc s w a 0 size
      let tiles := (rawTiles s w b 0 (4 * hd) ++ rawTiles s w a 0 size).eraseDups
      (issCheck s r it (sharedBad s w 6 (sharedBytes [(pb.1, pb.2, 4 * hd)] [(pa.1, pa.2, size)]))).bind fun _ s =>
      (issCheck s r it (barBad s w m bar tiles)).bind fun _ s =>
      (windowFrames s w r it ws first (List.range frames)).bind fun _ s =>
      (issCheck s r it (if poolPoisoned s pb.1 pb.2 (4 * hd) then some ⟨0x81, 0, dw b, 2⟩ else none)).bind fun _ s =>
      if (List.range frames).any fun i => pageLogged w (kvFrameVa ws first i) then .hold
      else
        startCmd s r it { newCmd w r it .qpost with
            ctl := ctl, a := w32 a, b := w32 b, bar := w32 bar, kv := ws, first := first, ntok := len,
            query := (List.range hd).map fun d => w32 (poolNat s pb.1 (pb.2 + 4 * d) 4), tiles := tiles, units := 16 * frames }
          (fun _ s => (List.range frames).foldl (fun s i =>
            match (translate s (coreShelf w.core) (tenantOf s w) (kvFrameVa ws first i) .read 1).1 with
            | .ok pa _ => raiseOverlap s w.core pa 65536
            | _ => s) s)
          fun c s => (readBooks s s.cur r it (if kvFmt ws = 12 then [kvCbi ws] else [])).bind fun l s => .ok { c with books := l } s

/-- QPOST. -/
def qpostOp (it : Item) (s : State) : Out :=
  issue it (fun s w _ =>
    { uses := [.src .a vtCount accS, .src .b vtCount accS, .src .c vtCount accS]
      bads := dcBads it ++ modZero it 60 60 ++ modZero it 58 52 ++ ctlBads s w it ++ maskBads w it ++ originBads it 2 ++
        sRegsBad s w (originReg it) 3 (it.code .c) ++ roleBads s w 3
      extra := engineRegs it 2 }) s (onceDo qpostSteps it)

/-! The scan (R268 to R271). -/

/-- Core and offset of triple `u` of a QPOST. -/
def Cmd.tripleAt (s : State) (c : Cmd) (u : Nat) : Nat × Nat := spanLoc s c.who c.a.toNat (u * tripleBytes (kvHd c.kv)) (tripleBytes (kvHd c.kv))

/-- Writing a triple into the result area; after the last one the command credits all of them (R268 steps 5 and 6). -/
def putTriple (s : State) (c : Cmd) (fidx bank : Nat) (t : Triple) : State :=
  let u := 16 * fidx + bank
  let p := c.tripleAt s u
  let s := poolStore s p.1 p.2 (tripleImage t fidx bank)
  landedUnit s c u [] (c.memCore s (bitsN c.a.toNat 23 20)) c.bar.toNat
    (if c.units ≤ c.landed.length + 1 then c.units * tripleBytes (kvHd c.kv) else 0)

/-- The lines of a frame that hold window tokens. -/
def windowLines (ws : List DWord) (win : Nat × Nat) : List Nat :=
  (List.range 256).filter fun k =>
    let x := 256 * k % 4096
    let tb := max 1 (kvTb ws)
    (List.range (256 / tb + 1)).any fun j =>
      let sl := x / tb + j
      let u := 16 * sl + k / 16
      decide (tb * sl < x + 256) && decide (win.1 ≤ u) && decide (u ≤ win.2)

/-- Sending the query of a window's frame `i` (R268 steps 3 and 4): window lines written back, then the packet; a discarded
frame is answered by the shelf (R264). -/
def sendQuery (s : State) (c : Cmd) (i : Nat) : State :=
  let va := kvFrameVa c.kv c.first i
  let win := kvWindow c.kv c.first c.ntok i
  let stop := fun s k x a asp => stopCmd s c { cause := k, addr := dw a, asp := asp, info0 := x }
  match translate s (coreShelf c.core) (tenantOf s c.who) va .read 1 with
  | (.bad k x a asp, s') => stop s' k x a asp
  | (.park _, s') => parkCmd s' c i va
  | (.zero _, s') =>
    let s' := putCmd s' { c.unpark i with sent := i :: c.sent }
    (List.range 16).foldl (fun s j =>
      match s.cmds.find? fun x => x.id == c.id with
      | some c => putTriple s c i j (bankTriple c.kv ((c.book (kvCbi c.kv)).map fun _ => 0) c.query win j fun _ => 0)
      | none => s) s'
  | (.ok pa _, s') =>
    if !paLocal pa then stop s' 0x27 (if paKind pa = .host then 1 else 2) va 1
    else
      let lines := (windowLines c.kv win).map (pa / 256 + ·)
      if (lines.any fun l => (nget {} s'.l2 l).locked) || entryAhead s' c.core c.id pa 65536 then s
      else
        let s' := lines.foldl writeBack s'
        let p : Packet :=
          { stack := stackOf pa, tag := 0, kind := 3, reply := false, pa := pa, sectors := BitVec.ofNat 8 i, bytes := [],
            args := [win.1, win.2, kvTb c.kv, 0, 0, 0], src := c.id }
        match sendPacket s' p with
        | some s' => putCmd s' { c.unpark i with sent := i :: c.sent }
        | none => s

/-- Rows of a bank that a QUERY packet has still to scan; none where its frame is not attention-striped (R264). -/
def unscanned (s : State) (p : Packet) (bank : Nat) : List Nat :=
  match p.args with
  | u0 :: u1 :: tb :: _ :: _ :: _ :: scanned =>
    if (nget {} s.fmeta (p.pa / 65536)).layout = .striped then
      (bankRows u0 u1 tb bank).filter fun r => !scanned.contains (4 * bank + r)
    else []
  | _ => []

/-- Whether a QUERY has been accepted by its stack. -/
def accepted (p : Packet) : Bool := p.kind == 3 && p.args.getD 5 0 == 1

/-- Whether two frames' bank slices of one number stand in the same bank. -/
def sameBank (s : State) (p q : Packet) : Bool :=
  let a := nget {} s.fmeta (p.pa / 65536)
  let b := nget {} s.fmeta (q.pa / 65536)
  p.stack == q.stack && a.pch == b.pch && a.grp == b.grp

/-- Chunks that may be served: place of the packet, bank, row; of one bank in the order the packets arrived (R270). -/
def chunksReady (s : State) : List (Nat × Nat × Nat) :=
  (List.range s.packets.length).flatMap fun i =>
    match s.packets[i]? with
    | none => []
    | some p =>
      if !accepted p then []
      else (List.range 16).flatMap fun j =>
        if (s.packets.take i).any fun q => q.kind == 3 && sameBank s p q && !(unscanned s q j).isEmpty then []
        else (unscanned s p j).map fun r => (i, j, r)

/-- Whether a window token of a row lies in a poisoned sector. -/
def rowPoisoned (s : State) (p : Packet) (bank row : Nat) : Bool :=
  let u0 := p.args.getD 0 0
  let u1 := p.args.getD 1 0
  let tb := p.args.getD 2 1
  (List.range (1024 / max 1 tb)).any fun i =>
    let u := (row * (1024 / max 1 tb) + i) * 16 + bank
    let a := p.pa + 4096 * bank + 1024 * row + tb * i
    decide (u0 ≤ u) && decide (u ≤ u1) && (List.range tb).any fun j => storedPoison s ((a + j) / 32)

/-- QUERY_CHUNK: a bank scans one row; an uncorrected error in its window tokens is kept as row number + 64 (R265, FAIL). -/
def scanChunk (n : Nat) (s : State) : State :=
  match (chunksReady s)[n]? with
  | none => s
  | some (i, j, r) =>
    match s.packets[i]? with
    | none => s
    | some p =>
      let o := 4096 * j + 1024 * r
      putPacket s i { p with
        bytes := (List.range 32).foldl (fun m k =>
          let a := o + 32 * k
          if (p.args.drop 6).contains (128 + a / 32) then m else nsetRange 0 m a (ngetRange 0 s.dram (p.pa + a) 32)) p.bytes
        args := p.args ++ (4 * j + r) :: (if rowPoisoned s p j r then [64 + 4 * j + r] else []) }

/-- Banks whose triple may return: place of the packet, bank. -/
def triplesReady (s : State) : List (Nat × Nat) :=
  (List.range s.packets.length).flatMap fun i =>
    match s.packets[i]? with
    | none => []
    | some p =>
      if !accepted p then []
      else
        let landed := ((s.cmds.find? fun c => c.id == p.src).map (·.landed)).getD []
        ((List.range 16).filter fun j => (unscanned s p j).isEmpty && !landed.contains (16 * p.sectors.toNat + j)).map fun j => (i, j)

/-- A report of a stack about a command (Table 24.4): it names no warp and goes to the tenant's queue. -/
def stackReport (s : State) (c : Cmd) (rep : Report) : State :=
  let x := findCtx s c.ctx
  reportBare s ((x.map (·.tenant)).getD 0) ((x.map (·.queue)).getD 0) { rep with src := 5, asp := 3 }

/-- The triple of a bank, and the AUX of cause 0xA0 where its scan failed (R264, R395). -/
def bankResult (s : State) (c : Cmd) (p : Packet) (j : Nat) : Triple × Option Nat :=
  let win := (p.args.getD 0 0, p.args.getD 1 0)
  let race := if (p.args.getD 3 0).testBit j then 2 else 0
  let n := (bankTokens c.kv win j).length
  let failed := (List.range 4).any fun r => (p.args.drop 6).contains (64 + 4 * j + r)
  if n ≠ 0 && (nget {} s.fmeta (p.pa / 65536)).layout ≠ .striped then (nanTriple (kvHd c.kv) (4 + race) n, some 2)
  else if failed || (n ≠ 0 && kvFmt c.kv = 12 && (c.book (kvCbi c.kv)).isEmpty) then (nanTriple (kvHd c.kv) (4 + race) n, some 1)
  else
    let t := bankTriple c.kv (c.book (kvCbi c.kv)) c.query win j fun o => nget 0 p.bytes o
    ({ t with stat := t.stat + race }, none)

/-- QUERY_TRIPLE_RETURN: a bank's triple is written; with a frame's last triple its packet is done, and a race is reported
once for the QPOST (R395). -/
def returnTriple (n : Nat) (s : State) : State :=
  match (triplesReady s)[n]? with
  | none => s
  | some (i, j) =>
    match s.packets[i]? with
    | none => s
    | some p =>
      match s.cmds.find? fun c => c.id == p.src with
      | none => { s with packets := s.packets.eraseIdx i }
      | some c =>
        if ctxHalted s c.ctx then { s with packets := s.packets.eraseIdx i } else
        let f := p.sectors.toNat
        let (t, failed) := bankResult s c p j
        let mask := p.args.getD 3 0
        let last := decide ((c.landed.filter fun u => u / 16 == f).length = 15)
        let s := match failed with
          | some aux => stackReport s c { cause := 0xA0, sev := 2, addr := dw p.pa, info0 := p.stack, info1 := f * 65536 + j, aux := dw aux }
          | none => s
        let tell := last && mask != 0 && c.g == 0
        let s := if tell then
            stackReport s c { cause := 0xA1, sev := 0, addr := dw p.pa, info0 := p.stack, info1 := mask, aux := dw (p.args.getD 4 0) }
          else s
        let s := if last then { s with packets := s.packets.eraseIdx i } else s
        putTriple s (if tell then { c with g := 1 } else c) f j t

/-! QMERGE (R272, R273). -/

/-- A quotient of two FP32 encodings, rounded once (R273). -/
def divF32 (x y : Nat) : Nat :=
  match decodeF f32 x, decodeF f32 y with
  | .nan, _ => f32.qnan
  | _, .nan => f32.qnan
  | .inf _, .inf _ => f32.qnan
  | .inf s, b => signed f32 (s != b.neg) f32.infEnc
  | a, .inf t => signed f32 (a.neg != t) 0
  | .num s m e, .num t k f =>
    if m = 0 then signed f32 (s != t) 0
    else
      let (q, ex, st) := quotient m k (e - f)
      roundF f32 0 0 false false (.num (s != t) q ex) st

/-- Triple `i` of an array in the pool. -/
def readTriple (s : State) (core off hd : Nat) : Triple :=
  let at_ := fun k => poolNat s core (off + 4 * k) 4
  ⟨at_ 0, at_ 1, at_ 2, at_ 3, (List.range hd).map fun d => at_ (4 + d)⟩

/-- The fold's state: acc, st, cnt. -/
structure Fold where
  acc : Option Triple := none
  st : Nat := 0
  cnt : Nat := 0

/-- w0·x + w1·y, exact inside and rounded once. -/
def mixF32 (w0 x w1 y : Nat) : Nat :=
  toF32 (addFV 0 (mulFV (decodeF f32 w0) (decodeF f32 x)) (mulFV (decodeF f32 w1) (decodeF f32 y)))

/-- One step of the fold (R273); the first triple is copied with a NaN as it stands (DESIGN CHOICE, log entry 152). -/
def foldTriple (hd : Nat) (f : Fold) (t : Triple) : Fold :=
  let f := { f with st := f.st ||| (t.stat / 2 % 8), cnt := (f.cnt + t.cnt) % 2 ^ 32 }
  if t.stat % 2 = 1 then f
  else
    match f.acc with
    | none => { f with acc := some t }
    | some x =>
      if (x.m :: x.s :: t.m :: t.s :: (x.a ++ t.a)).any fun v => (decodeF f32 v).isNaN then
        { f with acc := some (nanTriple hd 0 0), st := f.st ||| 4 }
      else
        let m := minMaxEnc f32 false false x.m t.m
        let w0 := ex2Bau (subF32 x.m m)
        let w1 := ex2Bau (subF32 t.m m)
        { f with acc := some { x with m := m, s := mixF32 w0 x.s w1 t.s, a := x.a.zipWith (fun u v => mixF32 w0 u w1 v) t.a } }

/-- The merged triple (R273). -/
def mergeTriples (hd : Nat) (norm : Bool) (ts : List Triple) : Triple :=
  let f := ts.foldl (foldTriple hd) {}
  match f.acc with
  | none => ⟨0xFF800000, 0, 1, f.cnt, List.replicate hd 0⟩
  | some x =>
    let zero := (decodeF f32 x.s).isZero
    let a := if norm then x.a.map fun v => if zero then 0 else divF32 v x.s else x.a
    let inf := (x.m :: x.s :: a).any fun v => v % 2 ^ 31 == f32.infEnc
    ⟨x.m, x.s, (2 * f.st) ||| (if inf then 8 else 0), f.cnt, a⟩

/-- QMERGE's effect, sampled and written at the pools it names. -/
def qmergeDo (atTarget : Bool) (it : Item) (s : State) (w : Warp) (r : Run) : State :=
  let r := r.arrived
  if !guardU w it then finish s r it
  else
    let hd := 16 * 2 ^ it.m 54 52
    let tb := tripleBytes hd
    let a := uniVal s w r it .a
    let b := uniVal s w r it .b
    let n := uniVal s w r it .c
    let owned := fun base len =>
      let p := spanLoc s w base 0 len
      (ownedTile s p.1 p.2 len).map fun k => (⟨0x21, k, dw base, 2⟩ : LaneBad)
    match firstOf [align16 b 2, align16 a 2, spanBad s w b 0 (n * tb), spanBad s w a 0 tb, owned b (n * tb), owned a tb] with
    | some x => onceFault s r it x
    | none =>
      let src := spanLoc s w b 0 (n * tb)
      let dst := spanLoc s w a 0 tb
      overCauseway atTarget [src.1, dst.1] s r fun _ =>
        if poolPoisoned s src.1 src.2 (n * tb) then
          finish (deferFault s w { cause := 0x82, pc := r.pc.toNat, lanes := r.grp, addr := dw b, asp := 2, info0 := 6,
                                   info1 := lowLane r.grp }) r it
        else
          let t := mergeTriples hd (it.mb 55) ((List.range n).map fun i => readTriple s src.1 (src.2 + i * tb) hd)
          let s := poolStore s dst.1 dst.2 (tripleImage t 0 0)
          finish (onCur s (metTiles s [lowLane r.grp] (fun _ => src) (n * tb))) r it

/-- QMERGE. -/
def qmergeOp (it : Item) (s : State) : Out :=
  issue it (fun s w r =>
    let n := uniVal s w r it .c
    { uses := [.src .a vtCount accS, .src .b vtCount accS,
        .src .c vtCount { v := false, latch := false, sr := false, uni := true }, .dstNone]
      bads := modZero it 63 56 ++ opdBad (4 < it.m 54 52) 6 (it.m 54 52) ++ opdBad (n = 0 || 256 < n) 8 n }) s (qmergeDo false it)

/-- QPOST (R266 to R269). -/
def execQpost (f : Long) (s : State) : Out := qpostOp (longItem 0x162 true f) s

/-- QMERGE (R272, R273). -/
def execQmerge (f : Long) (s : State) : Out := qmergeOp (longItem 0x163 true f) s

/-- QUERY_CHUNK (R270): chunk `n` of those that may be served. -/
def execQueryChunk (n : Nat) (s : State) : Out := .next (scanChunk n s)

/-- QUERY_TRIPLE_RETURN (R268 step 5): triple `n` of those that may return. -/
def execQueryTripleReturn (n : Nat) (s : State) : Out := .next (returnTriple n s)

end Sys2Proof.Machine
end

