-- ==== Sys2Proof/Machine/Tiles.lean ====
section
/-! DEFINITION. The units of engine commands under way (R52, R65, R189). -/

namespace Sys2Proof.Machine

/-- The units of a command that have not landed: of a row operation its start, of a QPOST the frames still to be sent. -/
def Cmd.unlanded (c : Cmd) : List Nat :=
  match c.kind with
  | .rowzf | .rowcp => if c.sent.isEmpty then [0] else []
  | .qpost => (List.range (c.units / 16)).filter fun i => !c.sent.contains i
  | _ => c.unitList.filter fun u => !c.landed.contains u

/-- Whether the tiles of a command are translated by the Leapfrog TLB as they proceed (R299). -/
def Cmd.translates (c : Cmd) : Bool :=
  match c.kind with
  | .tcopy | .tstore => true
  | .bload => !c.tensor.space
  | _ => false

/-- The tiles of a core's commands that the walk-ahead reaches, in issue order: the one being transferred and 8 ahead of it, those
that are parked aside (R299). -/
def aheadTiles (s : State) (core : Nat) : List (Nat × Nat) :=
  ((s.cmds.filter fun c => c.core == core && c.translates).flatMap fun c =>
    ((c.unlanded.filter fun u => !c.parks.any fun p => p.unit == u).map fun u => (c.id, u % 1024)).eraseDups).take 9

/-- One unit lands (DEDUCED, log entry 58); none of a tenant that is being reset (R378 step 3). -/
def landUnit (s : State) (c : Cmd) (u : Nat) : State :=
  if ctxHalted s c.ctx then s
  else
  match c.kind with
  | .tcopy | .pcopy | .pcopyR => landCopy s c u
  | .tstore => landStore s c u
  | .bload => landColumns s c u
  | .gather => landGather s c u
  | .rowzf | .rowcp => rowStart s c
  | .qpost => sendQuery s c u
  | _ => s

/-- The units that may land, over all commands: of one whose tiles are translated on the way those inside the walk-ahead, and those
that were parked (R299). -/
def landable (s : State) : List (Cmd × Nat) :=
  s.cmds.flatMap fun c =>
    let near := if c.translates then aheadTiles s c.core else []
    (c.unlanded.filter fun u => !c.translates || near.contains (c.id, u % 1024) || c.parks.any fun p => p.unit == u).map
      fun u => (c, u)

/-- ENGINE_TILE_LAND. -/
def tileLand (n : Nat) (s : State) : State :=
  match (landable s)[n]? with
  | some (c, u) => landUnit s c u
  | none => s

/-- ENGINE_TILE_LAND (R52, R65, R189, R191, R193 to R196, R253, R268): unit `n` of those under way is translated, moved,
credited and its tile released; a row operation starts, a query is sent. -/
def execEngineTileLand (n : Nat) (s : State) : Out := .next (tileLand n s)

end Sys2Proof.Machine
end

