-- ==== Sys2Proof/Machine/Round.lean ====
section
/-! DEFINITION. Convergence registers, rounds and the matrix product (R102, R103, R205 to R217). -/

namespace Sys2Proof.Machine

/-! Convergence registers (R208). -/

/-- The fields of Table 10.2. -/
structure Conv where
  v : Bool := false
  warp : Nat := 0
  round : Nat := 0
  mpc : Nat := 0
  dropped : Lanes := 0
  arrived : Lanes := 0
  set : Lanes := 0
  signed : Lanes := 0
  deriving DecidableEq, Repr

/-- A register's fields from its 256 bits. -/
def convFields (x : BitVec 256) : Conv :=
  { v := x.getLsbD 255, warp := bitsN x.toNat 247 240, round := bitsN x.toNat 239 224, mpc := bitsN x.toNat 187 128
    dropped := w32 (bitsN x.toNat 127 96), arrived := w32 (bitsN x.toNat 95 64)
    set := w32 (bitsN x.toNat 63 32), signed := w32 (bitsN x.toNat 31 0) }

/-- The 256 bits, reserved fields zero. -/
def Conv.word (k : Conv) : BitVec 256 :=
  BitVec.ofNat 256 ((if k.v then 2 ^ 255 else 0) + k.warp % 256 * 2 ^ 240 + k.round % 2 ^ 16 * 2 ^ 224 +
    k.mpc % 2 ^ 60 * 2 ^ 128 + k.dropped.toNat * 2 ^ 96 + k.arrived.toNat * 2 ^ 64 + k.set.toNat * 2 ^ 32 + k.signed.toNat)

/-- Convergence register `n` of a block. -/
def convOf (b : Block) (n : Nat) : Conv := convFields (nget 0 b.conv n)

/-- Writing it. -/
def convPut (s : State) (b : Block) (n : Nat) (k : Conv) : State := putBlock s { b with conv := nset 0 b.conv n k.word }

/-- RoundOpen (R208). -/
def Conv.isOpen (k : Conv) : Bool := k.signed ||| k.dropped ||| k.arrived != 0

/-! The fields of an MMA (R211, Table 10.4). -/

/-- The descriptor in the literal. -/
def mmaLit (it : Item) : Nat := (it.f.lit.getD 0).toNat
/-- KREG. -/
def mmaKreg (it : Item) : Nat := bitsN (mmaLit it) 3 0
/-- Rows M. -/
def mmaM (it : Item) : Nat := 16 * 2 ^ bitsN (mmaLit it) 4 4
/-- Columns N. -/
def mmaN (it : Item) : Nat := 16 * 2 ^ bitsN (mmaLit it) 6 5
/-- K. -/
def mmaK (it : Item) : Nat := 16 * 2 ^ bitsN (mmaLit it) 8 7
/-- TB. -/
def mmaTb (it : Item) : Nat := bitsN (mmaLit it) 13 9
/-- BSOFF. -/
def mmaBsoff (it : Item) : Nat := bitsN (mmaLit it) 31 16
/-- TA. -/
def mmaTa (it : Item) : Nat := it.m 60 56
/-- MX. -/
def mmaMx (it : Item) : Bool := it.mb 55

/-- Bits of an array operand type. -/
def arrBits (t : Nat) : Nat :=
  match t with
  | 0x0C | 0x0D => 16
  | 0x10 | 0x11 => 6
  | 0x12 | 0x13 => 4
  | _ => 8

/-- Elements of a register (R91, R212). -/
def arrPer (t : Nat) : Nat := match arrBits t with | 16 => 2 | 4 => 8 | _ => 4

/-- Whether a pair of types is one of Table 10.1, with .mx where `mx`. -/
def arrPair (ta tb : Nat) (mx : Bool) : Bool :=
  let byteF := fun t => t == 0x0E || t == 0x0F
  let narrow := fun t => t == 0x10 || t == 0x11 || t == 0x12
  ((ta == 0x0D || ta == 0x0C) && tb == ta && !mx) || (byteF ta && byteF tb) || (ta == 0 && tb == 0) ||
    (narrow ta && (narrow tb || (tb == 0x13 && !mx)))

/-- The value of an element, with its scale byte under .mx (R92, R206). -/
def arrVal (t : Nat) (cb : List (BitVec 16)) (sc : Option Nat) (x : Nat) : FV :=
  let v := if t = 0x13 then decodeF bf16 (cb.getD (x % 16) 0).toNat
    else if t = 0 then (if sc.isSome then mxInt8 x else intFV (signedOf 8 x))
    else (match fmtOfType t with | some F => decodeF F (x % 2 ^ F.width) | none => .nan)
  match sc with
  | some b => scaled b v
  | none => v

/-- An INT8 product without .mx accumulates in .i32 (R205). -/
def arrInt (ta : Nat) (mx : Bool) : Bool := ta = 0 && !mx

/-- Bytes of a column's K-slice. -/
def sliceBytes (t k : Nat) : Nat := (k * arrBits t + 7) / 8

/-- Element `k` of a column's slice at an offset (R213). -/
def colElt (s : State) (core col off t k : Nat) : Nat :=
  let bit := k * arrBits t
  let n := (bit % 8 + arrBits t + 7) / 8
  ofBytes (ngetRange 0 s.cstore (csKey core col (off + bit / 8)) n) / 2 ^ (bit % 8) % 2 ^ arrBits t

/-- A scale byte of a column. -/
def colScale (s : State) (core col off j : Nat) : Nat := (nget 0 s.cstore (csKey core col (off + j))).toNat

/-- Whether a slice of a column holds poison. -/
def colPoisoned (s : State) (core col off n : Nat) : Bool :=
  (List.range n).any fun j => nget false s.csPoison (csKey core col (off + j) / 8)

/-- The folds of R102 or R103 over `n` chunks of 16. -/
def foldChunks (int : Bool) (a b : Nat → FV) (ai bi : Nat → Int) : Nat → Nat → Nat → Nat
  | 0, _, x => x
  | n + 1, k0, x =>
    let x := if int then intChunk x ((List.range 16).map fun j => ai (k0 + j) * bi (k0 + j))
      else matrixChunk (decodeF f32 x) ((List.range 16).map fun j => mulFV (a (k0 + j)) (b (k0 + j)))
    foldChunks int a b ai bi n (k0 + 16) x

/-- Whether a BLOAD of the block that is under way writes bytes of columns that the array would read (R197). -/
def bloadBusy (s : State) (b : Block) (core col cols off n before : Nat) : Bool :=
  s.cmds.any fun c => c.kind == .bload && c.core == core && c.ctx == b.ctx && c.clu == b.clu && c.bid == b.bid &&
    decide (c.id < before) &&
    (let c0 := bitsN c.a.toNat 21 16
     let o0 := bitsN c.a.toNat 15 0
     decide (c0 < col + cols) && decide (col < c0 + c.tensor.dims.getD 1 1) && decide (o0 < off + n) &&
       decide (off < o0 + c.columnBytes))

/-- B's address in the column store: column and offset. -/
def mmaB (w : Warp) (it : Item) : Nat × Nat :=
  let code := it.code .b
  let v := if 0x100 ≤ code && code < 0x180 then (sget w (code - 0x100)).toNat else code - 0x1C0
  (bitsN v 21 16, bitsN v 15 0)

/-- Element `k` of a lane's row of A (R213). -/
def mmaAElt (w : Warp) (it : Item) (lane k : Nat) : Nat :=
  let e := arrPer (mmaTa it)
  let step := 32 / e
  (vget w (it.code .a + k / e) lane).toNat / 2 ^ (step * (k % e)) % 2 ^ arrBits (mmaTa it)

/-- Registers of the A fragment. -/
def mmaNa (it : Item) : Nat := mmaK it / arrPer (mmaTa it)

/-- One element of D (R215): row of a lane, column `n`. -/
def mmaElt (s : State) (cb : List (BitVec 16)) (w : Warp) (it : Item) (lane n : Nat) : Nat :=
  let (col, off) := mmaB w it
  let mx := mmaMx it
  let sa := fun k => if mx then some ((vget w (it.code .a + mmaNa it) lane).toNat / 2 ^ (8 * (k / 32)) % 256) else none
  let sb := fun k => if mx then some (colScale s w.core (col + n) (mmaBsoff it) (k / 32)) else none
  let a := fun k => arrVal (mmaTa it) cb (sa k) (mmaAElt w it lane k)
  let be := fun k => colElt s w.core (col + n) off (mmaTb it) k
  let b := fun k => arrVal (mmaTb it) cb (sb k) (be k)
  let c := if it.code .c = 0x1C0 then 0 else (vget w (it.code .c + n) lane).toNat
  foldChunks (arrInt (mmaTa it) mx) a b (fun k => signedOf 8 (mmaAElt w it lane k)) (fun k => signedOf 8 (be k)) (mmaK it / 16) 0 c

/-- Whether column `n`'s slice or scales hold poison, or the codebook that decodes it does. -/
def mmaBad (s : State) (w : Warp) (it : Item) (n : Nat) : Bool :=
  let (col, off) := mmaB w it
  (mmaTb it = 0x13 && ((blockOf s w).any fun b => b.cb == some [])) ||
    colPoisoned s w.core (col + n) off (sliceBytes (mmaTb it) (mmaK it)) ||
    (mmaMx it && colPoisoned s w.core (col + n) (mmaBsoff it) (mmaK it / 32))

/-- D of every arrived lane; a poisoned column's elements are free values (DEDUCED, log entry 18). -/
def mmaVals (s : State) (cb : List (BitVec 16)) (w : Warp) (it : Item) (lanes : List Nat) : NMap Word × State :=
  (List.range (mmaN it)).foldl (fun (acc : NMap Word × State) n =>
    let bad := mmaBad s w it n
    lanes.foldl (fun (acc : NMap Word × State) l =>
      let key := 32 * (it.d + n) + l
      if bad then
        let (x, st) := draw acc.2
        (nset 0 acc.1 key (x.setWidth 32), st)
      else (nset 0 acc.1 key (w32 (mmaElt s cb w it l n)), acc.2)) acc) ([], s)

/-- Debit of an array step by energy class, in eu (Table 16.10). -/
def stepDebit (c : Nat) : Nat :=
  match c with
  | 0 => 3
  | 1 => 4
  | 2 => 5
  | 3 => 6
  | 4 => 8
  | 5 => 10
  | 6 => 12
  | _ => 16

/-- An energy class limited by the kernel header's ECAP (R107). -/
def energyClass (s : State) (ctx c : Nat) : Nat :=
  min c (((findCtx s ctx).map fun x => fld (wordAt x.khdr 0) 58 56).getD 7)

/-- Charging a context (R331): none where its budget does not cover the debit, so that the work stalls. Work of a tenant that is
being reset is discarded (R378) and is not held by its budget. -/
def charge (s : State) (ctx eu : Nat) : Option State :=
  match findCtx s ctx with
  | none => some s
  | some c =>
    if resetting s c.tenant then some s
    else if c.budget < eu then none
    else some (putCtx s { c with budget := c.budget - eu })

/-- Perform (R215, R217): columns, rows and accumulators are read, the lanes resume, D is pending until it is written; with
DC the counter rises here, where the MMA counts as issued (R197, R217, DEDUCED, log entry 28). -/
def perform (s : State) (b : Block) (w : Warp) (k : Conv) (it : Item) : State :=
  let lanes := lanesOf (k.arrived &&& w.live)
  let (vals, s) := mmaVals s (b.cb.getD []) w it lanes
  let (id, s) := takeId s
  let dc := it.dc
  let w' := lanes.foldl (fun w l => unpark [] w l none) w
  let w' := { w' with
    pend := w'.pend ++ (if dc = 0 then (List.range (mmaN it)).map fun n => ⟨k.arrived, 0, it.d + n, id⟩ else [])
    dc := if dc = 0 then w'.dc else nset 0 w'.dc dc (nget 0 w'.dc dc + 1) }
  let s := putWarp s w'
  -- key order kept: an entry equal to zero is listed too, so every D register is written
  let full := (List.range (mmaN it)).flatMap fun n => lanes.map fun l => (32 * (it.d + n) + l, nget 0 vals (32 * (it.d + n) + l))
  let s := { s with products := s.products ++ [{ id := id, warp := w.uid, lanes := k.arrived, vals := full, dcSel := dc }] }
  if (List.range (mmaN it)).any (mmaBad s w it) then
    let (col, off) := mmaB w it
    deferFault s w' { cause := 0x82, pc := k.mpc, lanes := k.arrived, addr := dw (col * 65536 + off), asp := 0, info0 := 3,
                      info1 := lowLane k.arrived }
  else s

/-- The warp that has claimed a register: of the block, by its number in the block. -/
def convWarp (s : State) (b : Block) (k : Conv) : Option Warp :=
  s.allWarps.find? fun w => w.ctx == b.ctx && w.clu == b.clu && w.bid == b.bid && w.wid == k.warp && !w.handler

/-- The MMA at MPC: the one whose lanes arrived, or, where a handler has moved MPC, what a fetch there gives. -/
def mmaAt (s : State) (b : Block) (w : Warp) (n pc : Nat) : Option Item × State :=
  let item := fun (i : DWord) (l : Option Word) => longItem 0x180 false (longFields (i.extractLsb' 0 32) (i.extractLsb' 32 32) l)
  let ten := tenantOf s w
  let fetched := match codeParcel s w.core ten pc, codeParcel s w.core ten (pc + 4), codeParcel s w.core ten (pc + 8) with
    | (.ok a, _), (.ok b, _), (.ok c, s) =>
      (match decodeParcels [a, b, c] with
       | .ok (.mma f, _) => (some (longItem 0x180 false f), s)
       | _ => (none, s))
    | _, _, _ => (none, s)
  match nget none b.mma n with
  | some x => if x.pc = pc then (some (item x.insn x.lit), s) else fetched
  | none => fetched

/-- Lanes that a round resumes with no result: a handler has set MPC where no MMA can be fetched (DESIGN CHOICE, log entry 127). -/
def resumeRound (s : State) (w : Warp) (k : Conv) : State :=
  putWarp s ((lanesOf (k.arrived &&& w.live)).foldl (fun w l => unpark [] w l none) w)

/-- The operands of an MMA (R211, R212): rows of A with their scales, the first column, C, D. -/
def mmaUses (it : Item) : List Use :=
  [.vgrp .a (mmaNa it + (if mmaMx it then 1 else 0)) 4,
    .src .b vtCount { v := false, latch := false, lit := false, sr := false, uni := true },
    (if it.code .c = 0x1C0 then .src .c vtCount accAny else .vgrp .c (mmaN it) 4), .dstData (mmaN it) 4]

/-- A lost register that a group's MMA would read at its Perform (R383). -/
def mmaLost (w : Warp) (it : Item) (lanes : Lanes) : Option (Nat × Nat) :=
  if w.parity.isEmpty then none
  else ((mmaUses it).flatMap (useReads it)).find? fun c => (lanesOf lanes).any (lostAt w (fun _ => none) c)

/-- The groups that wait in a register with a lost register, each with it. -/
def lostGroups (b : Block) (w : Warp) (k : Conv) (n : Nat) (it : Item) : List (Run × Nat × Nat) :=
  match nget none b.mma n with
  | none => []
  | some x =>
    x.runs.filterMap fun r =>
      let lanes := r.grp &&& k.arrived &&& w.live
      if x.pc = k.mpc ∧ lanes ≠ 0 then (mmaLost w it lanes).map fun c => ({ r with grp := lanes }, c) else none

/-- Such a group's MMA takes no effect: its lanes stand at it, as the precise fault says, and execute it again once they go on (R383,
DEDUCED, log entry 147). -/
def loseMma (s : State) (w : Warp) (e : Run × Nat × Nat) : State :=
  let w := (findWarp s w.uid).getD w
  let w := { w with
    park := (lanesOf e.1.grp).foldl (fun m l => nset none m l none) w.park
    paused := w.paused ++ [e.1] }
  stopLater (putWarp s w) w { cause := 0x83, pc := e.1.pc.toNat, lanes := e.1.grp, info0 := e.2.1, info1 := e.2.2 }

/-- CheckRound (R215) on register `n` of a block: nothing where a lane of S is still away; none where the array waits for a
BLOAD (R197), the budget for a refill (R331) or the counter for a fall (R121), so that what would close the round waits. `it` is the MMA
when it is at hand. -/
def checkRound (s : State) (ctx clu bid n : Nat) (it : Option Item) : Option State :=
  match findBlock s ctx clu bid with
  | none => some s
  | some b =>
    let k := convOf b n
    let closed := { k with signed := 0, dropped := 0, arrived := 0, mpc := 0, round := (k.round + 1) % 2 ^ 16 }
    match convWarp s b k with
    | none => some (convPut s b n closed)
    | some w =>
      if k.set &&& w.live &&& ~~~ (k.arrived ||| k.dropped) ≠ 0 then some s
      else if k.arrived = 0 then some (convPut s b n closed)
      else
        let close := fun s => (findBlock s ctx clu bid).map fun b => convPut s b n closed
        let x := match it with
          | some it => (some it, s)
          | none => mmaAt s b w n k.mpc
        match x with
        | (none, s) => close (resumeRound s w k)
        | (some it, s) =>
          let (col, off) := mmaB w it
          let busy := bloadBusy s b w.core col (mmaN it) off (sliceBytes (mmaTb it) (mmaK it)) s.fresh ||
            (mmaMx it && bloadBusy s b w.core col (mmaN it) (mmaBsoff it) (mmaK it / 32) s.fresh)
          let lost := lostGroups b w k n it
          if !lost.isEmpty then
            let gone := lost.foldl (fun (m : Lanes) e => m ||| e.1.grp) 0
            let left := k.arrived &&& ~~~ gone
            let s := lost.foldl (fun s e => loseMma s w e) s
            (findBlock s ctx clu bid).map fun b => convPut s b n { k with arrived := left, mpc := if left = 0 then 0 else k.mpc }
          else if busy || dcFull w it.dc then none
          else
            (charge s ctx (stepDebit (energyClass s ctx (nget 0 b.ecls n)))).bind fun s => close (perform s b w k it)

/-- Lanes of a warp leave S for good (R216), and the rounds they held up are checked. -/
def leaveSets (s : State) (w : Warp) (lanes : Lanes) : Option State :=
  (List.range 16).foldl (fun (acc : Option State) n =>
    acc.bind fun s =>
      match findBlock s w.ctx w.clu w.bid with
      | none => some s
      | some b =>
        let k := convOf b n
        if k.v && k.warp == w.wid && k.set &&& lanes != 0 then
          checkRound (convPut s b n { k with set := k.set &&& ~~~ lanes, signed := k.signed &&& ~~~ lanes,
                                             dropped := k.dropped &&& ~~~ lanes, arrived := k.arrived &&& ~~~ lanes })
            w.ctx w.clu w.bid n none
        else some s) (some s)

/-- Writing a product's D registers (R217): they are no longer pending, its counter falls. -/
def writeProduct (n : Nat) (s : State) : State :=
  match s.products[n]? with
  | none => s
  | some p =>
    let s := { s with products := s.products.eraseIdx n }
    match findWarp s p.warp with
    | none => s
    | some w =>
      putWarp s { p.vals.foldl (fun w e => vset w (e.1 / 32) (e.1 % 32) e.2) w with
        pend := w.pend.filter fun x => x.src != p.id
        dc := if p.dcSel = 0 then w.dc else nset 0 w.dc p.dcSel (nget 0 w.dc p.dcSel - 1) }

/-- MMA_RESULT_WRITE (R217): the D registers of product `n` are written. -/
def execMmaResultWrite (n : Nat) (s : State) : Out := .next (writeProduct n s)

end Sys2Proof.Machine
end

