-- ==== Sys2Proof/Machine/Matrix.lean ====
section
/-! DEFINITION. KSET, SIGN, MMA and MMAS (R205 to R222). -/

namespace Sys2Proof.Machine

/-! KSET and SIGN (R209, R210). -/

/-- The convergence fault (R362): subcode, the MMA's address or zero, the register's number and its word 1. -/
def convFault (s : State) (r : Run) (sub addr n : Nat) (k : Conv) : State :=
  preciseFault s r { cause := 0x09, addr := dw addr, asp := 1, info0 := sub, info1 := n,
                     aux := dw (k.dropped.toNat * 2 ^ 32 + k.arrived.toNat) }

/-- A uniform position that takes an s register, a constant or the literal. -/
def accNum : Accept := { v := false, latch := false, sr := false, uni := true }

/-- KSET's effect (R209). -/
def ksetDo (it : Item) (s : State) (w : Warp) (r : Run) : State :=
  match blockOf s w with
  | none => s
  | some b =>
    let n := it.d % 16
    let k := convOf b n
    if !guardU w it then finish s r it
    else if k.v && k.isOpen then convFault s r 2 0 n k
    else finish (convPut s b n { v := true, warp := w.wid, set := w32 (uniVal s w r it .a) &&& w.live }) r it

/-- KSET. -/
def ksetOp (it : Item) (s : State) : Out :=
  issue it (fun _ _ _ =>
    { uses := [.src .a vtCount accNum, .unused .b, .unused .c]
      bads := modZero it 63 52 ++ encBad (16 ≤ it.d) 5 12 }) s (ksetDo it)

/-- SIGN's effect (R210): each active lane of SET that has not arrived signs; .drop is followed by CheckRound. -/
def signDo (it : Item) (s : State) (w : Warp) (r : Run) : State :=
  match blockOf s w with
  | none => s
  | some b =>
    let n := it.d % 16
    let k := convOf b n
    let act := activeLanes w r it
    if act = 0 then finish s r it
    else if !k.v || k.warp ≠ w.wid then convFault s r 1 0 n k
    else
      let ls := act &&& k.set &&& ~~~ k.arrived
      if it.mb 52 then
        let s' := convPut s b n { k with dropped := k.dropped ||| ls, signed := k.signed &&& ~~~ ls }
        (match checkRound s' w.ctx w.clu w.bid n none with
         | some s' => finish s' r it
         | none => s)
      else finish (convPut s b n { k with signed := k.signed ||| ls, dropped := k.dropped &&& ~~~ ls }) r it

/-- SIGN. -/
def signOp (it : Item) (s : State) : Out :=
  issue it (fun _ _ _ =>
    { uses := [.unused .a, .unused .b, .unused .c]
      bads := modZero it 63 53 ++ encBad (16 ≤ it.d) 5 12 }) s (signDo it)

/-! MMA (R211 to R217). -/

/-- Two register ranges share a register. -/
def rangesMeet (a n b m : Nat) : Bool := decide (a < b + m) && decide (b < a + n)

/-- Checks of an MMA's own fields (R207, R211, R212). -/
def mmaBads (w : Warp) (it : Item) : List Bad :=
  let lit := mmaLit it
  let na := mmaNa it + (if mmaMx it then 1 else 0)
  let nn := mmaN it
  let zero := it.code .c = 0x1C0
  let code := it.code .b
  let (col, _) := mmaB w it
  encBad it.f.lit.isNone 10 0 ++ encBad (it.f.gn || it.f.gp ≠ 7) 6 48 ++ dcBads it ++ modZero it 54 52 ++
    encBad (bitsN lit 6 5 = 3) 9 5 ++ encBad (bitsN lit 8 7 = 3) 9 7 ++ encBad (bitsN lit 15 14 ≠ 0) 7 14 ++
    encBad (!mmaMx it && mmaBsoff it ≠ 0) 7 16 ++
    opdBad (0x1D0 ≤ code && code < 0x1DA) 1 code ++
    opdBad (!arrPair (mmaTa it) (mmaTb it) (mmaMx it)) 5 (mmaTa it) ++
    opdBad (mmaMx it && mmaK it % 32 ≠ 0) 8 (mmaK it) ++
    opdBad (!zero && it.code .c ≠ it.d && rangesMeet (it.code .c) nn it.d nn) 2 (it.code .c) ++
    opdBad (rangesMeet (it.code .a) na it.d nn) 2 it.d ++
    opdBad (64 < col + nn) 8 col

/-- The column-store and codebook checks of an arrival (R206, R212). -/
def mmaLimits (s : State) (w : Warp) (it : Item) : Option LaneBad :=
  let (col, off) := mmaB w it
  let a := col * 65536
  firstOf [columnBad s w (a + off) col (mmaN it) off (sliceBytes (mmaTb it) (mmaK it)),
    if mmaMx it then columnBad s w (a + mmaBsoff it) col (mmaN it) (mmaBsoff it) (mmaK it / 32) else none,
    if mmaTb it = 0x13 && ((blockOf s w).bind (·.cb)).isNone then some ⟨0x24, 2, 0, 0⟩ else none]

/-- MMA's effect (R214): the group's lanes arrive and park, then CheckRound. -/
def mmaDo (it : Item) (s : State) (w : Warp) (r : Run) : State :=
  match blockOf s w with
  | none => s
  | some b =>
    let n := mmaKreg it
    let k := convOf b n
    let pc := r.pc.toNat
    if dcFull w it.dc then s
    else
      match mmaLimits s w it with
      | some x => laneFault s r it (lowLane r.grp) x
      | none =>
        if !k.v || k.warp ≠ w.wid then convFault s r 1 pc n k
        else if r.grp &&& ~~~ (k.set &&& k.signed) ≠ 0 || (lanesOf r.grp).any (fun l => decide (mmaM it ≤ l)) then convFault s r 3 pc n k
        else if k.mpc ≠ 0 && k.mpc ≠ pc then convFault s r 4 pc n k
        else
          let s := doom s 0x05
          let here := if k.arrived = 0 then [] else ((nget none b.mma n).map (·.runs)).getD []
          let b := { b with ecls := nset 0 b.ecls n (fld r.hdr 25 23), mma := nset none b.mma n (some ⟨pc, it.raw, it.f.lit, here ++ [r]⟩) }
          let s' := convPut s b n { k with mpc := pc, arrived := k.arrived ||| r.grp }
          let s' := parkLanes s' r.grp fun _ => { wait := .array n, ft := dw (fallThrough r), dst := 0, scope := 0 }
          (match checkRound s' w.ctx w.clu w.bid n (some it) with
           | some s' =>
             let go := fun l => if (nget none s'.cur.park l).isSome then r.pc else dw (fallThrough r)
             afterStops (endClause s' r go) r false false
           | none => s)

/-- MMA. -/
def mmaOp (it : Item) (s : State) : Out :=
  issue it (fun _ w _ =>
    { uses := mmaUses it
      usesLit := true
      bads := mmaBads w it }) s (mmaDo it)

/-! MMAS (R219 to R222). -/

/-- NSH. -/
def mmasNsh (lit : Nat) : Nat := bitsN lit 1 0
/-- G. -/
def mmasG (lit : Nat) : Nat := if mmasNsh lit = 2 then bitsN lit 5 2 + 1 else 1
/-- TB. -/
def mmasTb (lit : Nat) : Nat := bitsN lit 10 6
/-- MX. -/
def mmasMx (lit : Nat) : Bool := lit.testBit 11
/-- SPLIT. -/
def mmasSplit (lit : Nat) : Nat := bitsN lit 13 12
/-- Z. -/
def mmasZ (lit : Nat) : Bool := lit.testBit 18
/-- Columns of a group. -/
def mmasCols (lit : Nat) : Nat := 16 * 2 ^ mmasNsh lit

/-- The descriptor registers (Table 10.8). -/
structure Sweep where
  d : Nat
  kt : Nat
  rows : Nat
  dstr : Nat
  astr : Nat
  bsoff : Nat
  gstr : Nat
  asc : Nat
  deriving DecidableEq, Repr

/-- The fields of the sampled registers. -/
def sweepOf (l : List Word) : Sweep :=
  let x := fun i => (l.getD i 0).toNat
  ⟨x 0, x 1 / 65536, x 1 % 65536, x 2 / 65536, x 2 % 65536, x 3 / 65536, x 3 % 65536, x 4⟩

/-- Checks of Tables 10.7 and 10.8. -/
def mmasBads (w : Warp) (it : Item) : List Bad :=
  let lit := mmaLit it
  let n := it.code .c - 0x100
  let p := sweepOf ((List.range 5).map fun j => sget w (n + j))
  let ta := it.m 60 56
  encBad it.f.lit.isNone 10 0 ++ encBad (mmasNsh lit = 3) 9 0 ++ encBad (mmasNsh lit ≠ 2 && bitsN lit 5 2 ≠ 0) 7 2 ++
    encBad (bitsN lit 31 19 ≠ 0) 7 19 ++ modZero it 55 52 ++
    opdBad (!arrPair ta (mmasTb lit) (mmasMx lit)) 5 ta ++
    opdBad (p.kt < 16 || p.kt % (if mmasMx lit then 32 else 16) ≠ 0) 8 p.kt ++
    opdBad (p.rows % 32 ≠ 0 || p.rows < 32 || 8192 < p.rows) 8 p.rows ++
    opdBad (p.dstr % 16 ≠ 0 || p.dstr < 4 * mmasCols lit * mmasG lit) 8 p.dstr ++
    opdBad (p.astr % 16 ≠ 0 || p.astr < sliceBytes ta p.kt) 8 p.astr ++
    opdBad (p.gstr % 16 ≠ 0) 8 p.gstr

/-- Byte ranges of the first `rows` rows: offset from a base and length. -/
def rowSpans (rows stride len : Nat) : List (Nat × Nat) := (List.range rows).map fun i => (i * stride, len)

/-- The bounds fault of rows. -/
def rowsBad (s : State) (w : Warp) (base : Nat) (l : List (Nat × Nat)) : Option LaneBad :=
  l.findSome? fun e => spanBad s w base e.1 e.2

/-- Core, offset and length of rows. -/
def rowsAt (s : State) (w : Warp) (base : Nat) (l : List (Nat × Nat)) : List (Nat × Nat × Nat) :=
  l.filterMap fun e => rawRange s w base e.1 e.2

/-- Tiles of rows. -/
def rowsTiles (s : State) (w : Warp) (base : Nat) (l : List (Nat × Nat)) : List (Nat × Nat) :=
  (l.flatMap fun e => rawTiles s w base e.1 e.2).eraseDups

/-- The column-store bounds of every group (R219, R220). -/
def groupsBad (s : State) (w : Warp) (lit col off : Nat) (p : Sweep) : Option LaneBad :=
  (List.range (mmasG lit)).findSome? fun g =>
    firstOf [columnBad s w (col * 65536 + off + g * p.gstr) col (mmasCols lit) (off + g * p.gstr) (sliceBytes (mmasTb lit) p.kt),
      if mmasMx lit then columnBad s w (col * 65536 + p.bsoff + g * p.gstr) col (mmasCols lit) (p.bsoff + g * p.gstr) (p.kt / 32)
      else none]

/-- D's row length, A's, and the scales'. -/
def Cmd.sweep (c : Cmd) : Sweep := sweepOf c.desc
/-- The literal. -/
def Cmd.lits (c : Cmd) : Nat := c.lit.toNat
/-- TA of the command. -/
def Cmd.ta (c : Cmd) : Nat := fld c.insn 60 56
/-- Rows that are processed. -/
def Cmd.liveRows (c : Cmd) : Nat := min c.sweep.rows c.vc
/-- Row spans of D, A and ASC over `rows` rows. -/
def Cmd.dSpans (c : Cmd) (rows : Nat) : List (Nat × Nat) := rowSpans rows c.sweep.dstr (4 * mmasCols c.lits * mmasG c.lits)
/-- A's. -/
def Cmd.aSpans (c : Cmd) (rows : Nat) : List (Nat × Nat) := rowSpans rows c.sweep.astr (sliceBytes c.ta c.sweep.kt)
/-- The scales'. -/
def Cmd.scSpans (c : Cmd) (rows : Nat) : List (Nat × Nat) :=
  if mmasMx c.lits then rowSpans rows (c.sweep.kt / 32) (c.sweep.kt / 32) else []

/-- The steps of R189 for MMAS. -/
def mmasSteps (s : State) (w : Warp) (r : Run) (it : Item) : Iss State :=
  let lit := mmaLit it
  let a := uniVal s w r it .a
  let n := it.code .c - 0x100
  let ctl := sget w it.d
  let bar := ctlBar ctl
  let col := bitsN (uniVal s w r it .b) 21 16
  let off := bitsN (uniVal s w r it .b) 15 0
  let vc := if lit.testBit 17 then (sget w (n + 5)).toNat % 2 ^ 16 else w.vcnt.toNat % 2 ^ 16
  let c : Cmd := { newCmd w r it .mmas with
    ctl := ctl, a := w32 a, b := w32 (col * 65536 + off), desc := (List.range 5).map (fun j => sget w (n + j)), vc := vc
    bar := w32 bar }
  let p := c.sweep
  let mx := mmasMx lit
  let sp := fun (k : Nat → List (Nat × Nat)) => k p.rows
  let lv := fun (k : Nat → List (Nat × Nat)) => k c.liveRows
  (issCheck s r it (firstOf [align16 a 2, if off % 16 ≠ 0 then some ⟨0x06, 4, dw (col * 65536 + off), 0⟩ else none, align16 p.d 2,
    if mx then align16 p.asc 2 else none, align16 bar 2,
    rowsBad s w a (lv c.aSpans), rowsBad s w p.d (lv c.dSpans), rowsBad s w p.asc (lv c.scSpans),
    groupsBad s w lit col off p])).bind fun _ s =>
  let ra := rowsAt s w a (sp c.aSpans)
  let rd := rowsAt s w p.d (sp c.dSpans)
  let rs := rowsAt s w p.asc (sp c.scSpans)
  let shared := sharedBytes ra rd ++ sharedBytes ra rs ++ sharedBytes rd rs
  let tiles := fun (rows : Nat) =>
    (rowsTiles s w a (c.aSpans rows) ++ rowsTiles s w p.d (c.dSpans rows) ++ rowsTiles s w p.asc (c.scSpans rows)).eraseDups
  (issCheck s r it (firstOf [sharedBad s w 3 shared,
    barBad s w 14 bar (tiles p.rows),
    if mmasTb lit = 0x13 && ((blockOf s w).bind (·.cb)).isNone then some ⟨0x24, 2, 0, 0⟩ else none])).bind fun _ s =>
  startCmd s r it { c with tiles := tiles c.liveRows, units := (p.rows + 31) / 32 * mmasG lit }

/-- MMAS. -/
def mmasOp (it : Item) (s : State) : Out :=
  let k := if (mmaLit it).testBit 17 then 5 else 4
  issue it (fun s w _ =>
    { uses := [.src .a vtCount accS, .src .b vtCount { v := false, latch := false, lit := false, sr := false, uni := true },
        .src .c vtCount accS]
      usesLit := true
      bads := dcBads it ++ ctlBads s w it ++ maskBads w it ++ originBads it k ++ mmasBads w it ++
        sRegsBad s w (originReg it) (if mmasMx (mmaLit it) then 5 else 4) (it.code .c) ++
        sRegsBad s w (originReg it + 5) (k - 4) (it.code .c)
      extra := engineRegs it k }) s (onceDo mmasSteps it)

/-- A row's elements of A by number, and its scale. -/
def sweepA (s : State) (c : Cmd) (row k : Nat) : Nat :=
  let bits := arrBits c.ta
  let o := row * c.sweep.astr + k * bits / 8
  let n := (k * bits % 8 + bits + 7) / 8
  let p := spanLoc s c.who c.a.toNat o n
  poolNat s p.1 p.2 n / 2 ^ (k * bits % 8) % 2 ^ bits

/-- Address of D's element. -/
def sweepD (s : State) (c : Cmd) (row col : Nat) : Nat × Nat := spanLoc s c.who c.sweep.d (row * c.sweep.dstr + 4 * col) 4

/-- D's element after a step (R220): the chunks of 16 inside K-chunk `kc`. -/
def sweepElt (s : State) (c : Cmd) (cb : List (BitVec 16)) (row j : Nat) : Nat :=
  let p := c.sweep
  let lit := c.lits
  let col := bitsN c.b.toNat 21 16 + j
  let off := bitsN c.b.toNat 15 0 + c.g * p.gstr
  let mx := mmasMx lit
  let cc := 64 * c.g + j
  let k0 := 64 * c.kc
  let n := (min 64 (p.kt - k0)) / 16
  let sa := fun k => if mx then
      let q := spanLoc s c.who p.asc (row * (p.kt / 32) + k / 32) 1
      some (poolNat s q.1 q.2 1)
    else none
  let sb := fun k => if mx then some (colScale s c.core col (p.bsoff + c.g * p.gstr) (k / 32)) else none
  let be := fun k => colElt s c.core col off (mmasTb lit) k
  let d := sweepD s c row cc
  let x := if c.kc = 0 && mmasZ lit then 0 else poolNat s d.1 d.2 4
  foldChunks (arrInt c.ta mx) (fun k => arrVal c.ta cb (sa k) (sweepA s c row k)) (fun k => arrVal (mmasTb lit) cb (sb k) (be k))
    (fun k => signedOf 8 (sweepA s c row k)) (fun k => signedOf 8 (be k)) n k0 x

/-- Whether a step reads poison: its rows of A, D and scales, its columns. -/
def stepPoisoned (s : State) (c : Cmd) (rows : List Nat) : Bool :=
  let p := c.sweep
  let lit := c.lits
  let k0 := 64 * c.kc
  let bits := arrBits c.ta
  let meets := fun (base o n : Nat) => let q := spanLoc s c.who base o n; poolPoisoned s q.1 q.2 n
  rows.any (fun row =>
    meets c.a.toNat (row * p.astr + k0 * bits / 8) (min 64 (p.kt - k0) * bits / 8) ||
    (mmasMx lit && meets p.asc (row * (p.kt / 32) + k0 / 32) ((min 64 (p.kt - k0) + 31) / 32)) ||
    (!(c.kc == 0 && mmasZ lit) && meets p.d (row * p.dstr + 256 * c.g) (4 * mmasCols lit))) ||
  (List.range (mmasCols lit)).any fun j =>
    let col := bitsN c.b.toNat 21 16 + j
    colPoisoned s c.core col (bitsN c.b.toNat 15 0 + c.g * p.gstr + k0 * arrBits (mmasTb lit) / 8)
      (min 64 (p.kt - k0) * arrBits (mmasTb lit) / 8) ||
    (mmasMx lit && colPoisoned s c.core col (p.bsoff + c.g * p.gstr + k0 / 32) ((min 64 (p.kt - k0) + 31) / 32))

/-- Whether a command stands at a granule boundary (R220, R222). -/
def mmasBoundary (c : Cmd) : Bool :=
  match mmasSplit c.lits with
  | 0 => false
  | 1 => c.g == 0 && c.kc == 0
  | 2 => c.kc == 0
  | _ => true

/-- The step after this one: row block, group, K-chunk. -/
def nextStep (c : Cmd) : Cmd :=
  let kcs := (c.sweep.kt + 63) / 64
  if c.kc + 1 < kcs then { c with kc := c.kc + 1 }
  else if c.g + 1 < mmasG c.lits then { c with g := c.g + 1, kc := 0 }
  else { c with rb := c.rb + 1, g := 0, kc := 0 }

/-- Tiles that a row block releases: D's that neither later rows nor A nor the scales hold. -/
def blockTiles (s : State) (c : Cmd) : List (Nat × Nat) :=
  let p := c.sweep
  let d := c.dSpans c.liveRows
  let keep := rowsTiles s c.who p.d (d.drop (32 * (c.rb + 1))) ++ rowsTiles s c.who c.a.toNat (c.aSpans c.liveRows) ++
    rowsTiles s c.who p.asc (c.scSpans c.liveRows)
  (rowsTiles s c.who p.d ((d.drop (32 * c.rb)).take 32)).filter fun t => !keep.contains t

/-- MMAS_STEP: one step of the sweep of MMAS `n` (R220, R221). A step with CB4 operands takes the array codebook register as it stands
then: R94 and R206 name no moment (DESIGN CHOICE, log entry 143). It waits for earlier BLOADs of its columns (R197), and for
a refill of its budget (R331); skipped rows keep their steps (R43); a saved command stops at a boundary (R222). -/
def mmasStep (n : Nat) (s : State) : State :=
  match (s.cmds.filter fun c => c.kind == .mmas)[n]? with
  | none => s
  | some c =>
    let p := c.sweep
    let lit := c.lits
    let rows := (List.range 32).filterMap fun i => if 32 * c.rb + i < c.liveRows then some (32 * c.rb + i) else none
    match findBlock s c.ctx c.clu c.bid with
    | none => s
    | some b =>
      let col := bitsN c.b.toNat 21 16
      let off := bitsN c.b.toNat 15 0 + c.g * p.gstr
      if (c.saving && mmasBoundary c) || ctxHalted s c.ctx then s
      else if bloadBusy s b c.core col (mmasCols lit) off (sliceBytes (mmasTb lit) p.kt) s.fresh ||
          (mmasMx lit && bloadBusy s b c.core col (mmasCols lit) (p.bsoff + c.g * p.gstr) (p.kt / 32) s.fresh) then s
      else if !rows.isEmpty && (stepPoisoned s c rows || (mmasTb lit = 0x13 && b.cb == some [])) then stopCmd s c { cause := 0x82, addr := c.a.setWidth 64, asp := 2, info0 := 3 }
      else
        match charge s c.ctx (stepDebit (energyClass s c.ctx (bitsN lit 16 14))) with
        | none => s
        | some s0 =>
        let cb := b.cb.getD []
        let cells := rows.flatMap fun row => (List.range (mmasCols lit)).map fun j => (row, j)
        let s' := cells.foldl (fun st e =>
          let d := sweepD s c e.1 (64 * c.g + e.2)
          poolStore st d.1 d.2 (bytesOf 4 (sweepElt s c cb e.1 e.2))) s0
        let c' := nextStep c
        if c'.kc = 0 then
          landedUnit s' c' (c.rb * mmasG lit + c.g) (if c'.g = 0 then blockTiles s c else []) c.core c.bar.toNat (4 * cells.length)
        else putCmd s' c'

/-- KSET (R209). -/
def execKset (f : Long) (s : State) : Out := ksetOp (longItem 0x182 true f) s

/-- SIGN (R210). -/
def execSign (f : Long) (s : State) : Out := signOp (longItem 0x183 false f) s

/-- MMA (R211 to R217). -/
def execMma (f : Long) (s : State) : Out := mmaOp (longItem 0x180 false f) s

/-- MMAS (R219 to R222). -/
def execMmas (f : Long) (s : State) : Out := mmasOp (longItem 0x181 true f) s

/-- MMAS_STEP (R220): a step of the `n`-th MMAS under way. -/
def execMmasStep (n : Nat) (s : State) : Out := .next (mmasStep n s)

end Sys2Proof.Machine
end

