-- ==== Sys2Proof/Machine/Chain.lean ====
section
/-! DEFINITION. Chains: CHLD, ITSET, CHRUN (R223 to R231). -/

namespace Sys2Proof.Machine

/-! Chains (R223 to R225). -/

/-- NOPS. -/
def chNops (ch : List DWord) : Nat := fld (wordAt ch 0) 4 0
/-- NIN. -/
def chNin (ch : List DWord) : Nat := fld (wordAt ch 0) 6 5
/-- OFMT. -/
def chOfmt (ch : List DWord) : Nat := fld (wordAt ch 0) 10 7
/-- ORND. -/
def chOrnd (ch : List DWord) : Nat := fld (wordAt ch 0) 13 11
/-- NSAT. -/
def chNsat (ch : List DWord) : Bool := fbit (wordAt ch 0) 14

/-- The operation words of a chain. -/
def chOps (ch : List DWord) : List DWord := (ch.drop 1).take (chNops ch)

/-- Whether a chain reads a parameter. -/
def chReadsU (ch : List DWord) : Bool :=
  (chOps ch).any fun o => ([fld o 17 13, fld o 22 18, fld o 27 23] : List Nat).any fun x => decide (0x0C ≤ x) && decide (x ≤ 0x0F)

/-- A chain operand: its exact value, and the FP32 encoding it has where it is delivered (R92). -/
structure ChainIn where
  v : FV
  e : Nat
  deriving DecidableEq, Repr

/-- An FP32 encoding as an operand. -/
def ChainIn.ofEnc (e : Nat) : ChainIn := ⟨decodeF f32 e, e⟩

/-- A value as an operand. -/
def ChainIn.ofVal (v : FV) : ChainIn := ⟨v, toF32 v⟩

/-- min and max (R159), by the exact values where these differ. -/
def chainMinMax (isMin : Bool) (a b : ChainIn) : Nat :=
  match cmpFV a.v b.v with
  | some .lt => if isMin then a.e else b.e
  | some .gt => if isMin then b.e else a.e
  | _ => minMaxEnc f32 isMin false a.e b.e

/-- Op of Table 10.11: FP32 results. -/
def chainOp (op rnd : Nat) (x y z : ChainIn) : Nat :=
  let d := ChainIn.v
  let a := x.e
  let out := roundF f32 rnd 0 false false
  match op with
  | 0x01 => out (addFV rnd (d x) (d y))
  | 0x02 => out (addFV rnd (d x) (d y).flip)
  | 0x03 => out (mulFV (d x) (d y))
  | 0x04 => out (addFV rnd (mulFV (d x) (d y)) (d z))
  | 0x05 => chainMinMax true x y
  | 0x06 => chainMinMax false x y
  | 0x07 => chainMinMax true (.ofEnc (chainMinMax false x y)) z
  | 0x08 => rcpF f32 0 false (d x)
  | 0x09 => rsqF f32 false a (d x)
  | 0x0A => sqrtF f32 0 false (d x)
  | 0x0B => ex2F false a (d x)
  | 0x0C => lg2F false a (d x)
  | 0x0D => tanhF false a (d x)
  | 0x0E => if cmpFV (d x) (.num false 0 0) = some .gt then y.e else z.e
  | 0x0F => if (d x).isNaN then f32.qnan else a % 2 ^ 31
  | 0x10 => if (d x).isNaN then f32.qnan else (a + 2 ^ 31) % 2 ^ 32
  | _ => if (d x).isNaN then f32.qnan else a

/-- The chain unit's registers (R225). -/
structure ChainRegs where
  t : NMap Nat := []
  y : Nat := 0

/-- One operation. -/
def chainStep (xs : List ChainIn) (us : List Nat) (r : ChainRegs) (o : DWord) : ChainRegs :=
  let sel := fun x =>
    if 1 ≤ x && x ≤ 8 then ChainIn.ofEnc (nget 0 r.t (x - 1))
    else if 9 ≤ x && x ≤ 0x0B then xs.getD (x - 9) (.ofEnc 0)
    else .ofEnc (if 0x0C ≤ x && x ≤ 0x0F then us.getD (x - 0x0C) 0 else if x = 0x10 then fld o 63 32 else 0)
  let v := chainOp (fld o 7 0) (fld o 29 28) (sel (fld o 17 13)) (sel (fld o 22 18)) (sel (fld o 27 23))
  if fld o 11 8 = 8 then { r with y := v } else { r with t := nset 0 r.t (fld o 11 8) v }

/-- A chain's result (R225) on operands whose values are exact: in its output format. -/
def chainOut (ch : List DWord) (xs : List ChainIn) (us : List Nat) (rnd : Nat) : Nat :=
  let y := decodeF f32 ((chOps ch).foldl (chainStep xs us) {}).y
  match fmtFloat (chOfmt ch) with
  | some F => roundF F (chOrnd ch) rnd (!chNsat ch) false y
  | none => toIntF (chOrnd ch) 8 true y

/-- A chain's result on FP32 operands. -/
def chainRun (ch : List DWord) (xs us : List Nat) (rnd : Nat) : Nat := chainOut ch (xs.map ChainIn.ofEnc) us rnd

/-- The chain in a slot of a block. -/
def slotChain (s : State) (w : Warp) (slot : Nat) : Option (List DWord) := (blockOf s w).bind fun b => nget none b.chains slot

/-- CHN of the kernel (Table 6.16) (DEDUCED, log entry 42). -/
def chn (s : State) (w : Warp) : Nat := fld (khdrWord s w 5) 3 0

/-! CHLD and ITSET (R226, R227). -/

/-- Whether a CHRUN.tile of the block that uses the slot is under way. -/
def slotBusy (s : State) (w : Warp) (slot : Nat) : Bool :=
  s.cmds.any fun c => c.kind == .chrun && c.ctx == w.ctx && c.clu == w.clu && c.bid == w.bid && fld c.insn 59 57 == slot

/-- CHLD's effect. -/
def chldDo (it : Item) (s : State) (w : Warp) (r : Run) : State :=
  if !guardU w it then finish s r it
  else if slotBusy s w it.d then s
  else
    match blockOf s w with
    | none => s
    | some b =>
      let ch := (ctxOf s w).bind fun c => c.chains[uniVal s w r it .a]?
      finish (putBlock s { b with chains := nset none b.chains it.d (some (ch.getD [])) }) r it

/-- CHLD. -/
def chldOp (it : Item) (s : State) : Out :=
  issue it (fun s w r =>
    let c := uniVal s w r it .a
    { uses := [.src .a vtCount accNum, .unused .b, .unused .c]
      bads := modZero it 63 52 ++ encBad (8 ≤ it.d) 5 12 ++ opdBad (chn s w ≤ it.d) 12 it.d ++ opdBad (chn s w ≤ c) 12 c }) s (chldDo it)

/-- The steps of ITSET. -/
def itsetSteps (s : State) (w : Warp) (r : Run) (it : Item) : Iss State :=
  let a := uniVal s w r it .b
  (readAtOrigin s w r it (it.mb 59) true true false a).bind fun t s =>
    let x : Iter := { tens := t, org := originOf w it t.rank, addr := a, asp := if it.mb 59 then 0 else 2 }
    .ok (finish { s with cur := { s.cur with iter := nset none s.cur.iter it.d (some x) } } r it) s

/-- ITSET. -/
def itsetOp (it : Item) (s : State) : Out :=
  issue it (fun _ _ _ =>
    { uses := [.unused .a, .src .b vtCount accUni, .src .c vtCount accS]
      bads := modZero it 63 60 ++ modZero it 58 52 ++ encBad (8 ≤ it.d) 5 12 ++ originBads it 4
      extra := (engineRegs it 4).drop 1 }) s fun s w r => if guardU w it then issued s (itsetSteps s w r it) else finish s r it

/-! CHRUN on registers (R228, R229). -/

/-- UBASE. -/
def chrUbase (it : Item) : Nat := bitsN (mmaLit it) 6 0
/-- UV. -/
def chrUv (it : Item) : Bool := (mmaLit it).testBit 7
/-- SLOT. -/
def chrSlot (it : Item) : Nat := it.m 59 57
/-- The chain a CHRUN runs, or an empty one. -/
def chrChain (s : State) (w : Warp) (it : Item) : List DWord := (slotChain s w (chrSlot it)).getD []
/-- The inputs of a list beyond NIN; an empty slot names no NIN. -/
def chrBeyond {α : Type} (s : State) (w : Warp) (it : Item) (l : List α) : List α :=
  match slotChain s w (chrSlot it) with
  | none => []
  | some ch => l.drop (chNin ch)
/-- u0 to u3, or nothing. -/
def chrParams (w : Warp) (it : Item) : List Word := if chrUv it then (List.range 4).map fun j => sget w (chrUbase it + j) else []
/-- The valid count (R228). -/
def chrCount (w : Warp) (it : Item) : Nat :=
  if it.mb 56 then (sget w (chrUbase it + 4)).toNat % 2 ^ 16 else w.vcnt.toNat % 2 ^ 16
/-- s registers of parameters and valid count. -/
def chrRegs (it : Item) : List (Nat × Nat) :=
  (if chrUv it then (List.range 4).map fun j => (1, chrUbase it + j) else []) ++ if it.mb 56 then [(1, chrUbase it + 4)] else []

/-- Checks that both forms make; an INT8 output takes neither .rs nor .nsat (R98, R99). -/
def chrBads (s : State) (w : Warp) (it : Item) : List Bad :=
  let ch := chrChain s w it
  encBad it.f.lit.isNone 10 0 ++ dcBads it ++ encBad (bitsN (mmaLit it) 31 23 ≠ 0) 7 23 ++
    sRegsBad s w (chrUbase it) (if chrUv it then 4 else 0) (chrUbase it) ++
    sRegsBad s w (chrUbase it + 4) (if it.mb 56 then 1 else 0) (chrUbase it) ++
    opdBad (127 < chrUbase it + 3 || (it.mb 56 && 127 < chrUbase it + 4)) 8 (chrUbase it) ++
    opdBad (chn s w ≤ chrSlot it || (slotChain s w (chrSlot it)).isNone) 12 (chrSlot it) ++
    opdBad (chReadsU ch && !chrUv it) 12 (chrSlot it) ++
    opdBad (chOfmt ch = 10 && 3 < chOrnd ch) 6 (chOrnd ch) ++ opdBad (chOfmt ch = 10 && chNsat ch) 6 1

/-- Inputs of the register form. -/
def chrIns : List Fld := [.a, .b, .c]

/-- The register form's effect. -/
def chrunDo (it : Item) (s : State) (w : Warp) (r : Run) : State :=
  if dcFull w it.dc then s
  else
    let ch := chrChain s w it
    let lanes := (lanesOf (activeLanes w r it)).filter fun l => decide (l < chrCount w it)
    let us := (chrParams w it).map (·.toNat)
    let xs := fun l => (chrIns.take (chNin ch)).map fun x => operand s w r it (.flt f32) x l
    let res := fun l => chainRun ch (xs l) us (laneRandom s w l 0)
    let w' := lanes.foldl (fun w' l => vset w' it.d l (w32 (res l))) w
    match charge s w.ctx (energyClass s w.ctx (fld r.hdr 25 23) + 1) with
    | none => s
    | some s =>
    finish { s with cur := if chOrnd ch = 4 then bumpRctr w' (lanesFrom lanes) else w' } r it

/-- CHRUN, register form. -/
def chrunOp (it : Item) (s : State) : Out :=
  issue it (fun s w _ =>
    let ch := chrChain s w it
    let n := chNin ch
    { uses := (chrIns.take n).map (fun x => .src x (.flt f32) { lit := false, sr := false }) ++ [.dstData 1 1]
      usesLit := true
      bads := chrBads s w it ++ modZero it 55 52 ++ encBad (bitsN (mmaLit it) 22 8 ≠ 0) 7 8 ++
        ((chrBeyond s w it chrIns).flatMap fun x => encBad (it.code x ≠ 0) 9 (fldLow it x)) ++
        opdBad (ch ≠ [] && chOfmt ch ≠ 2) 5 (chOfmt ch)
      extra := chrRegs it }) s (chrunDo it)

/-! CHRUN.tile at issue (R228, R230). -/

/-- Iterator numbers: destination, then the inputs. -/
def chrIters (it : Item) (n : Nat) : List Nat :=
  bitsN (mmaLit it) 13 11 :: (List.range n).map fun i => bitsN (mmaLit it) (16 + 3 * i) (14 + 3 * i)

/-- A command that stands for iterator `i` of a CHRUN.tile, 0 the destination: its record, origin, format and geometry. -/
def Cmd.side (c : Cmd) (i : Nat) : Cmd :=
  let x := c.iters[i]?
  let f := (wordAt c.kv i).toNat
  { c with tens := x.map (·.tens), org := (x.map (·.org)).getD [], fmt := f % 16, geo := f / 16, vc := 0x10000 }

/-- Where element `p` of a side stands; the destination's outside elements are not written. -/
def Cmd.sideElt (c : Cmd) (i p : Nat) : Src :=
  let d := c.side i
  d.tensor.elt d.org d.bits (i == 0) p

/-- Byte span of an element, from the record's base. -/
def Cmd.sideSpan (c : Cmd) (i p : Nat) : Option (Nat × Nat) :=
  match c.sideElt i p with
  | .at _ bit => some (bit / 8, (bit + (c.side i).bits + 7) / 8 - bit / 8)
  | _ => none

/-- Position in input `i`'s box of the destination's position `p`: an axis of size 1 is broadcast. -/
def Cmd.inputPos (c : Cmd) (i p : Nat) : Nat :=
  let dims := (c.side i).tensor.dims
  ((dims.zip (digits (c.side 0).tensor.dims p)).foldl
    (fun (acc : Nat × Nat) (e : Nat × Nat) => (acc.1 + (if e.1 = 1 then 0 else e.2) * acc.2, acc.2 * e.1)) (0, 1)).1

/-- Positions of the destination's row `row`. -/
def Cmd.rowPos (c : Cmd) (row : Nat) : List Nat :=
  let t := (c.side 0).tensor
  (List.range t.count).filter fun p => t.row p == row

/-- Rows of the destination. -/
def Cmd.rowCount (c : Cmd) : Nat := let t := (c.side 0).tensor; if t.rank = 1 then t.dims.getD 0 1 else t.dims.getD 1 1

/-- Rows that are processed. -/
def Cmd.rowsLive (c : Cmd) : Nat := min c.rowCount c.vc

/-- Positions of side `i` that the destination positions `ps` use, in its own order. -/
def Cmd.sidePos (c : Cmd) (i : Nat) (ps : List Nat) : List Nat :=
  let used := (ps.map fun p => if i = 0 then p else c.inputPos i p).eraseDups
  (List.range (c.side i).count).filter used.contains

/-- Destination positions of the first `n` rows. -/
def Cmd.rowsPos (c : Cmd) (n : Nat) : List Nat := (List.range n).flatMap c.rowPos

/-- Tiles of a side over destination positions. -/
def Cmd.sideTiles (s : State) (c : Cmd) (i : Nat) (ps : List Nat) : List (Nat × Nat) :=
  let t := (c.side i).tensor
  if !t.space then []
  else (((c.sidePos i ps).filterMap (c.sideSpan i)).flatMap fun e => rawTiles s c.who t.base e.1 e.2).eraseDups

/-- Bounds of a pool side over destination positions: skipped rows raise no fault (R42). -/
def Cmd.sideBad (s : State) (w : Warp) (c : Cmd) (i : Nat) (ps : List Nat) : Option LaneBad :=
  let t := (c.side i).tensor
  if !t.space then none else ((c.sidePos i ps).filterMap (c.sideSpan i)).findSome? fun e => spanBad s w t.base e.1 e.2

/-- Whether an input stands in place: record and origin equal the destination's, FILL aside (R230). -/
def inPlace (d x : Iter) : Bool := { x.tens with fill := 0 } == { d.tens with fill := 0 } && x.org == d.org

/-- The format-mismatch fault at issue: at the tile's address, that of its first element (Table 21.1). -/
def fmtFault (d : Cmd) (ps : List Nat) : LaneBad :=
  if d.tensor.space then ⟨0x23, 1, dw d.tensor.base, 2⟩ else ⟨0x23, 1, dw ((firstInside d d.fmt ps).getD d.tensor.base), 1⟩

/-- Fixing the formats of the sides in turn: format and geometry of each, and the codebook index of its first page. -/
def fixSides (s : State) (w : Warp) (r : Run) (it : Item) (c : Cmd) (ofmt : Nat) : List Nat → Iss (List (DWord × Nat))
  | [] => .ok [] s
  | i :: t =>
    let d := c.side i
    let d := { d with fmt := d.tensor.fmt, geo := d.tensor.geo }
    let ps := c.sidePos i (c.rowsPos c.rowsLive)
    let x := c.iters[i]?
    (fixFormat s w r it d ps).bind fun f s =>
      let ok := if i = 0 then f.fmt = ofmt else 1 ≤ f.fmt && f.fmt ≤ 12
      let d := { d with fmt := f.fmt, geo := f.geo }
      (issCheck s r it (if ok then none else some (fmtFault d ps))).bind fun _ s =>
        (issBox s r it d.tensor ((x.map (·.addr)).getD 0) ((x.map (·.asp)).getD 2) (boxBad d ps)).bind fun _ s =>
          (fixSides s w r it c ofmt t).bind fun l s => .ok ((dw (f.fmt + 16 * f.geo), f.cbi) :: l) s

/-- The codebooks that CB4 sides need: those of the pages of their boxes (R94). -/
def sideBooks (r : Run) (it : Item) (cbis : List Nat) (live : List Nat) (c : Cmd) (s : State) : Iss Cmd :=
  let is := (List.range cbis.length).flatMap fun i =>
    if (c.side i).fmt = 12 then pageBooks s s.cur (c.side i) (cbis.getD i 0) (c.sidePos i live) else []
  (readBooks s s.cur r it is.eraseDups).bind fun l s => .ok { c with books := l } s

/-- The steps of R189 for CHRUN.tile from its iterators on: the destination's and the inputs'. -/
def chrunTileIssue (s : State) (w : Warp) (r : Run) (it : Item) (c : Cmd) (d : Iter) (xs : List Iter) : Iss State :=
  let ch := c.chain
  let iters := c.iters
  let bar := ctlBar c.ctl
  let thread := lowLane r.grp
  let is := List.range iters.length
  if !d.tens.space then
    .fault (recordFault s r 5 3 (dw (d.tens.str.getD 1 0 * 2 ^ 32 + (if d.tens.bv then 2 ^ 30 else 0) + d.tens.ext.getD 4 0)) d.addr d.asp)
  else if xs.any fun (x : Iter) => (d.tens.dims.zip x.tens.dims).any fun (e : Nat × Nat) => e.2 ≠ e.1 && e.2 ≠ 1 then
    .fault (badTrap s r it ⟨false, 8, chrSlot it⟩)
  else
    (issCheck s r it (align16 bar 2)).bind fun _ s =>
    (fixSides s w r it c (chOfmt ch) is).bind fun l s =>
    let c := { c with kv := l.map fun (e : DWord × Nat) => e.1 }
    let live := c.rowsPos c.rowsLive
    (issCheck s r it (is.findSome? fun i => c.sideBad s w i live)).bind fun _ s =>
    let dst := (c.side 0).fullRanges s w
    let meets := is.flatMap fun i =>
      match iters[i]? with
      | some x => if i = 0 || !x.tens.space || inPlace d x then [] else sharedBytes ((c.side i).fullRanges s w) dst
      | none => []
    (issCheck s r it (sharedBad s w 4 meets)).bind fun _ s =>
    let tilesOver := fun n => (is.flatMap fun i => c.sideTiles s i (c.rowsPos n)).eraseDups
    let full := is.flatMap fun i => if (c.side i).tensor.space then (c.side i).fullRanges s w else []
    (issCheck s r it (barBad s w 14 bar (rangeTiles full))).bind fun _ s =>
    if is.any fun i => boxLogged w (c.side i) (c.sidePos i live) then .hold
    else
      startCmd s r it { c with tiles := tilesOver c.rowsLive, units := c.rowCount }
        (fun _ s => if chOrnd ch = 4 then onCur s fun w => bumpRctr w (1#32 <<< thread) else s)
        (sideBooks r it (l.map fun (e : DWord × Nat) => e.2) live)

/-- The steps of R189 for CHRUN.tile. -/
def chrunTileSteps (s : State) (w : Warp) (r : Run) (it : Item) : Iss State :=
  let ch := chrChain s w it
  let iters := (chrIters it (chNin ch)).filterMap fun n => nget none w.iter n
  let ctl := sget w it.d
  let thread := lowLane r.grp
  let c : Cmd := { newCmd w r it .chrun with
    ctl := ctl, bar := w32 (ctlBar ctl), iters := iters, chain := ch, params := chrParams w it, vc := chrCount w it,
    gpos := gridPos s w thread, rctr := nget 0 w.rctr thread, rseed := w.rseed
    kv := iters.map fun i => dw (i.tens.fmt + 16 * i.tens.geo) }
  match iters with
  | [] => .hold
  | d :: xs => chrunTileIssue s w r it c d xs

/-- CHRUN.tile. -/
def chrunTileOp (it : Item) (s : State) : Out :=
  issue it (fun s w _ =>
    let ch := chrChain s w it
    let n := chNin ch
    let lit := mmaLit it
    { uses := [.unused .a, .unused .b, .unused .c]
      usesLit := true
      bads := chrBads s w it ++ modZero it 53 52 ++ encBad (it.m 55 54 = 3) 9 54 ++
        (chrBeyond s w it ([0, 1, 2] : List Nat)).flatMap (fun i => encBad (bitsN lit (16 + 3 * i) (14 + 3 * i) ≠ 0) 9 (14 + 3 * i)) ++
        ctlBads s w it ++ maskBads w it ++
        (chrIters it n).flatMap fun i => opdBad ((nget none w.iter i).isNone) 12 i
      extra := (1, it.d) :: chrRegs it }) s (onceDo chrunTileSteps it)

/-! The sweep (R230, R231). -/

/-- An input element as a chain's operand (R225), in its own page's format; none where it is outside with FILL 3. FP64 is rounded;
an MX product is exact (R92). -/
def Cmd.inputVal (c : Cmd) (i p : Nat) (b sc : Bytes) : Option ChainIn :=
  let d := c.side i
  (d.elem b p).map fun x =>
    if x.fmt = 2 then .ofEnc x.raw
    else if x.fmt = 12 then .ofVal (decodeF bf16 ((c.book x.cbi).getD (x.raw % 16) 0).toNat)
    else if x.fmt = 1 then .ofEnc (toF32 x.val)
    else
      match d.scaleOf b p with
      | some a => .ofVal (eltMx x.fmt (nget 0 sc.m a).toNat x.raw)
      | none => .ofVal x.val

/-- Reading the inputs of a row: the command with the codebooks it has read, for each input its bytes and scales, and whether a
codebook is poisoned. -/
def readInputs (ps : List Nat) (known : List (Nat × Walk)) : List Nat → Cmd → State → Tiled (Cmd × List (Nat × Bytes × Bytes) × Bool)
  | [], c, s => .ok (c, [], false) s
  | i :: t, c, s =>
    let d := c.side i
    let qs := (ps.map (c.inputPos i)).eraseDups
    (readBox s d known qs).bind fun b s =>
      (readScales s d true b qs).bind fun sc s =>
        let is := eltBooks (qs.map (d.elem b))
        (tileBooks sc.known is c s).bind fun c s =>
          (readInputs ps sc.known t c s).bind fun (c, l, bad) s => .ok (c, (i, b, sc) :: l, bad || c.booksBad is) s

/-- Random bits of element `idx` of a command (R230). -/
def chainRandom (c : Cmd) (idx : Nat) : Nat :=
  let z0 := ((c.rseed.toNat * 2 ^ 32 + c.rctr.toNat) ^^^ (c.gpos * 0x9E3779B97F4A7C15) ^^^ (idx * 0xD6E8FEB86659FD93 % 2 ^ 64)) % 2 ^ 64
  let z1 := (z0 ^^^ (z0 / 2 ^ 30)) * 0xBF58476D1CE4E5B9 % 2 ^ 64
  let z2 := (z1 ^^^ (z1 / 2 ^ 27)) * 0x94D049BB133111EB % 2 ^ 64
  (z2 ^^^ (z2 / 2 ^ 31)) / 2 ^ 32

/-- Bits written over bytes that stand at keys of a map. -/
def overBits (old : Nat → Byte) (acc : List (Nat × Byte)) (k bit bits v : Nat) : List (Nat × Byte) :=
  (List.range ((bit + bits + 7) / 8)).foldl (fun acc i =>
    let b0 := ((acc.find? fun e => e.1 == k + i).map (·.2)).getD (old (k + i))
    let b := BitVec.ofNat 8 ((List.range 8).foldl (fun x j =>
      let p := 8 * i + j
      let t := if bit ≤ p && p < bit + bits then v.testBit (p - bit) else b0.getLsbD j
      if t then x + 2 ^ j else x) 0)
    (k + i, b) :: acc.filter fun e => e.1 != k + i) acc

/-- Storing bytes at pool keys; a word stored whole is no longer poisoned (R382). -/
def poolPutAll (s : State) (ws : List (Nat × Byte)) : State :=
  { s with pool := ws.foldl (fun m (e : Nat × Byte) => nset 0 m e.1 e.2) s.pool
           poolPoison := markWords s.poolPoison (ws.map (·.1)) [] }

/-- The bytes a row writes: the last element of a run along axis 0 with zero bits up to the end of its byte (R90). -/
def rowWrites (s : State) (c : Cmd) (ps : List Nat) (ins : List (Nat × Bytes × Bytes)) : List (Nat × Byte) :=
  let us := c.params.map (·.toNat)
  let d := c.side 0
  ps.foldl (fun acc p =>
    let xs := ins.map fun e => c.inputVal e.1 (c.inputPos e.1 p) e.2.1 e.2.2
    match c.sideElt 0 p with
    | .at co bit =>
      if xs.any Option.isNone then acc
      else
        let n := (bit % 8 + d.bits + 7) / 8
        let q := spanLoc s c.who d.tensor.base (bit / 8) n
        let pad := if co.getD 0 0 + 1 = d.tensor.extAt 0 then (8 - (bit + d.bits) % 8) % 8 else 0
        overBits (fun k => nget 0 s.pool k) acc (poolKey q.1 q.2) (bit % 8) (d.bits + pad)
          (chainOut c.chain (xs.filterMap id) us (chainRandom c p))
    | _ => acc) []

/-- Whether the element at a destination position is written (R230): inside the extents, no input outside with FILL 3. -/
def Cmd.writesElt (c : Cmd) (p : Nat) : Bool :=
  (match c.sideElt 0 p with | .at _ _ => true | _ => false) &&
    ((List.range c.iters.length).drop 1).all fun i => c.sideElt i (c.inputPos i p) != .skip

/-- Destination bytes of the elements at positions that are written, by offset from the record's base. -/
def Cmd.eltBytes (c : Cmd) (ps : List Nat) : List Nat :=
  ((ps.filter c.writesElt).flatMap fun p => match c.sideSpan 0 p with
    | some e => (List.range e.2).map (e.1 + ·)
    | none => []).eraseDups

/-- Bytes that a row credits: those it writes that no earlier row has (R230). -/
def Cmd.rowCredit (c : Cmd) (row : Nat) : Nat :=
  let before := if (c.side 0).bits < 8 then c.eltBytes (c.rowsPos row) else []
  ((c.eltBytes (c.rowPos row)).filter fun o => !before.contains o).length

/-- Whether a command stands at a granule boundary before its next row. -/
def chrunBoundary (c : Cmd) : Bool :=
  match fld c.insn 55 54 with
  | 0 => false
  | 1 => true
  | _ => c.row % 32 == 0

/-- Elements of the destination's full box. -/
def Cmd.count0 (c : Cmd) : Nat := (c.side 0).tensor.count

/-- Energy that the next row debits (R331). -/
def chrunDebit (s : State) (c : Cmd) : Nat :=
  let per := c.count0 / max 1 c.rowCount
  (((c.row + 1) * per + 63) / 64 - (c.row * per + 63) / 64) * (energyClass s c.ctx (bitsN c.lit.toNat 10 8) + 1)

/-- CHRUN_TILE_ROW: the next row of the `n`-th CHRUN.tile under way, each 64 elements charged with the row that they belong to (R331);
skipped rows keep their slots (R43). -/
def chrunRow (n : Nat) (s : State) : State :=
  match (s.cmds.filter fun c => c.kind == .chrun)[n]? with
  | none => s
  | some c =>
    if (c.saving && chrunBoundary c) || ctxHalted s c.ctx then s
    else
      let ps := if c.row < c.rowsLive then c.rowPos c.row else []
      match charge s c.ctx (chrunDebit s c) with
      | none => s
      | some _ =>
      let is := (List.range c.iters.length).drop 1
      landAfter s c c.row (readInputs ps [] is c s) fun (c, ins, badBook) s' =>
        let s' := (charge s' c.ctx (chrunDebit s c)).getD s'
        let bad := badBook || ins.any fun e => ps.any fun p =>
          let q := c.inputPos e.1 p
          (c.side e.1).tainted e.2.1 q || !e.2.2.bad.isEmpty
        if bad then stopCmd s' c { cause := 0x82, addr := dw (c.side 1).tensor.base, asp := if (c.side 1).tensor.space then 2 else 1, info0 := 4 }
        else
          let ws := rowWrites s' c ps ins
          let later := ((List.range c.rowsLive).drop (c.row + 1)).flatMap c.rowPos
          let keep := (0 :: is).flatMap fun i => c.sideTiles s' i later
          let tiles := ((0 :: is).flatMap fun i => c.sideTiles s' i ps).filter fun t => !keep.contains t
          landedUnit (poolPutAll s' ws) { c with row := c.row + 1 } c.row tiles c.core c.bar.toNat
            (if ps.isEmpty then 0 else c.rowCredit c.row)

/-- CHLD (R226). -/
def execChld (f : Long) (s : State) : Out := chldOp (longItem 0x184 true f) s

/-- ITSET (R227). -/
def execItset (f : Long) (s : State) : Out := itsetOp (longItem 0x186 true f) s

/-- CHRUN on registers (R228, R229). -/
def execChrun (f : Long) (s : State) : Out := chrunOp (longItem 0x185 false f) s

/-- CHRUN.tile (R228, R230). -/
def execChrunTile (f : Long) (s : State) : Out := chrunTileOp (longItem 0x185 true f) s

/-- CHRUN_TILE_ROW (R230, R231): the next row of the `n`-th CHRUN.tile under way. -/
def execChrunTileRow (n : Nat) (s : State) : Out := .next (chrunRow n s)

end Sys2Proof.Machine
end

