-- ==== Sys2Proof/Machine/Lane.lean ====
section
/-! DEFINITION. The lane operations (R168 to R174), within the tile of R25. -/

namespace Sys2Proof.Machine

/-- A capturing lane operation (R168) with its own uses; `more` is what it writes after its result, `keeps` the active lanes whose
destination keeps its value. -/
def laneOpKeeps (keeps : Warp → Run → Lanes) (it : Item) (uses : List Use) (pair : Bool) (bads : List Bad) (extra : List (Nat × Nat))
    (more : Warp → Run → Warp → Warp) (g : State → Warp → Run → Nat → Nat) (s : State) : Out :=
  issue it (fun _ w r =>
    { uses := uses ++ [.dstV (if pair then 2 else 1)], bads := bads, capt := true, wide := true, extra := extra, keeps := keeps w r }) s
    fun s w r => vecResultThen s r it pair (g s w r) (more w r)

/-- One with a result in every active lane. -/
def laneOp : Item → List Use → Bool → List Bad → List (Nat × Nat) → (Warp → Run → Warp → Warp) → (State → Warp → Run → Nat → Nat) →
    State → Out := laneOpKeeps fun _ _ => 0

/-- Nothing beside the result. -/
def noMore : Warp → Run → Warp → Warp := fun _ _ w => w

/-- MOV. -/
def laneMove (it : Item) : State → Out :=
  let t := it.ty
  laneOp it (srcUses false [vtOf t]) (vtOf t).pair (commonBads it [8, 9] 0) [] noMore fun s w r l => getB s w r it t .a l

/-- MOVI: v(A + n), 0 beyond 31 or the declared registers; it waits for every declared register from A to A + 31. -/
def moviOp (it : Item) (s : State) : Out :=
  let lim := match s.cur.run with
    | some _ => vlim s s.cur
    | none => 0
  let a := it.code .a
  laneOp it [.vgrp .a 1 1, .src .b (.bits 32) accAny, .unused .c] false (commonBads it [8] 0)
    (((List.range 32).filter fun n => decide (a + n < lim)).map fun n => (0, a + n)) noMore
    (fun s w r l =>
      let n := operand s w r it (.bits 32) .b l
      if n ≤ 31 ∧ a + n < vlim s w then (vget w (a + n) l).toNat else 0) s

/-- Byte `i` of a PRMT result from the bytes before it, the sources and the selectors. -/
def prmtByte (x c i prev : Nat) : Nat :=
  let q := c / 16 ^ i % 16
  if q < 8 then x / 256 ^ q % 256
  else match q with
    | 9 => 0xFF
    | 10 => if 128 ≤ (if i = 0 then x % 256 else prev) then 0xFF else 0
    | 11 => if i = 0 then x % 256 else prev
    | _ => 0

/-- PRMT of R169 on two sources and the selectors. -/
def prmtVal (a b c : Nat) : Nat :=
  let x := a + b * 2 ^ 32
  let b0 := prmtByte x c 0 0
  let b1 := prmtByte x c 1 b0
  let b2 := prmtByte x c 2 b1
  let b3 := prmtByte x c 3 b2
  b0 + b1 * 2 ^ 8 + b2 * 2 ^ 16 + b3 * 2 ^ 24

/-- PRMT. -/
def prmtOp (it : Item) : State → Out :=
  let t := VT.bits 32
  laneOp it (srcUses false [t, t, t]) false (commonBads it [8] 0) [] noMore fun s w r l =>
    prmtVal (operand s w r it t .a l) (operand s w r it t .b l) (operand s w r it t .c l)

/-- SHFL's source lane and whether it wraps: mode, tile size, lane in the tile, operand b (R170). -/
def shflSrc (mode z li n : Nat) : Nat × Bool :=
  match mode with
  | 0 => (n % z, decide (z ≤ n))
  | 1 => (wrapInt 32 ((li : Int) - n) % z, decide (li < n))
  | 2 => ((li + n) % z, decide (z ≤ li + n))
  | _ => ((li ^^^ n) % z, decide (z ≤ n))

/-- SHFL. -/
def shflOp (it : Item) : State → Out :=
  let t := vtOf it.ty
  let edge := it.mb 55
  laneOp it ([.src .a t accAny, .src .b vtCount accAny] ++ (if edge then [.src .c t accAny] else [.unused .c])) t.pair
    (opdBad (!([8, 9] : List Nat).contains it.ty) 5 it.ty ++ encBad (it.m 58 56 ≠ 0) 7 56 ++ encBad (it.mb 54) 7 54) []
    noMore fun s w r l =>
      let z := 2 ^ r.tsz.toNat
      let base := tileBase r l
      let p := shflSrc (it.m 53 52) z (l - base) (operand s w r it vtCount .b l)
      let src := base + p.1
      let act := lon (activeLanes w r it) src
      if edge && (p.2 || !act) then operand s w r it t .c l
      else if !act then operand s w r it t .a l
      else operand s w r it t .a src

/-- The active lanes of a lane's tile, in order. -/
def tileActive (w : Warp) (r : Run) (it : Item) (l : Nat) : List Nat :=
  (tileLanes r (tileBase r l)).filter fun i => lon (activeLanes w r it) i

/-- The optional v register that field C names: 0x1C0 for none (R171, R173). -/
def optV (it : Item) : List Use := if it.code .c = 0x1C0 then [] else [.vgrp .c 1 1]

/-- Writing field C's register of `w` in lanes `act`, where it names one. -/
def putOptV (w : Warp) (act : Lanes) (it : Item) (g : Nat → Nat) : Warp :=
  if it.code .c = 0x1C0 then w
  else (lanesOf act).foldl (fun w l => vset w (it.code .c) l (w32 (g l))) w

/-- VOTE. A ballot's count is written after d, so where both name one register the count stands (DESIGN CHOICE, log
entry 118). -/
def voteOp (it : Item) (s : State) : Out :=
  let mode := it.m 53 52
  let bads := encBad (it.m 63 54 ≠ 0) 7 54
  let uses : List Use := [.pred .a false, .unused .b] ++ optV it
  let holds := fun (w : Warp) (r : Run) (l : Nat) =>
    (tileActive w r it l).filter fun i => predCode w false (it.code .a) i
  if mode = 3 then
    laneOp it uses false bads [] (fun w r w' => putOptV w' (activeLanes w r it) it fun l => (holds w r l).length)
      (fun _ w r l => (lanesFrom ((holds w r l).map (· % 2 ^ r.tsz.toNat))).toNat) s
  else
    issue it (fun _ _ _ => { uses := uses ++ [.dstP false], bads := bads, wide := true }) s fun s w r =>
      let val := fun l =>
        let n := (holds w r l).length
        let k := (tileActive w r it l).length
        match mode with
        | 0 => decide (n = k)
        | 1 => decide (0 < n)
        | _ => decide (n = 0) || decide (n = k)
      let w1 := putOptV w (activeLanes w r it) it fun l => (holds w r l).length
      let w2 := (lanesOf (activeLanes w r it)).foldl (fun w l => pset w it.d l (val l)) w1
      finish { s with cur := w2 } r it

/-- MATCH: OPX[0] selects all. -/
def matchOp (it : Item) : State → Out :=
  let t := vtOf it.ty
  laneOp it (srcUses false [t]) false (commonBads it [8, 9] 1) [] noMore fun s w r l =>
    let ls := tileActive w r it l
    let same := ls.filter fun j => operand s w r it t .a j == operand s w r it t .a l
    if opx0 it && same.length != ls.length then 0 else (lanesFrom (same.map (· % 2 ^ r.tsz.toNat))).toNat

/-- The identity of a fold (R172): operation, type. -/
def foldIdentity (op ty : Nat) : Nat :=
  match op with
  | 1 => if ty = 0x0B then f32.infEnc else if ty = 2 then 2 ^ 31 - 1 else 2 ^ 32 - 1
  | 2 => if ty = 0x0B then signed f32 true f32.infEnc else if ty = 2 then 2 ^ 31 else 0
  | 3 => 2 ^ 32 - 1
  | _ => 0

/-- One step of an associative fold on encodings. -/
def foldStep (op ty a b : Nat) : Nat :=
  let v := fun x => if ty = 2 then signedOf 32 x else (x : Int)
  match op with
  | 0 => (a + b) % 2 ^ 32
  | 1 => if ty = 0x0B then minMaxEnc f32 true false a b else if v a ≤ v b then a else b
  | 2 => if ty = 0x0B then minMaxEnc f32 false false a b else if v a ≤ v b then b else a
  | 3 => a &&& b
  | 4 => a ||| b
  | _ => a ^^^ b

/-- The fold of R172; a .f32 sum is exact and rounded once. A NaN result of .f32 min and max is the canonical one, a single
participant's too (R88). -/
def foldVal (op ty : Nat) (xs : List Nat) : Nat :=
  match xs with
  | [] => foldIdentity op ty
  | x :: t =>
    if op = 0 && ty = 0x0B then roundF f32 0 0 false false (sumFV 0 (xs.map (decodeF f32)))
    else
      let y := t.foldl (foldStep op ty) x
      if ty = 0x0B && (decodeF f32 y).isNaN then f32.qnan else y

/-- REDUX, and SCAN where `scan` is set. -/
def foldOp (scan : Bool) (it : Item) : State → Out :=
  let t := vtOf it.ty
  let op := it.m 58 56
  let ok := if op ≤ 2 then ([2, 6, 0x0B] : List Nat).contains it.ty else it.ty == 8
  laneOp it (srcUses false [t]) false
    (opdBad (!(([2, 6, 0x0B, 8] : List Nat).contains it.ty)) 5 it.ty ++ opdBad (6 ≤ op) 6 op ++ opdBad (op < 6 && !ok) 5 it.ty ++
      opdBad (it.mb 55 && !scan) 6 1 ++ encBad (it.m 54 52 ≠ 0) 7 52) [] noMore fun s w r l =>
    let ls := tileActive w r it l
    let ls := if !scan then ls else ls.filter fun j => decide (j < l) || (j == l && !it.mb 55)
    foldVal op it.ty (ls.map fun j => operand s w r it t .a j)

/-- What a lane captures whose destination keeps its value: that value, or zero under NOWB, as where the guard is false (R117, R173;
DEDUCED, log entry 146). -/
def oldDest (w : Warp) (it : Item) (pair : Bool) (l : Nat) : Nat := if it.f.nowb then 0 else vnat w pair it.d l

/-- The selected lanes of a lane's tile: active, with the predicate of field B. -/
def selected (w : Warp) (r : Run) (it : Item) (l : Nat) : List Nat :=
  (tileActive w r it l).filter fun i => predCode w false (it.code .b) i

/-- Checks of the pack layout. -/
def packBads (it : Item) : List Bad :=
  opdBad (!([8, 9] : List Nat).contains it.ty) 5 it.ty ++ encBad (it.m 58 53 ≠ 0) 7 53

/-- The lane whose value a lane of COMPRESS takes (R173). -/
def compressFrom (w : Warp) (r : Run) (it : Item) (l : Nat) : Option Nat := (selected w r it l)[l - tileBase r l]?

/-- The lane whose value a lane of EXPAND takes (R173). -/
def expandFrom (w : Warp) (r : Run) (it : Item) (l : Nat) : Option Nat :=
  (findIdx (· == l) (selected w r it l)).bind fun k =>
    let src := tileBase r l + k
    if lon (activeLanes w r it) src then some src else none

/-- The result of either: the value of the lane that it takes, else zero or the destination's own. -/
def packVal (src : Warp → Run → Item → Nat → Option Nat) (it : Item) (s : State) (w : Warp) (r : Run) (l : Nat) : Nat :=
  let t := vtOf it.ty
  match src w r it l with
  | some k => operand s w r it t .a k
  | none => if opx0 it then 0 else oldDest w it t.pair l

/-- The active lanes that take no lane's value and keep their destination's. -/
def packKeeps (src : Warp → Run → Item → Nat → Option Nat) (it : Item) (w : Warp) (r : Run) : Lanes :=
  if opx0 it then 0 else lanesWhere (activeLanes w r it) fun l => (src w r it l).isNone

/-- COMPRESS: the count is written last (R173). -/
def compressOp (it : Item) : State → Out :=
  let t := vtOf it.ty
  laneOpKeeps (packKeeps compressFrom it) it ([.src .a t accAny, .pred .b false] ++ optV it) t.pair (packBads it) []
    (fun w r w' => putOptV w' (activeLanes w r it) it fun l => (selected w r it l).length) (packVal compressFrom it)

/-- EXPAND. -/
def expandOp (it : Item) : State → Out :=
  let t := vtOf it.ty
  laneOpKeeps (packKeeps expandFrom it) it [.src .a t accAny, .pred .b false, .unused .c] t.pair (packBads it) [] noMore
    (packVal expandFrom it)

/-- PART: the tile size of the warp from its next clause on (R25). -/
def partOp (it : Item) (s : State) : Out :=
  let acc : Accept := { v := false, latch := false, sr := false, uni := true }
  let spec := fun (s : State) (w : Warp) (r : Run) =>
    let z := operand s w r it (.int 32 false) .a 0
    ({ uses := [.src .a (.int 32 false) acc, .unused .b, .unused .c, .dstNone]
       bads := encBad (it.m 63 52 ≠ 0) 7 52 ++ encBad (it.f.gn || it.f.gp != 7) 6 48 ++
         opdBad (!([2, 4, 8, 16, 32] : List Nat).contains z) 8 z } : Spec)
  issue it spec s fun s w r =>
    let z := operand s w r it (.int 32 false) .a 0
    finish { s with cur := { w with part := w32 (Nat.log2 z) } } r it

/-- MOV (R169). -/
def execMov (f : Long) (s : State) : Out := laneMove (longItem 0x0E0 false f) s

/-- MOV.b32, short. -/
def execMovShort (f : Short) (s : State) : Out := laneMove (shortItem 0x01 false 0x400 f) s

/-- MOVI (R169). -/
def execMovi (f : Long) (s : State) : Out := moviOp (longItem 0x0E1 false f) s

/-- PRMT (R169). -/
def execPrmt (f : Long) (s : State) : Out := prmtOp (longItem 0x0E2 false f) s

/-- SHFL (R170). -/
def execShfl (f : Long) (s : State) : Out := shflOp (longItem 0x0E3 false f) s

/-- SHFL.idx.b32, short. -/
def execShflIdxShort (f : Short) (s : State) : Out := shflOp (shortItem 0x2D false 0x400 f) s

/-- SHFL.up.b32, short. -/
def execShflUpShort (f : Short) (s : State) : Out := shflOp (shortItem 0x2E false 0x401 f) s

/-- SHFL.down.b32, short. -/
def execShflDownShort (f : Short) (s : State) : Out := shflOp (shortItem 0x2F false 0x402 f) s

/-- SHFL.xor.b32, short. -/
def execShflXorShort (f : Short) (s : State) : Out := shflOp (shortItem 0x30 false 0x403 f) s

/-- VOTE (R171). -/
def execVote (f : Long) (s : State) : Out := voteOp (longItem 0x0E4 false f) s

/-- MATCH (R171). -/
def execMatchLanes (f : Long) (s : State) : Out := matchOp (longItem 0x0E7 false f) s

/-- REDUX (R172). -/
def execRedux (f : Long) (s : State) : Out := foldOp false (longItem 0x0E5 false f) s

/-- REDUX.add.i32, short. -/
def execReduxAddShort (f : Short) (s : State) : Out := foldOp false (shortItem 0x31 false 0x100 f) s

/-- REDUX.max.i32, short. -/
def execReduxMaxShort (f : Short) (s : State) : Out := foldOp false (shortItem 0x32 false 0x120 f) s

/-- SCAN (R172). -/
def execScan (f : Long) (s : State) : Out := foldOp true (longItem 0x0E6 false f) s

/-- COMPRESS (R173). -/
def execCompress (f : Long) (s : State) : Out := compressOp (longItem 0x0E8 false f) s

/-- EXPAND (R173). -/
def execExpand (f : Long) (s : State) : Out := expandOp (longItem 0x0E9 false f) s

/-- PART (R174). -/
def execPart (f : Long) (s : State) : Out := partOp (longItem 0x0EA false f) s

end Sys2Proof.Machine
end

