-- ==== Sys2Proof/Machine/Pool.lean ====
section
/-! DEFINITION. The pool instructions (R175 to R178). -/

namespace Sys2Proof.Machine

/-- Uses of a pool address a + b + c, or a + b in the short form. -/
def poolUses (it : Item) : List Use :=
  [.src .a vtCount accMem, .src .b vtCount accMem] ++ (if it.isShort then [.unused .c] else [.src .c vtCount accMem])

/-- The pool address of a lane (R175). -/
def poolAddr (s : State) (w : Warp) (r : Run) (it : Item) (l : Nat) : Nat :=
  (operand s w r it vtCount .a l + operand s w r it vtCount .b l +
    (if it.isShort then 0 else operand s w r it vtCount .c l)) % 2 ^ 32

/-- Q of Table 9.1: the 16-byte form of LDS and STS. -/
def ldsQ (it : Item) : Bool := it.mb 52

/-- Types of LDS and STS. -/
def ldsTypes (it : Item) : List Nat := if ldsQ it then [9] else [0, 4, 1, 5, 8, 9]

/-- A pool load of `n` bytes a lane into registers: the checks in every active lane, then the loads. -/
def loadDo (atTarget : Bool) (n align : Nat) (it : Item) (s : State) (w : Warp) (r : Run) : State :=
  let hit := r
  let r := r.arrived
  let act := lanesOf (activeLanes w r it)
  let addr := poolAddr s w r it
  match firstLane act fun l => (poolReadCheck s w (addr l) n align).or (struckBad hit l (act.headD 0) (addr l)) with
  | some (l, b) => laneFault s r it l b
  | none =>
    let met := watchMet atTarget r (dataWatch s w act true true false (fun l => addr l % 2 ^ 20) n)
    overCauseway (met := met) atTarget (poolCores s w act addr n) s r fun _ =>
      let w' := act.foldl (fun w' l =>
        let p := poolLoc s w (addr l) n
        vputRegs w' it.d l (regsOf n) (loadExt it.mty n (poolNat s p.1 p.2 n))) w
      goOn { s with cur := metTiles s act (fun l => poolLoc s w (addr l) n) n w' } r it met

/-- LDS. -/
def ldsOp (it : Item) (s : State) : Out :=
  let n := accBytes it (ldsQ it)
  let k := regsOf n
  issue it (fun _ _ _ => { uses := poolUses it ++ [.dstData k k], bads := memBads it (ldsTypes it) false 55 53 }) s
    (loadDo false n n it)

/-- Registers of an LDSM. -/
def ldsmN (it : Item) : Nat := 2 ^ it.m 53 52

/-- LDSM: N registers, aligned to Min(4N, 16). -/
def ldsmOp (it : Item) (s : State) : Out :=
  let k := ldsmN it
  issue it (fun _ _ _ => { uses := poolUses it ++ [.dstData k k], bads := memBads it [8] false 55 54 }) s
    (loadDo false (4 * k) (min (4 * k) 16) it)

/-- A pool store: lanes in increasing order, so that the highest lane's byte holds (R177). -/
def stsDo (atTarget : Bool) (it : Item) (s : State) (w : Warp) (r : Run) : State :=
  let n := accBytes it (ldsQ it)
  let hit := r.struck
  let r := r.arrived
  let act := lanesOf (activeLanes w r it)
  let addr := poolAddr s w r it
  match firstLane act fun l => poolCheck s w (addr l) n n true with
  | some (l, b) => laneFault s r it l b
  | none =>
    let met := watchMet atTarget r (dataWatch s w act true false true (fun l => addr l % 2 ^ 20) n)
    overCauseway (met := met) atTarget (poolCores s w act addr n) s r fun _ =>
      let s' := act.foldl (fun s' l =>
        let p := poolLoc s w (addr l) n
        let s' := poolStore s' p.1 p.2 (bytesOf n (vregsNat w it.d l (regsOf n)))
        if hit && l == act.headD 0 then poisonPool s' p.1 p.2 1 else s') s
      goOn (onCur s' (metTiles s act (fun l => poolLoc s w (addr l) n) n)) r it met

/-- STS. -/
def stsOp (it : Item) (s : State) : Out :=
  let k := regsOf (accBytes it (ldsQ it))
  issue it (fun _ _ _ => { uses := poolUses it ++ [.dstData k k], bads := memBads it (ldsTypes it) false 55 53 }) s
    (stsDo false it)

/-- The pool address of an atomic: a + b. -/
def atomAddr (s : State) (w : Warp) (r : Run) (it : Item) (l : Nat) : Nat :=
  (operand s w r it vtCount .a l + operand s w r it vtCount .b l) % 2 ^ 32

/-- Applying the group at one pool address (R178); `ret` writes the old values to d. -/
def poolGroup (it : Item) (ret : Bool) (s0 : State) (w0 : Warp) (r : Run) (act : List Nat) (s : State) (a : Nat) : State :=
  let n := tyBytes it.mty
  let p := poolLoc s0 w0 a n
  let ls := (act.filter fun l => atomAddr s0 w0 r it l == a).map (atomLane s0 w0 r it)
  let res := applyGroup (it.m 55 52) it.mty (poolNat s p.1 p.2 n) ls
  let s := poolStore s p.1 p.2 (bytesOf n res.1)
  if ret then { s with cur := res.2.foldl (fun w e => vputNat w (n == 8) it.d e.1 e.2) s.cur } else s

/-- A pool atomic: the checks in every active lane, then one application for each address. -/
def atomPoolDo (atTarget ret : Bool) (it : Item) (s : State) (w : Warp) (r : Run) : State :=
  let n := tyBytes it.mty
  let hit := r
  let r := r.arrived
  let act := lanesOf (activeLanes w r it)
  let addr := atomAddr s w r it
  match firstLane act fun l => (poolReadCheck s w (addr l) n n).or (struckBad hit l (act.headD 0) (addr l)) with
  | some (l, b) => laneFault s r it l b
  | none =>
    let met := watchMet atTarget r (dataWatch s w act true true true (fun l => addr l % 2 ^ 20) n)
    overCauseway (met := met) atTarget (poolCores s w act addr n) s r fun _ =>
      goOn (onCur ((distinct act addr).foldl (poolGroup it ret s w r act) s)
          (metTiles s act (fun l => poolLoc s w (addr l) n) n)) r it met

/-- Uses of a pool atomic. -/
def atomUses (it : Item) : List Use :=
  [.src .a vtCount accMem, .src .b vtCount accMem, .src .c (vtOf it.mty) accMem]

/-- ATOMS. -/
def atomsOp (it : Item) (s : State) : Out :=
  let k := regsOf (tyBytes it.mty)
  issue it (fun _ _ _ => { uses := atomUses it ++ [.dstData k k], bads := atomBads it false false }) s
    (atomPoolDo false true it)

/-- REDS: nothing is returned. -/
def redsOp (it : Item) (s : State) : Out :=
  issue it (fun _ _ _ => { uses := atomUses it ++ [.dstNone], bads := atomBads it true false }) s
    (atomPoolDo false false it)

/-- LDS (R177). -/
def execLds (f : Long) (s : State) : Out := ldsOp (longItem 0x100 false f) s

/-- LDS.b32, short: [a + b]. -/
def execLdsB32Short (f : Short) (s : State) : Out := ldsOp (shortItem 0x29 false 0x80 f) s

/-- LDS.b64, short: [a + b]. -/
def execLdsB64Short (f : Short) (s : State) : Out := ldsOp (shortItem 0x2A false 0x90 f) s

/-- LDSM (R177). -/
def execLdsm (f : Long) (s : State) : Out := ldsmOp (longItem 0x101 false f) s

/-- STS (R177). -/
def execSts (f : Long) (s : State) : Out := stsOp (longItem 0x102 false f) s

/-- STS.b32, short: [a + b], data from the register DST names. -/
def execStsB32Short (f : Short) (s : State) : Out := stsOp (shortItem 0x2B false 0x80 f) s

/-- STS.b64, short. -/
def execStsB64Short (f : Short) (s : State) : Out := stsOp (shortItem 0x2C false 0x90 f) s

/-- ATOMS (R178). -/
def execAtoms (f : Long) (s : State) : Out := atomsOp (longItem 0x103 false f) s

/-- REDS (R178). -/
def execReds (f : Long) (s : State) : Out := redsOp (longItem 0x104 false f) s

end Sys2Proof.Machine
end

