-- ==== Sys2Proof/Machine/Control.lean ====
section
/-! DEFINITION. Control transfer, reconvergence hints, YIELD and NOP (R138 to R142). -/

namespace Sys2Proof.Machine

/-- Whether a transfer may go to an address: the illegal-target subcode otherwise (R106, Table 20.1). A target whose page
cannot be fetched is judged by the fetch of its clause (DEDUCED, log entry 15) (DEDUCED, log entry 50). -/
def targetBad (s : State) (w : Warp) (tgt : DWord) : Option Nat × State :=
  if fld tgt 63 60 ≠ 0 then (some 3, s)
  else if tgt.toNat % 8 ≠ 0 then (some 1, s)
  else
    match isHeader s w.core (tenantOf s w) tgt.toNat with
    | (some false, s) => (some 2, s)
    | (_, s) => (none, s)

/-- The lowest of the listed lanes with a bad target: lane, subcode (R139). -/
def firstBadTarget (tgt : Nat → DWord) : List Nat → State → Option (Nat × Nat) × State
  | [], s => (none, s)
  | l :: t, s =>
    match targetBad s s.cur (tgt l) with
    | (some k, s) => (some (l, k), s)
    | (none, s) => firstBadTarget tgt t s

/-- Literal target of R138: the literal parcel's address plus the literal, modulo 2^60. -/
def literalTarget (r : Run) (it : Item) : DWord :=
  dw (wrapInt 60 (((r.pc.toNat + 8 : Nat) : Int) + signedOf 32 (it.f.lit.getD 0).toNat))

/-- The illegal-target fault (Table 20.1, cause 0x04). -/
def targetFault (s : State) (r : Run) (it : Item) (tgt : DWord) (lane sub : Nat) : State :=
  preciseFault s r { cause := 0x04, addr := tgt, asp := 1, info0 := sub, info1 := lane, aux := it.raw }

/-- Counting a taken call or return while stepping (R318). -/
def countDepth (w : Warp) (go : Lanes) (d : Int) : Warp :=
  if w.step then { w with depth := (lanesOf go).foldl (fun m l => nset 0 m l (nget 0 m l + d)) w.depth } else w

/-- BRA, BRX, CALL, CALLX and RET (R138, R139): per thread or uniform by U = MOD[52]. -/
def transferOp (lit link ret : Bool) (it : Item) (s : State) : Out :=
  let u := it.mb 52
  let spec : Spec :=
    { uses := (if lit then [.unused .a] else [.src .a (.int 64 false) (if u then accS else accV)]) ++ [.unused .b, .unused .c,
        if link then (if u then .dstS 2 else .dstV 2) else .dstNone]
      bads := encBad (it.m 63 53 ≠ 0) 7 53 ++ encBad (lit && it.f.lit.isNone) 10 0
      usesLit := lit }
  issue it (fun _ _ _ => spec) s fun s w r =>
    let go := activeLanes w r it
    let tgt := fun l => if lit then literalTarget r it else dw (operand s w r it (.int 64 false) .a l)
    match firstBadTarget tgt (lanesOf go) s with
    | (some (l, k), s) => targetFault s r it (tgt l) l k
    | (none, s) =>
      let ft := fallThrough r
      let w := s.cur
      let w := if !link then w
        else if u then (if go = 0 then w else sputNat w true it.d ft)
        else (lanesOf go).foldl (fun w l => vputNat w true it.d l ft) w
      let w := if link then countDepth w go 1 else if ret then countDepth w go (-1) else w
      let s := endClause { s with cur := w } (advance r it) fun l => if lon go l then dw ((tgt l).toNat % 2 ^ 60) else dw ft
      afterStops s r false (ret && go != 0)

/-- RCV (R141): the hint of every active lane becomes the literal target. -/
def rcvOp (it : Item) (s : State) : Out :=
  let spec : Spec :=
    { uses := [.unused .a, .unused .b, .unused .c, .dstNone],
      bads := encBad (it.m 63 52 ≠ 0) 7 52 ++ encBad it.f.lit.isNone 10 0, usesLit := true }
  issue it (fun _ _ _ => spec) s fun s w r =>
    let act := activeLanes w r it
    let tgt := literalTarget r it
    match firstBadTarget (fun _ => tgt) (lanesOf act) s with
    | (some (l, k), s) => targetFault s r it tgt l k
    | (none, s) =>
      let w := { s.cur with hint := (lanesOf act).foldl (fun m l => nset none m l (some tgt)) s.cur.hint,
                            heldFor := (lanesOf act).foldl (fun m l => nset 0 m l 0) s.cur.heldFor }
      finish { s with cur := w } r it

/-- Every field but the guard and the opcode is zero. -/
def emptySpec (it : Item) (guarded : Bool) : Spec :=
  { uses := [.unused .a, .unused .b, .unused .c, .dstNone],
    bads := encBad (it.m 63 52 ≠ 0) 7 52 ++ encBad (!guarded && (it.f.gn || it.f.gp != 7)) 6 48 }

/-- YIELD (R142): the clause ends and the warp's next issue slot goes to another warp. -/
def yieldOp (it : Item) (s : State) : Out :=
  issue it (fun _ _ _ => emptySpec it false) s fun s w r =>
    afterStops (endClause { s with cur := { w with yielded := true } } (advance r it) fun _ => dw (fallThrough r)) r false false

/-- NOP (R142): nothing. -/
def nopOp (it : Item) (s : State) : Out := issue it (fun _ _ _ => emptySpec it true) s fun s _ r => finish s r it

/-- BRA (R139). -/
def execBra (f : Long) (s : State) : Out :=
  transferOp true false false (longItem 0x000 (f.md.getLsbD 0) f) s

/-- BRX (R139). -/
def execBrx (f : Long) (s : State) : Out :=
  transferOp false false false (longItem 0x001 (f.md.getLsbD 0) f) s

/-- CALL (R139). -/
def execCall (f : Long) (s : State) : Out :=
  transferOp true true false (longItem 0x002 (f.md.getLsbD 0) f) s

/-- CALLX (R139). -/
def execCallx (f : Long) (s : State) : Out :=
  transferOp false true false (longItem 0x003 (f.md.getLsbD 0) f) s

/-- RET (R139): as BRX, counted as a return (R318). -/
def execRet (f : Long) (s : State) : Out :=
  transferOp false false true (longItem 0x004 (f.md.getLsbD 0) f) s

/-- RCV (R141). -/
def execRcv (f : Long) (s : State) : Out := rcvOp (longItem 0x006 false f) s

/-- YIELD (R142). -/
def execYield (f : Long) (s : State) : Out := yieldOp (longItem 0x007 false f) s

/-- YIELD, short. -/
def execYieldShort (f : Short) (s : State) : Out := yieldOp (shortItem 0x3E false 0x0 f) s

/-- NOP (R142). -/
def execNop (f : Long) (s : State) : Out := nopOp (longItem 0x008 false f) s

/-- NOP, short. -/
def execNopShort (f : Short) (s : State) : Out := nopOp (shortItem 0x00 false 0x0 f) s

end Sys2Proof.Machine
end

