-- ==== Sys2Proof/Machine/Sync.lean ====
section
/-! DEFINITION. Barriers, fences, hardware barriers, tide waits, transactions (R233 to R251). -/

namespace Sys2Proof.Machine

/-! Operands and guards of Table 11.2 (R236). -/

/-- A uniform operand: s register, constant, literal, uniform latch. -/
def accSync : Accept := { v := false, sr := false, uni := true }

/-- A guard other than pt where pt is required (R236). -/
def ptBads (it : Item) : List Bad := encBad (it.f.gn || it.f.gp != 7) 6 48

/-- MOD bits of a row of Table 11.2 outside [hi:lo] are zero. -/
def modOutside (it : Item) (hi lo : Nat) : List Bad :=
  encBad (hi < 63 && it.m 63 (hi + 1) ≠ 0) 7 (hi + 1) ++ encBad (52 < lo && it.m (lo - 1) 52 ≠ 0) 7 52

/-- MOD is zero. -/
def modNone (it : Item) : List Bad := encBad (it.m 63 52 ≠ 0) 7 52

/-- Ending a clause-final wait: the lanes of `parked` stay at it, the others go on past the clause. -/
def endWait (s : State) (r : Run) (it : Item) (parked : Lanes) (watch : Bool) : State :=
  let ft := dw (fallThrough r)
  afterStops (endClause s (advance r it) fun l => if lon parked l then r.pc else ft) r watch false

/-! Barrier objects. -/

/-- A barrier fault (Table 24.1, cause 0x60) (DEDUCED, log entry 68). -/
def barFault (s : State) (w : Warp) (r : Run) (p : Nat × Nat) (sub lane : Nat) : State :=
  preciseFault s r { cause := 0x60, addr := memberAddr s w.key p.1 p.2, asp := 2, info0 := sub, info1 := lane,
                     aux := (barRead s p.1 p.2).1 }

/-- The objects' scopes. -/
def objScopes (s : State) (objs : List (Nat × Nat)) : List Nat := (objs.map fun p => barScope (barRead s p.1 p.2).1).eraseDups

/-- An access to the objects that lanes name (R234): the checks of R176 and, where `rel`, steps 1 to 3 of R73 at the
objects' scope; at the target V and `bad`, then `go`. -/
def barAccess (rel atTarget : Bool) (s : State) (w : Warp) (r : Run) (it : Item) (lanes : List Nat) (addr : Nat → Nat)
    (bad : State → Nat → Option Nat) (go : State → Run → State) : State :=
  let r0 := { r.arrived with bnd := none, released := false }
  let loc := fun l => poolLoc s w (addr l) 16
  let perform := fun s r =>
    match lanes.findSome? fun l =>
      if barV (barRead s (loc l).1 (loc l).2).1 then (bad s l).map fun k => (l, k) else some (l, 1) with
    | some (l, k) => barFault s w r0 (loc l) k l
    | none => go (onCur s (metTiles s lanes loc 16)) r
  match firstLane lanes fun l => poolReadCheck s w (addr l) 16 16 with
  | some (l, b) => laneFault s r0 it l b
  | none =>
    if atTarget then perform s r0
    else if r.transit then s
    else
      let send := fun s r => overCauseway false (poolCores s w lanes addr 16) s r fun _ => perform s r
      if rel then boundary s w r (objScopes s (lanes.map loc)) send else send s r

/-- Uses of an address and one more operand. -/
def barUses (a : Accept) (b : Use) (d : Use) : List Use := [.src .a vtCount a, b, .unused .c, d]

/-- BINIT's effect: the object holds Table 11.1's reset values (R237). -/
def binitDo (atTarget : Bool) (it : Item) (s : State) (w : Warp) (r : Run) : State :=
  let a := operand s w r it vtCount .a 0
  let b := operand s w r it vtCount .b 0
  let r := r.arrived
  if !guardU w it then finish s r it
  else
    match poolCheck s w a 16 16 true with
    | some bad => onceFault s r it bad
    | none =>
      let p := poolLoc s w a 16
      overCauseway atTarget [p.1] s r fun _ =>
        let s := { s with barSigs := s.barSigs.filter fun e => e.1 / 65536 != poolKey p.1 p.2 }
        finish (barWrite s p.1 p.2 (dw (b * 2 ^ 34 + 16 + it.m 54 52)) 0) r it

/-- BINIT: scope 2 to 6, arrivals 1 to 16383. -/
def binitOp (it : Item) (s : State) : Out :=
  issue it (fun s w r =>
    let b := operand s w r it vtCount .b 0
    { uses := barUses accSync (.src .b vtCount accSync) .dstNone
      bads := modOutside it 54 52 ++ opdBad (it.m 54 52 < 2 || it.m 54 52 = 7) 6 (it.m 54 52) ++
        opdBad (b = 0 || 16383 < b) 8 b }) s (binitDo false it)

/-- EXPECT's effect (R239). -/
def expectDo (atTarget : Bool) (it : Item) (s : State) (w : Warp) (r : Run) : State :=
  let a := operand s w r it vtCount .a 0
  let b := operand s w r it vtCount .b 0
  if !guardU w it then finish s r it
  else if let some bad := poolReadCheck s w a 16 16 then onceFault s { r.arrived with bnd := none, released := false } it bad
  else
    barAccess false atTarget s w r it [lowLane r.grp] (fun _ => a) (fun _ _ => none) fun s r =>
      let p := poolLoc s w a 16
      let (w0, w1) := barRead s p.1 p.2
      finish (flipCheck (barWrite s p.1 p.2 w0 (putFld w1 63 32 (barExpb w1 + b))) w.key p.1 p.2) r it

/-- EXPECT. -/
def expectOp (it : Item) (s : State) : Out :=
  issue it (fun _ _ _ =>
    { uses := barUses accSync (.src .b vtCount accSync) .dstNone, bads := modNone it }) s (expectDo false it)

/-- Count of an object's arrivals (R238): its lanes, or one with W. -/
def arriveCount (it : Item) (lanes : List Nat) (loc : Nat → Nat × Nat) (p : Nat × Nat) : Nat :=
  if it.mb 55 then 1 else (lanes.filter fun l => loc l == p).length

/-- The barrier-fault subcode of an arrival at an object (R238, Table 24.1) (DEDUCED, log entry 69). -/
def arriveBad (kind c : Nat) (w0 : DWord) : Option Nat :=
  if kind = 2 then (if 16383 < barPdelta w0 + c then some 3 else none)
  else if barExpa w0 < barArr w0 + c then some 2
  else if kind = 1 && decide (barPdelta w0 - c < -16384) then some 3
  else none

/-- An arrival at one object: its fields, the tokens of its lanes, FlipCheck (R238). -/
def arriveAt (it : Item) (k : CluKey) (lanes : List Nat) (loc : Nat → Nat × Nat) (s : State) (p : Nat × Nat) : State :=
  let c := arriveCount it lanes loc p
  let (w0, w1) := barRead s p.1 p.2
  let delta := fun (x : Int) => wrapInt 15 (barPdelta w0 + x)
  let w0' := match it.m 53 52 with
    | 2 => putFld w0 19 5 (delta c)
    | 1 => putFld (putFld w0 33 20 (barArr w0 + c)) 19 5 (delta (-c))
    | _ => putFld w0 33 20 (barArr w0 + c)
  let s := barWrite s p.1 p.2 w0' w1
  let mine := lanes.filter fun l => loc l == p
  let s := if it.mb 56 then s
    else onCur s fun w => mine.foldl (fun w l => vset w it.d l (w32 (barPhase w0))) w
  let s := if it.m 53 52 = 2 then s else addPhaseSigs s p.1 p.2 (barPhase w0) (mine.map (laneSig s.cur))
  flipCheck s k p.1 p.2

/-- ARRIVE's effect. -/
def arriveDo (atTarget : Bool) (it : Item) (s : State) (w : Warp) (r : Run) : State :=
  let act := lanesOf (activeLanes w r it)
  let addr := operand s w r it vtCount .a
  let loc := fun l => poolLoc s w (addr l) 16
  if act.isEmpty then finish s r it
  else
    barAccess true atTarget s w r it act addr
      (fun s l => arriveBad (it.m 53 52) (arriveCount it act loc (loc l)) (barRead s (loc l).1 (loc l).2).1)
      fun s r => finish (((act.map loc).eraseDups).foldl (arriveAt it w.key act loc) s) r it

/-- ARRIVE: ND leaves DST zero, W takes a uniform address, KIND 3 is reserved. -/
def arriveOp (it : Item) (s : State) : Out :=
  issue it (fun _ _ _ =>
    { uses := barUses (if it.mb 55 then accSync else accAny) (.unused .b) (if it.mb 56 then .dstNone else .dstV 1)
      bads := encBad (it.m 63 57 ≠ 0) 7 57 ++ encBad (it.mb 54) 7 54 ++ opdBad (it.m 53 52 = 3) 6 3 }) s (arriveDo false it)

/-- What WAITP returns at once for a token in a phase; none parks (R240). -/
def waitStatus (phase tok : Nat) : Option Nat :=
  let d := (phase + 2 ^ 16 - tok % 2 ^ 16) % 2 ^ 16
  if d = 1 then some (1 + phase * 2 ^ 16) else if 2 ≤ d && d ≤ 32767 then some (2 + phase * 2 ^ 16) else none

/-- WAITP's effect; it dooms an open transaction (R250). -/
def waitpDo (atTarget : Bool) (it : Item) (s : State) (w : Warp) (r : Run) : State :=
  let act := lanesOf (activeLanes w r it)
  let addr := operand s w r it vtCount .a
  let tok := fun l => operand s w r it vtCount .b l % 2 ^ 16
  let loc := fun l => poolLoc s w (addr l) 16
  if act.isEmpty then finish s r it
  else
    barAccess true atTarget (doom s 0x05) w r it act addr (fun _ _ => none) fun s r =>
      let obj := fun l => (barRead s (loc l).1 (loc l).2).1
      let st := fun l => waitStatus (barPhase (obj l)) (tok l)
      let back := act.filter fun l => (st l).isSome
      let rest := lanesFrom (act.filter fun l => (st l).isNone)
      let s := onCur s fun w => back.foldl (fun w l =>
        acquireAt (barScope (obj l)) false (phaseSigs s (loc l).1 (loc l).2 (tok l)) (1#32 <<< l) (vset w it.d l (w32 ((st l).getD 0)))) w
      let s := parkLanes s rest fun l =>
        { wait := .token (w32 (addr l)) (BitVec.ofNat 16 (tok l)), ft := dw (fallThrough r), dst := it.d, scope := barScope (obj l) }
      endWait s r it rest false

/-- WAITP. -/
def waitpOp (it : Item) (s : State) : Out :=
  issue it (fun _ _ _ => { uses := barUses accAny (.src .b vtCount accAny) (.dstV 1), bads := modNone it }) s (waitpDo false it)

/-- BTEST's effect: lanes whose token is complete acquire (R241). -/
def btestDo (atTarget : Bool) (it : Item) (s : State) (w : Warp) (r : Run) : State :=
  let act := lanesOf (activeLanes w r it)
  let addr := operand s w r it vtCount .a
  let tok := operand s w r it vtCount .b
  let loc := fun l => poolLoc s w (addr l) 16
  if act.isEmpty then finish s r it
  else
    barAccess false atTarget s w r it act addr (fun _ _ => none) fun s r =>
      let ok := fun l => tokenDone (barPhase (barRead s (loc l).1 (loc l).2).1) (tok l)
      let take := fun (w : Warp) l =>
        acquireAt (barScope (barRead s (loc l).1 (loc l).2).1) false (phaseSigs s (loc l).1 (loc l).2 (tok l % 2 ^ 16)) (1#32 <<< l) w
      let s := onCur s fun w => (act.filter ok).foldl take (act.foldl (fun w l => pset w it.d l (ok l)) w)
      finish s r it

/-- BTEST. -/
def btestOp (it : Item) (s : State) : Out :=
  issue it (fun _ _ _ =>
    { uses := barUses accAny (.src .b vtCount accAny) (.dstP false), bads := modNone it }) s (btestDo false it)

/-! Fences and hardware barriers. -/

/-- No operand is used. -/
def noUses : List Use := [.unused .a, .unused .b, .unused .c, .dstNone]

/-- FENCE (R242): the phase boundary at its scope. -/
def fenceOp (it : Item) (s : State) : Out :=
  issue it (fun _ _ _ =>
    { uses := noUses, bads := ptBads it ++ modOutside it 54 52 ++ opdBad (it.m 54 52 = 7) 6 7 }) s fun s w r =>
    boundary s w r [it.m 54 52] fun s r => finish (onCur s (acquireAt (it.m 54 52) true [] r.grp)) r it

/-- Scope of a domain's barrier (R35, R243): its hardware level's, or the natural one (DEDUCED, log entry 70). -/
def hwScope (lr : List DWord) (d natural : Nat) : Nat :=
  match levelsOf lr d with
  | i :: _ => recScope lr i
  | [] => natural

/-- Domain and natural scope of a hardware barrier: 0 CSYNC.block, 1 CSYNC, 2 DSYNC, 3 GSYNC. -/
def hwDom (kind : Nat) : Nat × Nat :=
  match kind with
  | 0 => (4, 2)
  | 1 => (3, 3)
  | 2 => (2, 4)
  | _ => (1, 5)

/-- Whether an engine command of the warp's core, or a credit of its cluster, is still under way (R81) (DEDUCED, log entry 71). -/
def coreEngines (s : State) (w : Warp) : Bool :=
  s.cmds.any (fun c => c.core == w.core) || s.credits.any fun c => c.ctx == w.ctx && c.clu == w.clu

/-- A hardware barrier's effect (R243): steps 1 to 3 of R73, the lanes park at their next instance. -/
def hwSyncDo (kind : Nat) (it : Item) (s : State) (w : Warp) (r : Run) : State :=
  let lr := recOf s w
  let sub := if kind = 2 && !hasDom lr 2 then 1 else if 2 ≤ kind && !recCoop lr then 2 else 0
  if sub ≠ 0 then preciseFault s r { cause := 0x62, info0 := sub, info1 := lowLane r.grp, aux := it.raw }
  else
    let s := doom s 0x05
    if 2 ≤ kind && coreEngines s w then s
    else
      let sc := hwScope lr (hwDom kind).1 (hwDom kind).2
      boundary s s.cur r [sc] fun s r =>
        let s := if kind < 2 then s
          else onCur s fun w => releasedWith (nset 0 [] (2 ^ 41 + w.core) s.order) r.grp [sc] s.order w
        let s := parkLanes s r.grp fun l =>
          { wait := .hw kind (nget 0 w.hwn (4 * l + kind)), ft := dw (fallThrough r), dst := 0, scope := sc }
        let s := onCur s fun w => { w with hwn := (lanesOf r.grp).foldl (fun m l => nset 0 m (4 * l + kind) (nget 0 m (4 * l + kind) + 1)) w.hwn }
        endWait s r it r.grp false

/-- CSYNC, with BLK CSYNC.block. -/
def csyncOp (it : Item) (s : State) : Out :=
  issue it (fun _ _ _ => { uses := noUses, bads := ptBads it ++ modOutside it 52 52 }) s
    (hwSyncDo (if it.mb 52 then 0 else 1) it)

/-- DSYNC and GSYNC. -/
def gridSyncOp (kind : Nat) (it : Item) (s : State) : Out :=
  issue it (fun _ _ _ => { uses := noUses, bads := ptBads it ++ modNone it }) s (hwSyncDo kind it)

/-- An instance of a hardware barrier: kind, launch, cluster or die index, block, instance number. -/
structure HwInst where
  kind : Nat
  ctx : Nat
  part : Nat
  bid : Nat
  inst : Nat
  deriving DecidableEq, Repr

/-- The instance that a lane's execution `inst` of a kind belongs to (R243). -/
def hwInst (s : State) (w : Warp) (kind inst : Nat) : HwInst :=
  let part := match kind with
    | 0 | 1 => w.clu
    | 2 => w.clu / max 1 (clustersPerDie (recOf s w))
    | _ => 0
  ⟨kind, w.ctx, part, if kind = 0 then w.bid else 0, inst⟩

/-- Instance numbers of a warp's lanes parked at hardware barriers: lane, kind, number. -/
def hwParked (w : Warp) : List (Nat × Nat × Nat) :=
  (lanesOf w.live).filterMap fun l =>
    match nget none w.park l with
    | some p => (match p.wait with | .hw k i => if p.ans.isNone then some (l, k, i) else none | _ => none)
    | none => none

/-- Every warp that is no handler, saved ones included (R244). -/
def threadWarps (s : State) : List Warp :=
  (s.allWarps ++ s.saved.flatMap (·.warps)).filter fun w => !w.handler && w.uid != 0

/-- The instances that some lane waits at. -/
def hwWaiting (s : State) : List HwInst :=
  ((threadWarps s).flatMap fun w => (hwParked w).map fun e => hwInst s w e.2.1 e.2.2).eraseDups

/-- Whether every live participant has arrived. -/
def hwComplete (s : State) (x : HwInst) : Bool :=
  ((findCtx s x.ctx).all fun c => decide (x.kind < 2) || c.granted == c.total) &&
  (threadWarps s).all fun w =>
    w.ctx != x.ctx || hwInst s w x.kind x.inst != x ||
      (lanesOf w.live).all fun l => (hwParked w).contains (l, x.kind, x.inst)

/-- The participants of an instance: their boundaries are the signals that each of them observes (Table 4.4). -/
def hwSigs (s : State) (x : HwInst) : List Sig :=
  (threadWarps s).flatMap fun w =>
    if w.ctx ≠ x.ctx || hwInst s w x.kind x.inst ≠ x then []
    else ((hwParked w).filter fun e => e.2 = (x.kind, x.inst)).map fun e => laneSig w e.1

/-- The lanes of a warp that wait at an instance return, acquiring at its scope. -/
def hwRelease (s : State) (x : HwInst) (gs : List Sig) (w : Warp) : Warp :=
  if w.handler || w.ctx ≠ x.ctx || hwInst s w x.kind x.inst ≠ x then w
  else (hwParked w).foldl (fun w e =>
    let sc := ((nget none w.park e.1).map (·.scope)).getD 2
    if e.2 = (x.kind, x.inst) then unpark (sigsView sc (laneSig w e.1) gs) w e.1 none else w) w

/-- HW_BARRIER_COMPLETE. -/
def hwBarrierComplete (n : Nat) (s : State) : State :=
  match ((hwWaiting s).filter (hwComplete s))[n]? with
  | none => s
  | some x =>
    let gs := hwSigs s x
    { mapWarps s (hwRelease s x gs) with
      saved := s.saved.map fun v => { v with warps := v.warps.map (hwRelease s x gs) } }

/-! Tide waits. -/

/-- CMP of TWAIT (Table 11.4). -/
def twCmp (it : Item) : Nat := it.m 58 56
/-- SCOPE of TWAIT. -/
def twScope (it : Item) : Nat := it.m 54 52

/-- The limits of Table 11.4 and R245. -/
def twaitSpec (it : Item) : Spec :=
  let vt := vtOf it.ty
  let isB := it.ty == 8 || it.ty == 9
  let c := twCmp it
  { uses := [.src .a (.int 64 false) accAny, .src .b vt { accAny with lit := false },
      if c = 6 then .src .c vt accAny else .unused .c, .dstV 1]
    bads := encBad (it.mb 55) 7 55 ++ encBad it.f.lit.isNone 10 0 ++
      opdBad (!([2, 6, 3, 7, 8, 9] : List Nat).contains it.ty) 5 it.ty ++
      opdBad (c = 7 || (isB && 2 ≤ c && c ≤ 5) || (!isB && c = 6)) 6 c ++
      opdBad (twScope it < 2 || twScope it = 7) 6 (twScope it)
    usesLit := true }

/-- A watch before it has an identity. -/
def watchOf (w : Warp) (tenant : Nat) (it : Item) (v : LaneVal) (pa : Nat) : Watch :=
  { id := 0, tenant := tenant, ctx := w.ctx, core := w.core, warp := w.uid, lanes := 0, va := dw v.va, pa := pa,
    width := tyBytes it.ty, cmp := twCmp it, signed := it.ty < 4, operand := dw v.data, mask := dw v.cmp,
    scope := twScope it, st := 0, answer := 0, deadline := none, cancel := false, insn := it.raw }

/-- clk at which a timeout given in microseconds has passed (R248). -/
def deadlineOf (s : State) (at0 timeout : Nat) : Option Nat :=
  if timeout = 0 then none else some (s.readyClk + (at0 + timeout) * Config.clkPerUs)

/-- Sending the watches of a TWAIT (R246): lanes with equal address, operand and mask form one, and park on it; `again` is the clause that
stands at it. -/
def sendWatches (s : State) (it : Item) (again : Option Run) (pc ft : DWord) (at0 : Nat) (lanes : List Nat)
    (loc : List (Nat × Option Nat × DWord)) (v : Nat → LaneVal) : State :=
  ((lanes.map v).eraseDups).foldl (fun s x =>
    let mine := lanes.filter fun l => v l == x
    let (id, s) := takeId s
    let pa := ((locOf loc (mine.headD 0)).1).getD 0
    let h : Watch := { watchOf s.cur (tenantOf s s.cur) it x pa with
      id := id, lanes := lanesFrom mine, pc := pc, deadline := deadlineOf s at0 (it.f.lit.getD 0).toNat
      gen := irtBank s (coreShelf s.cur.core) = 1, again := again }
    let s := parkLanes s (lanesFrom mine) fun _ => { wait := .tide id, ft := ft, dst := it.d, scope := twScope it }
    { s with watches := s.watches ++ [h] }) s

/-- Parking a TWAIT in the operand log (R245): its lanes stay parked at it. -/
def twaitPark (s : State) (r : Run) (it : Item) (act : List Nat) (v : Nat → LaneVal) (lane : Nat) (watch : Bool) : State :=
  parkAccess s r it act v lane (v lane).va 0 [] (fun e => { e with at0 := r.begun - 1, again := some r }) fun s =>
    let src := ((s.cur.olog.getLast?).map (·.src)).getD 0
    let s := parkLanes s (lanesFrom act) fun _ =>
      { wait := .tide src, ft := dw (fallThrough r), dst := it.d, scope := twScope it }
    endWait s r it (lanesFrom act) watch

/-- A lane whose watch lies in the host or peer window (cause 0x26). -/
def watchHostBad (loc : List (Nat × Option Nat × DWord)) (va : Nat → Nat) (l : Nat) : Option LaneBad :=
  match (locOf loc l).1 with
  | none => none
  | some pa =>
    match paKind pa with
    | .host => some ⟨0x26, 1, dw (va l), 1⟩
    | .peer => some ⟨0x26, 2, dw (va l), 1⟩
    | _ => none

/-- Satisfied on entry, at once. -/
def twaitReturn (s : State) (r : Run) (it : Item) (act : List Nat) (watch : Bool) : State :=
  let s := onCur s fun w => act.foldl (fun w l => acquireAt (twScope it) false [] (1#32 <<< l) (vset w it.d l 1)) w
  endWait s r it 0 watch

/-- TWAIT's effect from its translation on (R245, R246). On a discarded page the watches compare with zero; a mixture of
discarded and other pages parks as a write would (DEDUCED, log entry 29). -/
def twaitLook (it : Item) (act : List Nat) (v : Nat → LaneVal) (watch : Bool) (s : State) (r : Run) : State :=
  let w := s.cur
  let n := tyBytes it.ty
  let va := fun l => (v l).va
  match translateLanes s w act (fun l => globalCheck (va l) n) va .read 1 true with
  | (.fault l b, s) => laneFault s r it l b
  | (.park l _, s) => twaitPark s r it act v l watch
  | (.ok loc, s) =>
    match firstLane act (watchHostBad loc va), act.find? fun l => ((locOf loc l).1).isNone with
    | some (l, b), _ => laneFault s r it l b
    | none, some l =>
      if act.all fun l => ((locOf loc l).1).isNone && watchHolds (watchOf w 0 it (v l) 0) 0 then twaitReturn s r it act watch
      else twaitPark s r it act v l watch
    | none, none =>
      endWait (sendWatches s it (some r) r.pc (dw (fallThrough r)) (r.begun - 1) act loc v) r it (lanesFrom act) watch

/-- TWAIT's effect; it dooms an open transaction (R250), and its timeout counts from its issue (R248). -/
def twaitDo (it : Item) (s : State) (w : Warp) (r : Run) : State :=
  let act := lanesOf (activeLanes w r it)
  let vt := vtOf it.ty
  let v := fun l => (⟨operand s w r it (.int 64 false) .a l, operand s w r it vt .b l,
    if twCmp it = 6 then operand s w r it vt .c l else 0⟩ : LaneVal)
  let watch := dataWatch s w act false true false (fun l => (v l).va) (tyBytes it.ty)
  if act.isEmpty then finish s r it
  else
    let r := if r.begun = 0 then { r with begun := (timeOf s).toNat + 1 } else r
    let s := onCur (doom s 0x05) fun w => { w with run := some r }
    boundary s s.cur r [twScope it] (twaitLook it act v watch)

/-- TWAIT. -/
def twaitOp (it : Item) (s : State) : Out := issue it (fun _ _ _ => twaitSpec it) s (twaitDo it)

/-- Replacing a watch. -/
def putWatch (s : State) (x : Watch) : State := { s with watches := s.watches.map fun y => if y.id == x.id then x else y }

/-- Removing a watch. -/
def dropWatch (s : State) (id : Nat) : State := { s with watches := s.watches.filter fun y => y.id != id }

/-- Watches of a slice in a state. -/
def watchCount (s : State) (slice st : Nat) : Nat :=
  (s.watches.filter fun x => x.st == st && homeSlice s (coreShelf x.core) x.pa == slice).length

/-- A watch that cannot be kept (R382, R391): it goes, its lanes stand unparked at the TWAIT, which they execute again when they go on,
and the fault is recorded. -/
def watchFault (s : State) (x : Watch) (rep : Report) : State :=
  let s := dropWatch s x.id
  match findWarp s x.warp with
  | none => s
  | some w =>
    let w := { w with
      park := (lanesOf x.lanes).foldl (fun m l => nset none m l none) w.park
      paused := w.paused ++ (x.again.map fun r => { r with grp := x.lanes, begun := 0, bnd := none, released := false }).toList }
    deferFault (putWarp s w) w
      { rep with pc := x.pc.toNat, lanes := x.lanes, addr := x.va, asp := 1, info1 := lowLane x.lanes, aux := if 0x80 ≤ rep.cause then 0 else x.insn }

/-- WATCH_REGISTER: a watch is handled whole at its home (R246). -/
def watchRegister (n : Nat) (s : State) : State :=
  match (s.watches.filter fun x => x.st == 0)[n]? with
  | none => s
  | some x =>
    let slice := homeSlice s (coreShelf x.core) x.pa
    if (lineOf s x.pa).locked || drainHolds s (coreShelf x.core) x.gen x.pa then s
    else if x.warp ≠ 0 && poisonedAt s x.pa x.width then watchFault s x { cause := 0x82, info0 := 2 }
    else if watchHolds x (homeNat s x.pa x.width) then
      putWatch s { x with st := 3, answer := 1, sig := homeSigs s x.pa x.width, set := setSeen s x.pa x.width s.order }
    else if watchCount s slice 1 < Config.tideEntries then putWatch s { x with st := 1 }
    else if watchCount s slice 2 < Config.spillEntries then putWatch s { x with st := 2 }
    else if x.warp = 0 then putWatch s { x with st := 4 }
    else watchFault s x { cause := 0x63, info0 := slice }

/-- The cluster of a saved warp becomes runnable (R249); one that is already waits on as it did. -/
def markRunnable (s : State) (ctx : Nat) : State :=
  if (findCtx s ctx).all (·.runnable) then s else
  { s with
    ctxs := s.ctxs.map fun c => if c.id == ctx then { c with runnable := true } else c
    saved := s.saved.map fun v => if v.ctx == ctx then { v with wait := s.clk } else v }

/-- A dependence watch's answer (R278): the dependence is met, or is watched again. -/
def dependenceAnswer (s : State) (x : Watch) : State :=
  if 1 < x.answer then putWatch s { x with st := 4 }
  else
    { dropWatch s x.id with
      ctxs := s.ctxs.map fun c => if c.id == x.ctx then { c with deps := c.deps.filter fun j => j != x.lanes.toNat } else c }

/-- An answer reaches the lanes of its warp: a satisfied wait acquires what the value's writers released, and the write set that the
value is of (Table 4.4, R85). -/
def answerLanes (x : Watch) (w : Warp) : Warp :=
  (lanesOf x.lanes).foldl (fun w l =>
    unpark (if x.answer ≤ 1 then joinView (sigsView x.scope (laneSig w l) x.sig) x.set else []) w l (some (w32 x.answer))) w

/-- An answer reaches its warp; one of a watch that met poison is the TWAIT's fault (R382). -/
def deliverAnswer (s : State) (x : Watch) (w : Warp) : State :=
  if x.answer = 5 then watchFault s x { cause := 0x82, info0 := 2 } else putWarp (dropWatch s x.id) (answerLanes x w)

/-- WATCH_ANSWER: an answer reaches its lanes (R248); one for a saved context is held with it (R249). -/
def watchAnswer (n : Nat) (s : State) : State :=
  match (s.watches.filter fun x => x.st == 3)[n]? with
  | none => s
  | some x =>
    if x.warp = 0 then dependenceAnswer s x
    else
      match findWarp s x.warp with
      | some w => deliverAnswer s x w
      | none => if (threadWarps s).any fun w => w.uid == x.warp then markRunnable s x.ctx else dropWatch s x.id

/-- TWAIT_TIMEOUT: the core sends a cancel (R248) (DEDUCED, log entry 67). -/
def twaitTimeout (n : Nat) (s : State) : State :=
  match (s.watches.filter fun x => !x.cancel && (x.deadline.any fun d => decide (d ≤ s.clk)))[n]? with
  | none => s
  | some x => putWatch s { x with cancel := true }

/-- WATCH_CANCEL: the home answers timeout, unless it has answered already (R248). -/
def watchCancel (n : Nat) (s : State) : State :=
  match (s.watches.filter fun x => x.cancel && (x.st == 1 || x.st == 2))[n]? with
  | none => s
  | some x => putWatch s { x with st := 3, answer := 2 }

/-! Transactions (R250, R251). -/

/-- XBEGIN: TX role (R130); a nested one dooms. -/
def xbeginOp (it : Item) (s : State) : Out :=
  issue it (fun s w _ => { uses := noUses, bads := modNone it ++ roleBads s w 2 }) s fun s w r =>
    if !guardU w it then finish s r it
    else if w.txn.isOpen then finish (doom s 0x07) r it
    else finish { s with cur := { w with txn := { isOpen := true }, xcause := 0 } } r it

/-- The write set of a warp's transaction. -/
def writeSet (s : State) (w : Warp) : List Stage := s.staging.filter fun e => e.txn == w.uid

/-- Applying a write set: one place in the coherence order (R85); a line's version advances for each entry. -/
def applySet (s : State) (w : Warp) : State :=
  let es := writeSet s w
  let s := { s with staging := s.staging.filter fun e => e.txn != w.uid }
  let who := fun a => ((es.find? fun e => e.pa == a / 64 * 64 && e.mask.getLsbD (a % 64)).map fun e => nget [] e.who (a % 64)).getD []
  let s := { s with sets := s.order :: s.sets }
  let s := applyWriteBad w.core who (es.flatMap (·.badSectors)) s (es.flatMap (·.writes))
  let lines := es.map fun e => e.pa / 256
  let more := fun (s : State) (k : Nat) =>
    { s with ver := nset 0 s.ver k (nget 0 s.ver k + BitVec.ofNat 16 ((lines.filter (· == k)).length - 1)) }
  (lines.eraseDups).foldl more s

/-- Entries of the core that are older than the write set and hold bytes of it, and have not been applied: they come first (R71, R76). -/
def aheadOfSet (s : State) (w : Warp) : List Stage :=
  (List.range s.staging.length).filterMap fun i =>
    match s.staging[i]? with
    | some e =>
      if e.core == w.core && e.txn == 0 && !e.applied &&
          (s.staging.drop i).any fun x => x.txn == w.uid && x.pa == e.pa && x.mask &&& e.mask != 0 then some e else none
    | none => none

/-- Whether an atomic of the core is still bound for the line of an entry of a write set: it comes first (R60, R76). -/
def atomicBefore (s : State) (e : Stage) : Bool :=
  s.reqs.any fun q => q.core == e.core && q.groups.any fun g => g.pa / 256 == e.pa / 256

/-- Closing the transaction: cause, result, acquire. -/
def closeTxn (s : State) (r : Run) (it : Item) (cause : Option Nat) (p : Bool) : State :=
  let s := onCur s fun w =>
    let w := { w with txn := {}, xcause := (cause.map fun c => BitVec.ofNat 8 c).getD w.xcause }
    acquireAt 5 false [] r.grp ((lanesOf r.grp).foldl (fun w l => pset w it.d l p) w)
  finish s r it

/-- The write set applied: XEND is a release boundary at .device for it (Table 4.3). -/
def commitSet (s : State) (w : Warp) (r : Run) : State :=
  let s := applySet s w
  onCur s (released r.grp [5] s.order)

/-- XEND's effect. Lines that another agent holds make it wait; poison in the read set fails it (R382) (DEDUCED, log entry 66). -/
def xendDo (it : Item) (s : State) (w : Warp) (r : Run) : State :=
  if !guardU w it then finish s r it
  else if !w.txn.isOpen then closeTxn s r it (some 0x0B) false
  else if w.txn.doomed then closeTxn s r it none false
  else
    let es := writeSet s w
    let reads := w.txn.reads
    let discard := { s with staging := s.staging.filter fun e => e.txn != w.uid }
    if anyLocked s (es.map (·.pa) ++ reads.map fun e => e.1 * 256) || anyHeld s (es.map (·.pa)) || es.any (atomicBefore s) then s
    else if !(aheadOfSet s w).isEmpty then
      let first := aheadOfSet s w
      { s with staging := s.staging.map fun e => if first.contains e then startPublish s e.freeLevel e else e }
    else
      match reads.find? fun e => poisonedAt s (e.1 * 256) 256 with
      | some e =>
        let s := closeTxn discard r it (some 0x08) false
        deferFault s s.cur { cause := 0x82, pc := r.pc.toNat, lanes := r.grp, addr := dw (nget 0 w.txn.vas e.1), asp := 1, info0 := 7,
                             info1 := lowLane r.grp, aux := it.raw }
      | none =>
        if reads.all fun e => nget 0 s.ver e.1 == e.2 then closeTxn (commitSet s w r) r it (some 0x01) true
        else closeTxn discard r it (some 0x02) false

/-- XEND: TX role. -/
def xendOp (it : Item) (s : State) : Out :=
  issue it (fun s w _ =>
    { uses := [.unused .a, .unused .b, .unused .c, .dstP false], bads := modNone it ++ roleBads s w 2 }) s (xendDo it)

/-- XABORT: a user code from 0 to 255. It is no instruction of the TX kind: it needs no role bit (DESIGN CHOICE, log entry 135). -/
def xabortOp (it : Item) (s : State) : Out :=
  issue it (fun s w r =>
    let a := operand s w r it vtCount .a 0
    { uses := [.src .a vtCount accSync, .unused .b, .unused .c, .dstNone], bads := modNone it ++ opdBad (255 < a) 8 a }) s
    fun s w r =>
      let a := operand s w r it vtCount .a 0
      if !guardU w it || !w.txn.isOpen then finish s r it
      else
        finish { s with
          staging := s.staging.filter fun e => e.txn != w.uid
          cur := { w with txn := {}, xcause := 0x0A, xuser := BitVec.ofNat 8 a } } r it

/-- BINIT (R237). -/
def execBinit (f : Long) (s : State) : Out := binitOp (longItem 0x1A0 true f) s

/-- ARRIVE (R238). -/
def execArrive (f : Long) (s : State) : Out := arriveOp (longItem 0x1A1 false f) s

/-- EXPECT (R239). -/
def execExpect (f : Long) (s : State) : Out := expectOp (longItem 0x1A2 true f) s

/-- WAITP (R240). -/
def execWaitp (f : Long) (s : State) : Out := waitpOp (longItem 0x1A3 false f) s

/-- BTEST (R241). -/
def execBtest (f : Long) (s : State) : Out := btestOp (longItem 0x1A4 false f) s

/-- FENCE (R242). -/
def execFence (f : Long) (s : State) : Out := fenceOp (longItem 0x1A5 false f) s

/-- CSYNC and CSYNC.block (R243). -/
def execCsync (f : Long) (s : State) : Out := csyncOp (longItem 0x1A6 false f) s

/-- DSYNC (R243). -/
def execDsync (f : Long) (s : State) : Out := gridSyncOp 2 (longItem 0x1A7 false f) s

/-- GSYNC (R243). -/
def execGsync (f : Long) (s : State) : Out := gridSyncOp 3 (longItem 0x1A8 false f) s

/-- TWAIT (R245 to R248). -/
def execTwait (f : Long) (s : State) : Out := twaitOp (longItem 0x1A9 false f) s

/-- XBEGIN (R250). -/
def execXbegin (f : Long) (s : State) : Out := xbeginOp (longItem 0x1AA true f) s

/-- XEND (R251). -/
def execXend (f : Long) (s : State) : Out := xendOp (longItem 0x1AB true f) s

/-- XABORT (R251). -/
def execXabort (f : Long) (s : State) : Out := xabortOp (longItem 0x1AC true f) s

/-- HW_BARRIER_COMPLETE (R243): complete instance `n` of those waited at: its lanes return. -/
def execHwBarrierComplete (n : Nat) (s : State) : Out := .next (hwBarrierComplete n s)

/-- WATCH_REGISTER (R246): watch `n` of those on their way. -/
def execWatchRegister (n : Nat) (s : State) : Out := .next (watchRegister n s)

/-- WATCH_ANSWER (R248, R249): answer `n` of those on their way. -/
def execWatchAnswer (n : Nat) (s : State) : Out := .next (watchAnswer n s)

/-- TWAIT_TIMEOUT (R248): watch `n` of those whose timeout has passed. -/
def execTwaitTimeout (n : Nat) (s : State) : Out := .next (twaitTimeout n s)

/-- WATCH_CANCEL (R248): cancel `n` of those on their way. -/
def execWatchCancel (n : Nat) (s : State) : Out := .next (watchCancel n s)

end Sys2Proof.Machine
end

