-- ==== Sys2Proof/Machine/System.lean ====
section
/-! DEFINITION. System and trap instructions, EXIT and LAUNCH (R140, R143, R254 to R257). -/

namespace Sys2Proof.Machine

/-! RDSR and WRSR (R254). -/

/-- RDSR's number: SRN, or A's direct code in the short form. -/
def rdsrNum (it : Item) : Nat := if it.isShort then it.f.a.toNat - 0x1E0 else it.m 60 52

/-- The short form's A is a special register's direct code; any other is an illegal operand (R125). -/
def rdsrShortOk (it : Item) : Bool := 0x1E0 ≤ it.code .a && it.code .a < 0x1FF

/-- RDSR, and RDSR.u where `u`: written when its guard holds in some lane of the group (DEDUCED, log entry 30). -/
def rdsrOp (it : Item) (s : State) : Out :=
  let n := rdsrNum it
  let u := !it.isShort && it.mb 63
  let k := srWidth n / 32
  issue it (fun s w _ =>
    { uses := (if it.isShort then [] else [.unused .a]) ++ [.unused .b, .unused .c, if u then .dstS k else .dstV k]
      bads := (if it.isShort then opdBad (!rdsrShortOk it) 1 (it.code .a) else encBad (it.m 62 61 ≠ 0) 7 61) ++
        opdBad (srWidth n = 0 || (u && !srUniform (recOf s w) n)) 11 n }) s fun s w r =>
    let act := activeLanes w r it
    let val := fun l => (srRead s w l n).toNat
    let w' := if u then (if act = 0 then w else sputNat w (k == 2) it.d (val (lowLane act)))
      else (lanesOf act).foldl (fun w l => vputNat w (k == 2) it.d l (val l)) w
    finish { s with cur := w' } r it

/-- Whether a value may be written to a special register: sr.part refuses a reserved tile size (R26). -/
def srValueOk (n x : Nat) : Bool := n != 0x1B || (1 ≤ x % 8 && x % 8 ≤ 5)

/-- Writing a warp's special register; reserved bits read zero. -/
def srWrite (w : Warp) (n x : Nat) : Warp :=
  match n with
  | 0x1B => { w with part := w32 (x % 8) }
  | 0x1C => { w with vcnt := w32 (x % 2 ^ 16) }
  | 0x20 => { w with rseed := w32 x }
  | _ => w

/-- WRSR. -/
def wrsrOp (it : Item) (s : State) : Out :=
  let n := it.m 60 52
  issue it (fun s w r =>
    let x := operand s w r it (.bits 32) .a 0
    { uses := [.src .a (.bits 32) (if srPerThread n then accAny else accUni), .unused .b, .unused .c, .dstNone]
      bads := encBad (it.m 63 61 ≠ 0) 7 61 ++ opdBad (srWidth n = 0 || !srWritable n) 11 n ++
        opdBad (!srValueOk n x) 11 x }) s fun s w r =>
    let act := activeLanes w r it
    let val := fun l => operand s w r it (.bits 32) .a l
    let w' := if srPerThread n then { w with rctr := (lanesOf act).foldl (fun m l => nset 0 m l (w32 (val l))) w.rctr }
      else if act = 0 then w
      else srWrite w n (val (lowLane act))
    finish { s with cur := w' } r it

/-! TRAP and BPT (R255). -/

/-- A software trap stops the lanes whose guard holds, at the next slot. -/
def softTrap (cause : Nat) (it : Item) (s : State) (w : Warp) (r : Run) : State :=
  let act := activeLanes w r it
  let r' := advance r it
  let r' := if r'.body.isEmpty then { r' with pc := dw (fallThrough r) } else r'
  if act = 0 then finish s r it else takeTrap s { cause := cause, pc := r'.pc.toNat, lanes := act } r.grp (some r')

/-- TRAP n, n from 0 to 31. -/
def trapOp (it : Item) (s : State) : Out :=
  let acc : Accept := { v := false, s := false, latch := false, sr := false }
  issue it (fun s w r =>
    let n := operand s w r it vtCount .a 0
    { uses := [.src .a vtCount acc, .unused .b, .unused .c, .dstNone], bads := modNone it ++ opdBad (31 < n) 8 n }) s
    fun s w r => softTrap (0xE0 + operand s w r it vtCount .a 0) it s w r

/-- BPT. -/
def bptOp (it : Item) (s : State) : Out :=
  issue it (fun _ _ _ => { uses := noUses, bads := modNone it }) s (softTrap 0xC1 it)

/-! The handler's instructions (R256, R257). -/

/-- Outside the handler slot they are illegal operands, subcode 10. -/
def handlerBads (w : Warp) : List Bad := opdBad (!w.handler) 10 0

/-- TRET: steps 1 to 3 of R73 at .block; a lane whose PC was rewritten to no clause header makes TRET an illegal target
(R106); the handler ends and the trapped warp resumes. -/
def tretDo (it : Item) (s : State) (w : Warp) (r : Run) : State :=
  boundary s w r [2] fun s r =>
    match findWarp s w.serves with
    | none => dropHandler s w
    | some tw =>
      let moved := ((tw.trap.map (·.moved)).getD 0) &&& tw.live
      let tgt := fun l => nget 0 tw.pc l
      match firstBadTarget tgt (lanesOf moved) s with
      | (some (l, k), s) => targetFault s r it (tgt l) l k
      | (none, s) => resumeTrap (dropHandler s w) tw

/-- TRET. -/
def tretOp (it : Item) (s : State) : Out :=
  issue it (fun _ w _ => { uses := noUses, bads := ptBads it ++ modNone it ++ handlerBads w }) s (tretDo it)

/-- Class and index of an item selector (Table 11.9). -/
def itemClass (a : Nat) : Nat := bitsN a 15 12
/-- Index. -/
def itemIdx (a : Nat) : Nat := bitsN a 11 0

/-- Indices of a class; 0 for a reserved one. -/
def itemCount (c : Nat) : Nat :=
  match c with
  | 0 => 256
  | 1 => 128
  | 4 | 6 => 2
  | 8 => 128
  | 9 => 64
  | 10 => 8
  | 2 | 3 | 5 | 7 => 1
  | _ => 0

/-- The trapped warp of a handler. -/
def servedBy (s : State) (w : Warp) : Warp := (findWarp s w.serves).getD {}

/-- Refused selectors (R256): a register beyond the trapped kernel's counts; a reserved class, an index out of range, a
write to a read-only item (DEDUCED, log entry 74). They are judged in the handler slot alone: elsewhere subcode 10 says all. -/
def itemBads (s : State) (w : Warp) (a : Nat) (wr : Bool) : List Bad :=
  let c := itemClass a
  let i := itemIdx a
  let tw := servedBy s w
  if !w.handler then [] else
  opdBad ((c = 0 && vlim s tw ≤ i && i < 256) || (c = 1 && slim s tw ≤ i && i < 128)) 3 a ++
    opdBad (itemCount c ≤ i || (wr && c = 9)) 8 a

/-- Half `h` of a 64-bit word. -/
def halfOf (x : DWord) (h : Nat) : Word := w32 (x.toNat / 2 ^ (32 * h))

/-- Replacing half `h`. -/
def putHalf (x : DWord) (h : Nat) (v : Word) : DWord :=
  putFld x (32 * h + 31) (32 * h) v.toNat

/-- Thread state of a lane (Table 11.9, class 5). -/
def threadState (w : Warp) (l : Nat) : Word :=
  let bit := fun (b : Bool) n => if b then 2 ^ n else 0
  w32 (bit (lon w.live l) 0 + bit (lon ((w.trap.map (·.stopped)).getD 0) l) 1 + bit ((nget none w.park l).isSome) 2 +
    bit (lon w.dbg l) 3)

/-- A word of an operand-log entry (Table 14.7). -/
def logWord (e : LogEntry) (i : Nat) : Word :=
  match i with
  | 0 => w32 (2 ^ 31 + e.st % 4 * 2 ^ 29 + e.seq.toNat * 32 + e.lane % 32)
  | 1 => halfOf e.insn 0
  | 2 => halfOf e.insn 1
  | 3 => e.lit
  | 4 => e.mask
  | 5 => halfOf e.va 0
  | 6 => halfOf e.va 1
  | 7 => halfOf e.pc 0
  | 8 => halfOf e.pc 1
  | 9 => halfOf e.pay 0
  | 10 => halfOf e.pay 1
  | _ => 0

/-- The clause of a trapped lane: the one that its trap stopped, or one that stepping has broken off (R318, R119). -/
def trappedRun (w : Warp) (l : Nat) : Option Run :=
  (w.trap.bind (·.run)).or (w.paused.find? fun r => lon r.grp l)

/-- What a latch holds in a lane, where it holds something. -/
def keptLatch (w : Warp) (j l : Nat) : Option DWord :=
  (trappedRun w l).bind fun r => (latchOf r j).bind fun x => if x.uni || lon r.grp l then some (x.at l) else none

/-- The value of an item for lane `l` of the trapped warp; a latch that holds nothing there is a free value
(DEDUCED, log entry 76). -/
def itemRead (s : State) (tw : Warp) (a l : Nat) : Word × State :=
  let i := itemIdx a
  match itemClass a with
  | 0 => (vget tw i l, s)
  | 1 => (sget tw i, s)
  | 2 => ((nget 0 tw.p l).setWidth 32, s)
  | 3 => (tw.q.setWidth 32, s)
  | 4 => (halfOf (nget 0 tw.pc l) i, s)
  | 5 => (threadState tw l, s)
  | 6 => (halfOf ((nget none tw.hint l).getD 0) i, s)
  | 7 => (tw.part, s)
  | 8 => (((blockOf s tw).map fun b => w32 ((nget 0 b.conv (i / 8)).toNat / 2 ^ (32 * (i % 8)))).getD 0, s)
  | 9 => (((tw.olog.find? fun e => e.ent == i / 16).map fun e => logWord e (i % 16)).getD 0, s)
  | _ =>
    match keptLatch tw (i / 2) l with
    | some x => (halfOf x (i % 2), s)
    | none => let (x, s) := draw s; (halfOf x 0, s)

/-- RDTR. -/
def rdtrOp (it : Item) (s : State) : Out :=
  issue it (fun s w r =>
    { uses := [.src .a vtCount accSync, .unused .b, .unused .c, .dstV 1]
      bads := modNone it ++ itemBads s w (operand s w r it vtCount .a 0) false ++ handlerBads w }) s fun s w r =>
    let a := operand s w r it vtCount .a 0 % 2 ^ 16
    let tw := servedBy s w
    finish ((lanesOf (activeLanes w r it)).foldl (fun s l =>
      let (x, s) := itemRead s tw a l
      onCur s fun w => vset w it.d l x) s) r it

/-- Whether an item belongs to the warp rather than to each lane. -/
def itemWide (tw : Warp) (a : Nat) : Bool :=
  let c := itemClass a
  c == 1 || c == 3 || c == 7 || c == 8 ||
    (c == 10 && (((tw.trap.bind (·.run)).or tw.paused.head?).bind fun r => latchOf r (itemIdx a / 2)).any (·.uni))

/-- Removing a lane from the watch that it waits on (R248): it writes no status. -/
def leaveWatch (s : State) (uid l : Nat) : State :=
  let out := s.watches.map fun x => if x.warp == uid && uid != 0 then { x with lanes := x.lanes &&& ~~~ (1#32 <<< l) } else x
  { s with watches := out.filter fun x => x.warp != uid || uid == 0 || x.lanes != 0 }

/-- Writing a latch half of the trapped clause. -/
def latchWrite (tw : Warp) (i l : Nat) (x : Word) : Warp :=
  let put := fun (r : Run) =>
    let old := (latchOf r (i / 2)).getD { uni := false, vals := [] }
    let k := if old.uni then 0 else l
    { r with lat := nset none r.lat (i / 2) (some { old with
        vals := nset 0 old.vals k (putHalf (nget 0 old.vals k) (i % 2) x)
        bad := old.bad.filter (· != 2 * k + i % 2) }) }
  if (tw.trap.bind (·.run)).isSome then { tw with trap := tw.trap.map fun t => { t with run := t.run.map put } }
  else { tw with paused := tw.paused.map fun r => if lon r.grp l then put r else r }

/-- Writing an item of lane `l` of a trapped warp. A lane whose PC is written leaves its wait and its clause
(DEDUCED, log entry 77). -/
def itemWrite (s : State) (uid a l : Nat) (x : Word) : Option State :=
  match findWarp s uid with
  | none => some s
  | some tw =>
    let i := itemIdx a
    let put := fun w => some (putWarp s w)
    match itemClass a with
    | 0 => put (vset tw i l x)
    | 1 => put (sset tw i x)
    | 2 => put { tw with p := nset 0 tw.p l (x.setWidth 7), parity := tw.parity.filter fun m => m.1 != 2 || m.2.2 != l }
    | 3 => put { tw with q := x.setWidth 7, parity := tw.parity.filter fun m => m.1 != 4 }
    | 4 =>
      let tw := { tw with
        pc := nset 0 tw.pc l (putHalf (nget 0 tw.pc l) i x)
        park := nset none tw.park l none
        paused := (tw.paused.map fun r => { r with grp := r.grp &&& ~~~ (1#32 <<< l) }).filter fun r => r.grp != 0
        trap := tw.trap.map fun t => { t with moved := t.moved ||| (1#32 <<< l) } }
      some (leaveWatch (putWarp s tw) uid l)
    | 5 => put { tw with dbg := if x.getLsbD 3 then tw.dbg ||| (1#32 <<< l) else tw.dbg &&& ~~~ (1#32 <<< l) }
    | 6 => put { tw with hint := nset none tw.hint l (some (putHalf ((nget none tw.hint l).getD 0) i x)) }
    | 7 => put (srWrite tw 0x1B x.toNat)
    | 8 =>
      (match findBlock s tw.ctx tw.clu tw.bid with
       | none => some s
       | some b =>
         let old := nget 0 b.conv (i / 8)
         let sh := 2 ^ (32 * (i % 8))
         let new : BitVec 256 := BitVec.ofNat 256 (old.toNat - old.toNat / sh % 2 ^ 32 * sh + x.toNat * sh)
         checkRound (convPut s b (i / 8) (convFields new)) tw.ctx tw.clu tw.bid (i / 8) none)
    | 10 => put (latchWrite tw i l x)
    | _ => some s

/-- WRTR: a warp-wide item takes the lowest active handler lane's value. It waits while a round that it would close waits
for the column store (R197). -/
def wrtrDo (it : Item) (s : State) (w : Warp) (r : Run) : State :=
  let a := operand s w r it vtCount .a 0 % 2 ^ 16
  let act := lanesOf (activeLanes w r it)
  let lanes := if itemWide (servedBy s w) a then act.take 1 else act
  let out := lanes.foldl (fun acc l => acc.bind fun s' => itemWrite s' w.serves a l (w32 (operand s w r it (.bits 32) .b l))) (some s)
  match out with
  | none => s
  | some s => finish s r it

/-- Values of sr.part that WRTR refuses, in the lowest active lane (R26). -/
def wrtrPart (s : State) (w : Warp) (r : Run) (it : Item) : List Bad :=
  let x := operand s w r it (.bits 32) .b (lowLane (activeLanes w r it))
  opdBad (w.handler && itemClass (operand s w r it vtCount .a 0) = 7 && !srValueOk 0x1B x) 11 x

/-- WRTR. -/
def wrtrOp (it : Item) (s : State) : Out :=
  issue it (fun s w r =>
    { uses := [.src .a vtCount accSync, .src .b (.bits 32) accAny, .unused .c, .dstNone]
      bads := modNone it ++ itemBads s w (operand s w r it vtCount .a 0) true ++ handlerBads w ++ wrtrPart s w r it }) s
    (wrtrDo it)

/-- Fields that BAREDIT names (R257): word, top and low bit; flags are V, ERR and SCOPE. -/
def barField (f : Nat) : Bool × Nat × Nat :=
  match f with
  | 0 => (false, 63, 48)
  | 1 => (false, 47, 34)
  | 2 => (false, 33, 20)
  | 3 => (false, 19, 5)
  | 4 => (true, 63, 32)
  | 5 => (true, 31, 0)
  | _ => (false, 4, 0)

/-- BAREDIT's effect: steps 1 to 3 of R73 at the object's scope, whose release the waiters of a phase that it completes acquire, the
field, FlipCheck (DEDUCED, log entry 73). -/
def bareditDo (atTarget : Bool) (it : Item) (s : State) (w : Warp) (r : Run) : State :=
  let a := operand s w r it vtCount .a 0
  let b := operand s w r it vtCount .b 0
  let r0 := { r.arrived with bnd := none, released := false }
  let p := poolLoc s w a 16
  let perform := fun s r =>
    let (w0, w1) := barRead s p.1 p.2
    let s := addPhaseSigs s p.1 p.2 (barPhase w0) [laneSig s.cur (lowLane r.grp)]
    let (hiWord, hi, lo) := barField (it.m 54 52)
    let old := if hiWord then w1 else w0
    let new := putFld old hi lo (if it.mb 55 then fld old hi lo + b else b)
    let s := if hiWord then barWrite s p.1 p.2 w0 new else barWrite s p.1 p.2 new w1
    finish (flipCheck s w.key p.1 p.2) r it
  if !guardU w it then finish s r it
  else
    match poolReadCheck s w a 16 16 with
    | some bad => onceFault s r0 it bad
    | none =>
      if atTarget then perform s r0
      else if r.transit then s
      else boundary s w r (objScopes s [p]) fun s r => overCauseway false [p.1] s r fun _ => perform s r

/-- BAREDIT. -/
def bareditOp (it : Item) (s : State) : Out :=
  issue it (fun _ w _ =>
    { uses := barUses accSync (.src .b vtCount accSync) .dstNone
      bads := encBad (it.m 63 56 ≠ 0) 7 56 ++ opdBad (it.m 54 52 = 7) 6 7 ++ handlerBads w }) s (bareditDo false it)

/-! EXIT (R140). -/

/-- Lanes of a warp that are no longer live: their hints, waits and pending writes go, and their sets are left (R216). -/
def exitLanes (s : State) (w : Warp) (lanes : Lanes) : Option State :=
  let ls := lanesOf lanes
  let w' := { w with
    live := w.live &&& ~~~ lanes
    hint := ls.foldl (fun m l => nset none m l none) w.hint
    park := ls.foldl (fun m l => nset none m l none) w.park
    pend := (w.pend.map fun p => { p with lanes := p.lanes &&& ~~~ lanes }).filter fun p => p.lanes != 0 }
  let s := putWarp s w'
  let s := { s with products := s.products.map fun q =>
    if q.warp == w.uid then { q with vals := q.vals.filter fun e => !lon lanes (e.1 % 32) } else q }
  if w.handler then some s else leaveSets s w' lanes

/-- The end of a handler by EXIT: its trap's record goes to system software with HND set (R313, R350). -/
def handlerExit (s : State) (h : Warp) : State :=
  let s := dropHandler s h
  match findWarp s h.serves with
  | none => s
  | some w =>
    match w.trap with
    | none => s
    | some t =>
      let ws := listSet t.record 0 (wordAt t.record 0 ||| dw (2 ^ 11))
      eqAppend (putWarp s { w with trap := some { t with phase := 2 } }) (reportQueue ws) ws

/-- EXIT's effect. -/
def exitDo (it : Item) (s : State) (w : Warp) (r : Run) : State :=
  let act := activeLanes w r it
  let ft := dw (fallThrough r)
  match exitLanes s w act with
  | none => s
  | some s =>
    if w.handler && s.cur.live = 0 then handlerExit s s.cur
    else afterStops (endClause s (advance r it) fun _ => ft) r false false

/-- EXIT. -/
def exitOp (it : Item) (s : State) : Out := issue it (fun _ _ _ => emptySpec it true) s (exitDo it)

/-! LAUNCH (R143 to R145). -/

/-- Slots of a launch queue: 2^(LSZ+1) (R275). -/
def queueSlots (s : State) (i : Nat) : Nat := 2 ^ (fld (pkgReg s 0x20 i) 3 0 + 1)

/-- Whether a queue is enabled; LSZ 15 keeps it disabled (Table 13.1). -/
def queueOn (s : State) (i : Nat) : Bool := fbit (pkgReg s 0x22 i) 63 && fld (pkgReg s 0x20 i) 3 0 != 15

/-- Records that a queue holds (R276). -/
def queueCount (s : State) (i : Nat) : Nat :=
  let x := pkgReg s 0x21 i
  (fld x 47 32 + 2 ^ 16 - fld x 15 0) % 2 ^ 16

/-- Virtual address of the slot of an index (R276). -/
def slotVa (s : State) (i idx : Nat) : Nat := fld (pkgReg s 0x20 i) 59 8 * 256 + 256 * (idx % queueSlots s i)

/-- What AppendToQueue gives: a status, a wait for the slot's page, or a wait for a held line. -/
inductive Append where
  | status (d : Nat) (s : State)
  | park (va : Nat) (s : State)
  | hold

/-- The test of q and AppendToQueue (R143, R276). -/
def appendRecord (s : State) (core tenant q : Nat) (img : List Byte) : Append :=
  let i := 8 * tenant + q
  if 7 < q || !queueOn s i then .status 2 s
  else if queueSlots s i ≤ queueCount s i then .status 1 s
  else
    let va := slotVa s i (fld (pkgReg s 0x21 i) 47 32)
    match translate s (coreShelf core) tenant va .write 1 with
    | (.ok pa _, s) =>
      if anyLocked s [pa] || anyHeld s [pa] then .hold
      else
        let x := pkgReg s 0x21 i
        .status 0 (pkgPut (applyWrite s (atAddr pa img)) 0x21 i (putFld x 47 32 (fld x 47 32 + 1)))
    | (.park why, s) => if 4 ≤ why || inTransit s tenant (va / 65536) then .park va s else .status 2 s
    | (_, s) => .status 2 s

/-- The status of a LAUNCH of warp `uid` is written. -/
def launchStatus (it : Item) (d : Nat) (w : Warp) : Warp := sset w it.d (w32 d)

/-- The four 64-byte parts of a record image (DEDUCED, log entry 80). -/
def imageLanes : List Nat := [0, 1, 2, 3]

/-- The bytes of the image at their homes. -/
def imageBytes (s : State) (loc : List (Nat × Option Nat × DWord)) : List Byte :=
  imageLanes.flatMap fun i =>
    match (locOf loc i).1 with
    | some pa => homeBytes s pa 64
    | none => List.replicate 64 0

/-- Reading them there: misses fill the sectors that they ask for (R55). -/
def imageFill (s : State) (loc : List (Nat × Option Nat × DWord)) : State :=
  (loc.filterMap (·.2.1)).foldl (fun s pa => fillBytes s pa 64) s

/-- Parking a LAUNCH: its status register stays pending and its counter raised (R120, R300). -/
def launchPark (s : State) (r : Run) (it : Item) (a q va : Nat) (img : List Byte) : State :=
  let lane := lowLane r.grp
  parkAccess s r it [lane] (fun _ => ⟨a, q, 0⟩) lane va it.dc [] (fun e => { e with mask := r.grp, img := img }) fun s =>
    let src := ((s.cur.olog.getLast?).map (·.src)).getD 0
    finish (onCur s fun w => { w with pend := w.pend ++ [⟨r.grp, 1, it.d, src⟩] }) r it

/-- LAUNCH's effect. -/
def launchDo (it : Item) (s : State) (w : Warp) (r : Run) : State :=
  let a := operand s w r it (.int 64 false) .a 0
  let q := operand s w r it vtCount .b 0
  if !guardU w it then finish s r it
  else if dcFull w it.dc then s
  else
    boundary s w r [5] fun s r =>
      match translateLanes s w imageLanes (fun i => globalCheck (a + 64 * i) 64) (fun i => a + 64 * i) .read 1 true with
      | (.fault _ b, s) => laneFault s r it 0 b
      | (.park _ va, s) => launchPark s r it a q va []
      | (.ok loc, s) =>
        if anyLocked s (loc.filterMap (·.2.1)) then s
        else
          let img := imageBytes s loc
          match appendRecord (imageFill s loc) w.core (tenantOf s w) q img with
          | .hold => s
          | .status d s => finish (onCur s (launchStatus it d)) r it
          | .park va s => launchPark s r it a q va img

/-- LAUNCH: DLAUNCH role; A an s pair, B an s register, constant or literal. -/
def launchOp (it : Item) (s : State) : Out :=
  issue it (fun s w _ =>
    { uses := [.src .a (.int 64 false) accS, .src .b vtCount { accSync with latch := false }, .unused .c, .dstS 1]
      bads := dcBads it ++ modZero it 60 52 ++ roleBads s w 5 }) s (launchDo it)

/-- RDSR (R254). -/
def execRdsr (f : Long) (s : State) : Out := rdsrOp (longItem 0x1C0 false f) s

/-- WRSR (R254). -/
def execWrsr (f : Long) (s : State) : Out := wrsrOp (longItem 0x1C1 false f) s

/-- TRAP (R255). -/
def execTrap (f : Long) (s : State) : Out := trapOp (longItem 0x1C2 false f) s

/-- BPT (R255). -/
def execBpt (f : Long) (s : State) : Out := bptOp (longItem 0x1C3 false f) s

/-- TRET (R256, R313, R314). -/
def execTret (f : Long) (s : State) : Out := tretOp (longItem 0x1C4 false f) s

/-- RDTR (R256). -/
def execRdtr (f : Long) (s : State) : Out := rdtrOp (longItem 0x1C5 false f) s

/-- WRTR (R256). -/
def execWrtr (f : Long) (s : State) : Out := wrtrOp (longItem 0x1C6 false f) s

/-- BAREDIT (R257). -/
def execBaredit (f : Long) (s : State) : Out := bareditOp (longItem 0x1C7 true f) s

/-- EXIT (R140). -/
def execExit (f : Long) (s : State) : Out := exitOp (longItem 0x005 false f) s

/-- LAUNCH (R143). -/
def execLaunch (f : Long) (s : State) : Out := launchOp (longItem 0x009 true f) s

/-- RDSR, short: the register is A's direct code. -/
def execRdsrShort (f : Short) (s : State) : Out := rdsrOp (shortItem 0x3D false 0x0 f) s

/-- EXIT, short. -/
def execExitShort (f : Short) (s : State) : Out := exitOp (shortItem 0x3F false 0x0 f) s

end Sys2Proof.Machine
end

