-- ==== Sys2Proof/Machine/Names.lean ====
section
/-! DEFINITION. The v and s registers that an item of a clause reads or writes (R120), known before it issues. No
instruction leaves a write of a predicate pending. -/

namespace Sys2Proof.Machine

/-- The leading operand fields with their types. -/
def nameSrcs (ts : List VT) : List Use :=
  (List.range ts.length).map fun i => .src (fieldsOf.getD i .a) (ts.getD i vtCount) accAny

/-- A result register or pair of type `t`. -/
def nameDst (u : Bool) (t : VT) : Use := if u then .dstS (if t.pair then 2 else 1) else .dstV (if t.pair then 2 else 1)

/-- Branches: 0 literal target, 1 register target; `link` writes the return address (R139). -/
def controlUses (it : Item) : Nat → List Use
  | 1 => nameSrcs [.int 64 false]
  | 2 => [nameDst (it.mb 52) (.int 64 false)]
  | 3 => nameSrcs [.int 64 false] ++ [nameDst (it.mb 52) (.int 64 false)]
  | 4 => nameSrcs [.int 64 false]
  | 9 => nameSrcs [.int 64 false, vtCount] ++ [.dstS 1]
  | _ => []

/-- The uniform group, in the order of OPC[4:0]. -/
def uniformUses (it : Item) (i : Nat) : List Use :=
  let t := vtOf it.ty
  match i with
  | 0 => nameSrcs [t] ++ [nameDst true t]
  | 4 => nameSrcs [t, t, t] ++ [nameDst true t]
  | 8 | 9 | 10 => nameSrcs [t, vtCount] ++ [nameDst true t]
  | 11 => nameSrcs [t, t]
  | 13 => nameSrcs [vtCount, vtCount] ++ [.dstS (if it.ty = 9 then 2 else 1)]
  | _ => nameSrcs [t, t] ++ [nameDst true t]

/-- Width of LOP3: MOD[60] (Table 7.1). -/
def lop3VT (it : Item) : VT := .bits (if it.mb 60 then 64 else 32)

/-- The integer group. -/
def integerUses (it : Item) (i : Nat) : List Use :=
  let t := vtOf it.ty
  match i with
  | 1 => nameSrcs [t, t, t] ++ [nameDst false t]
  | 5 | 10 => nameSrcs [t, t, t] ++ [.dstV 1]
  | 6 => nameSrcs [t, t, .int 64 false] ++ [.dstV 2]
  | 9 | 18 => nameSrcs [t] ++ [nameDst false t]
  | 11 | 12 | 13 | 19 => nameSrcs [t, vtCount] ++ [nameDst false t]
  | 14 => nameSrcs [vtCount, vtCount, vtCount] ++ [.dstV 1]
  | 15 => if it.isShort then nameSrcs [vtCount, vtCount] ++ [.dstV 1]
      else nameSrcs [lop3VT it, lop3VT it, lop3VT it] ++ [nameDst false (lop3VT it)]
  | 16 | 17 => nameSrcs [t] ++ [.dstV 1]
  | 20 => nameSrcs [t, t, vtCount] ++ [nameDst false t]
  | 21 => nameSrcs [t, t]
  | _ => nameSrcs [t, t] ++ [nameDst false t]

/-- The address and predicate group; PLOP names predicates only. -/
def addressUses (it : Item) : Nat → List Use
  | 0 => nameSrcs [vtCount, vtCount] ++ [.dstV 1]
  | 1 => nameSrcs [vtCount, .int 64 false] ++ [.dstV 2]
  | 2 => nameSrcs [vtOf it.ty]
  | 4 => if it.mb 59 then nameSrcs [vtCount] else [nameDst it.uni vtCount]
  | _ => []

/-- The FP32 group. -/
def fp32Uses (it : Item) : Nat → List Use
  | 2 => nameSrcs [vtCount, vtCount, vtCount] ++ [.dstV 1]
  | 5 => nameSrcs [vtCount, vtCount]
  | 6 => nameSrcs [vtOf it.ty, vtCount]
  | 7 => nameSrcs [vtOf it.ty] ++ [nameDst false (vtOf it.ty)]
  | 8 => nameSrcs [vtOf it.ty, vtCount] ++ [nameDst false (vtOf it.ty)]
  | _ => nameSrcs [vtCount, vtCount] ++ [.dstV 1]

/-- The packed-half and FP64 group. -/
def packedUses (it : Item) (i : Nat) : List Use :=
  let t := vtOf it.ty
  match i with
  | 2 | 6 => nameSrcs [t, t, t] ++ [nameDst false t]
  | 7 => nameSrcs [t, t]
  | _ => nameSrcs [t, t] ++ [nameDst false t]

/-- The conversion and special-function group. -/
def conversionUses (it : Item) (i : Nat) : List Use :=
  let t := vtOf it.ty
  match i with
  | 0 => nameSrcs [vtOf (if it.isShort then 0x0B else it.code .b % 32)] ++ [nameDst false t]
  | 1 => nameSrcs [vtCount] ++ [.dstV 1] ++ (if opx0 it then [.vgrp .c 1 1] else [])
  | 2 => nameSrcs [vtCount] ++ [.dstV 1] ++ (if it.code .b < 0x100 then [.vgrp .b 8 8] else [])
  | _ => nameSrcs [t] ++ [nameDst false t]

/-- The lane group. -/
def laneUses (it : Item) (i : Nat) : List Use :=
  let t := vtOf it.ty
  match i with
  | 0 => nameSrcs [t] ++ [nameDst false t]
  | 1 => [.vgrp .a 1 1, .src .b vtCount accAny, .dstV 1]
  | 2 => nameSrcs [t, t, t] ++ [.dstV 1]
  | 3 => nameSrcs ([t, vtCount] ++ if it.mb 55 then [t] else []) ++ [nameDst false t]
  | 4 => (if it.m 53 52 = 3 then [.dstV 1] else []) ++ optV it
  | 5 | 6 | 7 => nameSrcs [t] ++ [.dstV 1]
  | 8 => nameSrcs [t] ++ optV it ++ [nameDst false t]
  | 9 => nameSrcs [t] ++ [nameDst false t]
  | _ => nameSrcs [vtCount]

/-- The pool group. -/
def poolGroupUses (it : Item) (i : Nat) : List Use :=
  match i with
  | 0 | 2 => poolUses it ++ [.dstData (regsOf (accBytes it (ldsQ it))) 1]
  | 1 => poolUses it ++ [.dstData (ldsmN it) 1]
  | 3 => atomUses it ++ [.dstData (regsOf (tyBytes it.mty)) 1]
  | _ => atomUses it

/-- The global group. -/
def globalGroupUses (it : Item) (i : Nat) : List Use :=
  let atom := [.src .a (.int 64 false) accMem, .src .b vtCount accMem, .src .c (vtOf it.mty) accMem]
  match i with
  | 0 => globalUses ++ [.dstData (regsOf (stgBytes it)) 1]
  | 1 => atom ++ [.dstData (regsOf (tyBytes it.mty)) 1]
  | 2 => atom
  | _ => nameSrcs [.int 64 false, vtCount, vtCount]

/-- The engine group: A and B; TOWN A and its result; PREFT no A. -/
def engineUses (i : Nat) : List Use :=
  match i with
  | 5 => nameSrcs [vtCount] ++ [.dstV 1]
  | 4 => [.src .b vtCount accAny]
  | _ => nameSrcs [vtCount, vtCount, vtCount]

/-- The DRAM-side and attention group. -/
def dramUses (i : Nat) : List Use :=
  match i with
  | 0 => nameSrcs [vtOf 7]
  | 1 => nameSrcs [vtOf 7, vtOf 7]
  | _ => nameSrcs [vtCount, vtCount, vtCount]

/-- The matrix and chain group; a CHRUN's inputs are those of the chain its slot holds. -/
def matrixUses (s : State) (w : Warp) (it : Item) (i : Nat) : List Use :=
  match i with
  | 0 => [.vgrp .a (mmaNa it + (if mmaMx it then 1 else 0)) 4, .src .b vtCount accAny,
      (if it.code .c = 0x1C0 then .src .c vtCount accAny else .vgrp .c (mmaN it) 4), .dstData (mmaN it) 4]
  | 1 => nameSrcs [vtCount, vtCount, vtCount]
  | 2 | 4 => nameSrcs [vtCount]
  | 5 =>
    if it.f.form then []
    else (chrIns.take (chNin (chrChain s w it))).map (fun x => .src x vtCount accAny) ++ [.dstData 1 1]
  | 6 => [.src .b vtCount accAny]
  | _ => []

/-- The synchronisation group. -/
def syncUses (it : Item) (i : Nat) : List Use :=
  let t := vtOf it.ty
  match i with
  | 0 | 2 | 4 => nameSrcs [vtCount, vtCount]
  | 1 => nameSrcs [vtCount] ++ (if it.mb 56 then [] else [.dstV 1])
  | 3 => nameSrcs [vtCount, vtCount] ++ [.dstV 1]
  | 9 => nameSrcs ([.int 64 false, t] ++ if twCmp it = 6 then [t] else []) ++ [.dstV 1]
  | 12 => nameSrcs [vtCount]
  | _ => []

/-- The system group. -/
def systemUses (it : Item) (i : Nat) : List Use :=
  match i with
  | 0 =>
    let k := srWidth (rdsrNum it) / 32
    [if !it.isShort && it.mb 63 then .dstS k else .dstV k]
  | 5 => nameSrcs [vtCount] ++ [.dstV 1]
  | 6 | 7 => nameSrcs [vtCount, vtCount]
  | 1 | 2 => nameSrcs [vtCount]
  | _ => []

/-- The uses of a long opcode's fields that name registers. -/
def opcUses (s : State) (w : Warp) (it : Item) (opc : Nat) : List Use :=
  let i := opc % 32
  match opc / 32 with
  | 0 => controlUses it i
  | 1 => uniformUses it i
  | 2 => integerUses it i
  | 3 => addressUses it i
  | 4 => fp32Uses it i
  | 5 => packedUses it i
  | 6 => conversionUses it i
  | 7 => laneUses it i
  | 8 => poolGroupUses it i
  | 9 => globalGroupUses it i
  | 10 => engineUses i
  | 11 => dramUses i
  | 12 => matrixUses s w it i
  | 13 => syncUses it i
  | 14 => systemUses it i
  | _ => []

/-- Registers of a range that an instruction names beside its fields. -/
def opcRange (s : State) (w : Warp) (it : Item) (opc : Nat) : List (Nat × Nat) :=
  let k := 4
  if opc = 0x0C2 && 0x100 ≤ it.code .b && it.code .b < 0x180 then (List.range 8).map fun j => (1, it.code .b - 0x100 + j)
  else if opc = 0x0E1 then
    ((List.range 32).filter fun n => decide (it.code .a + n < vlim s w)).map fun n => (0, it.code .a + n)
  else if opc = 0x140 then engineRegs it (if it.mb 58 then 5 else 4)
  else if opc = 0x181 then engineRegs it (if (mmaLit it).testBit 17 then 5 else 4)
  else if opc = 0x142 then if it.f.form then engineRegs it k else [(1, it.d)]
  else if 0x141 ≤ opc && opc ≤ 0x144 then engineRegs it k
  else if opc = 0x160 || opc = 0x161 then [(1, it.d)]
  else if opc = 0x162 then engineRegs it 2
  else if opc = 0x163 then []
  else if opc = 0x185 then (if it.f.form then [(1, it.d)] else []) ++ chrRegs it
  else if opc = 0x186 then (engineRegs it k).drop 1
  else []

/-- The long opcode and modifiers that a short form stands for (Table 6.11). -/
def shortOpc (sop : Nat) : Nat × Nat :=
  ([(0x008, 0), (0x0E0, 0x400), (0x040, 0x100), (0x042, 0x100), (0x043, 0x100), (0x044, 0x100), (0x044, 0x300), (0x047, 0x100),
    (0x048, 0x100), (0x047, 0x300), (0x048, 0x300), (0x049, 0x100), (0x04B, 0x400), (0x04C, 0x300), (0x04D, 0x100), (0x04F, 0x088),
    (0x04F, 0x0EE), (0x04F, 0x066), (0x050, 0x400), (0x051, 0x400), (0x052, 0x400), (0x080, 0x580), (0x081, 0x580), (0x083, 0x580),
    (0x084, 0x580), (0x0C3, 0x580), (0x0C4, 0x580), (0x0C5, 0x580), (0x0C6, 0x580), (0x0C7, 0x580), (0x0CA, 0x580), (0x0A0, 0x600)] ++
   [(0x0A1, 0x600), (0x0A0, 0x680), (0x0A1, 0x680), (0x0A4, 0x500), (0x0A5, 0x500), (0x0C0, 0x580), (0x0C0, 0x110), (0x0C0, 0x680),
    (0x0C0, 0x580), (0x100, 0x080), (0x100, 0x090), (0x102, 0x080), (0x102, 0x090), (0x0E3, 0x400), (0x0E3, 0x401), (0x0E3, 0x402),
    (0x0E3, 0x403), (0x0E5, 0x100), (0x0E5, 0x120), (0x020, 0x400), (0x021, 0x100), (0x022, 0x100), (0x023, 0x100), (0x025, 0x400),
    (0x026, 0x400), (0x027, 0x400), (0x028, 0x400), (0x029, 0x300), (0x02D, 0x400), (0x1C0, 0), (0x007, 0), (0x005, 0)]).getD sop (8, 0)

/-- Opcode and fields of an item of a clause. -/
def itemFields (ws : List Word) : Nat × Item :=
  let w := ws.headD 0
  if lengthCode w = 0 then
    let sop := (w.extractLsb' 2 6).toNat
    let p := shortOpc sop
    (p.1, shortItem sop (p.1 / 32 == 1) p.2 (shortFields w))
  else
    let f := longFields w (ws.getD 1 0) (if lengthCode w = 2 then some (ws.getD 2 0) else none)
    let opc := opcOf w
    let u := opc / 32 == 1 || (opc == 0x062 && f.md.getLsbD 0) || ((opc == 0x063 || opc == 0x064) && f.md.getLsbD 8)
    (opc, longItem opc u f)

/-- Registers that an item reads or writes (R120) (DEDUCED, log entry 31). -/
def itemRegs (s : State) (w : Warp) (ws : List Word) : List (Nat × Nat) :=
  let e := itemFields ws
  (opcUses s w e.2 e.1).flatMap (useRegs e.2) ++ opcRange s w e.2 e.1

end Sys2Proof.Machine
end

