-- ==== Sys2Proof/Machine/Clause.lean ====
section
/-! DEFINITION. The issue slot: groups, clauses, the active set, the handler slot (R21 to R24, R104 to R110, R284, R285, R312). -/

namespace Sys2Proof.Machine

/-! The structural check (R107 to R110). -/

/-- The items that a body begins with, at most `n`, by the length codes of their first parcels. -/
def splitItems : Nat → List Word → List (List Word)
  | 0, _ => []
  | _ + 1, [] => []
  | n + 1, w :: t => (w :: t).take (itemParcels w) :: splitItems n ((w :: t).drop (itemParcels w))

/-- First parcel of an item. -/
def itemHead (ws : List Word) : Word := ws.headD 0

/-- Whether a long opcode is assigned (Table 6.10). -/
def opcAssigned (opc : Nat) : Bool := ((longGroups[opc / 32]?).map fun g => decide (opc % 32 < g.length)).getD false

/-- CLASS of a group of long opcodes (Table 6.10). -/
def groupClass (g : Nat) : Nat :=
  match g with
  | 0 | 14 => 7
  | 1 => 2
  | 8 | 9 => 3
  | 10 | 11 => 5
  | 12 => 4
  | 13 => 6
  | _ => 1

/-- CLASS of a short opcode, that of its long equivalent (Table 6.11); NOP stands in any. -/
def shortClass (sop : Nat) : Option Nat :=
  if sop = 0 then none
  else if 0x29 ≤ sop && sop ≤ 0x2C then some 3
  else if 0x33 ≤ sop && sop ≤ 0x3C then some 2
  else if 0x3D ≤ sop then some 7
  else some 1

/-- CLASS of an item, none where it may stand in any clause (NOP, an unassigned opcode, R357); and whether it is one of the
uniform predicate forms that class 2 admits (R155). -/
def itemClassOf (ws : List Word) : Option Nat × Bool :=
  let w := itemHead ws
  if lengthCode w = 0 then (shortClass (bitsN w.toNat 7 2), false)
  else
    let opc := opcOf w
    let hi := (ws.getD 1 0).toNat
    let uni := (opc = 0x062 && hi.testBit 20) || ((opc = 0x063 || opc = 0x064) && hi.testBit 28)
    if opc = 0x008 || !opcAssigned opc then (none, false) else (some (groupClass (opc / 32)), uni)

/-- Whether an item is clause-final (Table 6.3). -/
def itemFinal (ws : List Word) : Bool :=
  let w := itemHead ws
  if lengthCode w = 0 then bitsN w.toNat 7 2 = 0x3E || bitsN w.toNat 7 2 = 0x3F
  else ([0x000, 0x001, 0x002, 0x003, 0x004, 0x005, 0x007, 0x180, 0x1A3, 0x1A6, 0x1A7, 0x1A8, 0x1A9, 0x1C4] : List Nat).contains (opcOf w)

/-- Whether an item may stand in a clause of a class; `last` says that it is the last. -/
def classOk (cls : Nat) (last : Bool) (ws : List Word) : Bool :=
  match itemClassOf ws with
  | (none, _) => true
  | (some k, uni) => k == cls || (cls == 2 && uni) || (last && k == 7)

/-- Header defects found before the body is read (R110): row 1, then row 4 (DEDUCED, log entry 79). -/
def headerRow (hdr : DWord) : Option Nat :=
  if fld hdr 63 26 ≠ 0 then some 1
  else if fld hdr 11 6 = 0 || 48 < fld hdr 11 6 then some 4
  else none

/-- Body defects in the order of R110: rows 5, 2, 3, 6, 7. -/
def bodyRow (hdr : DWord) (body : List Word) : Option Nat :=
  let n := fld hdr 5 2 + 1
  let plen := fld hdr 11 6
  let cls := fld hdr 14 12
  let items := splitItems n body
  if items.any fun ws => lengthCode (itemHead ws) = 3 then some 5
  else if (items.foldl (fun k ws => k + itemParcels (itemHead ws)) 0) ≠ plen then some 2
  else if items.length ≠ n then some 3
  else if (items.take (n - 1)).any itemFinal then some 6
  else if cls ≠ 0 && !((items.take (n - 1)).all (classOk cls false) && (items.drop (n - 1)).all (classOk cls true)) then some 7
  else none

/-! Fetch (R105). -/

/-- Fetching `n` parcels: the parcels, or why the first one that cannot be fetched is not (Table 22.1). -/
def fetchParcels (core ten : Nat) : Nat → Nat → State → Except FetchBad (List Word) × State
  | 0, _, s => (.ok [], s)
  | n + 1, va, s =>
    match codeParcel s core ten (va % 2 ^ 60) with
    | (.error k, s) => (.error k, s)
    | (.ok w, s) =>
      match fetchParcels core ten n (va + 4) s with
      | (.ok ws, s) => (.ok (w :: ws), s)
      | (.error e, s) => (.error e, s)

/-- What fetching a clause gives. -/
inductive Fetched where
  | clause (hdr : DWord) (body : List Word)
  /-- A parcel that cannot be fetched. -/
  | page (b : FetchBad)
  /-- No header stands there (R106). -/
  | noHeader
  /-- Malformed: the row, the header (R110). -/
  | malformed (row : Nat) (hdr : DWord)
  deriving DecidableEq, Repr

/-- Fetching and checking the clause at an address (R105, R106, R110) (DEDUCED, log entry 115). -/
def fetchClause (s : State) (core ten va : Nat) : Fetched × State :=
  match fetchParcels core ten 2 va s with
  | (.error b, s) => (.page b, s)
  | (.ok ws, s) =>
    let w0 := ws.getD 0 0
    let hdr := dw (w0.toNat + (ws.getD 1 0).toNat * 2 ^ 32)
    if lengthCode w0 ≠ 3 then (.noHeader, s)
    else
      match headerRow hdr with
      | some row => (.malformed row hdr, s)
      | none =>
        match fetchParcels core ten (fld hdr 11 6) (va + 8) s with
        | (.error b, s) => (.page b, s)
        | (.ok body, s) =>
          match bodyRow hdr body with
          | some row => (.malformed row hdr, s)
          | none => (.clause hdr body, s)

/-! When a clause may begin (R107, R120). -/

/-- Whether a clause waits for pending writes of its group (R120); a lane operation's are those of any lane (R168). -/
def clauseBlocked (s : State) (w : Warp) (grp : Lanes) (items : List (List Word)) : Bool :=
  !w.pend.isEmpty && items.any fun ws =>
    let rs := itemRegs s w ws
    let lane := (itemFields ws).1 / 32 = 7
    w.pend.any fun p => rs.contains (p.kind, p.reg) && (lane || p.kind == 1 || p.kind == 3 || p.lanes &&& grp != 0)

/-- Whether WAIT holds the clause: a selected counter is not zero (R107). -/
def waitHolds (w : Warp) (hdr : DWord) : Bool :=
  (List.range 6).any fun j => fbit hdr (15 + j) && nget 0 w.dc (j + 1) != 0

/-! The issue group (R21 to R24, R141). -/

/-- Lanes that carry the same hint. -/
def sameHint (w : Warp) (h : DWord) : List Nat := (lanesOf w.live).filter fun l => nget none w.hint l == some h

/-- Whether a lane is held at its hint (R23, R141): its PC is the hint, some live thread with the hint is elsewhere, and
fewer than 32 slots have passed. -/
def heldLane (w : Warp) (l : Nat) : Bool :=
  match nget none w.hint l with
  | none => false
  | some h =>
    nget 0 w.pc l == h && decide (nget 0 w.heldFor l < 32) && !(sameHint w h).all fun k => nget 0 w.pc k == h

/-- Lanes that wait for no one (R21). -/
def freeLane (w : Warp) (l : Nat) : Bool := lon w.live l && (nget none w.park l).isNone

/-- Eligible lanes of a warp that is between clauses. -/
def eligibleLanes (w : Warp) : List Nat :=
  if w.trap.isSome || w.run.isSome then [] else (lanesOf w.live).filter fun l => freeLane w l && !heldLane w l

/-- Issue slots since any of the threads at an address last issued (R23). -/
def pcCount (w : Warp) (ls : List Nat) (pc : DWord) : Nat :=
  ((ls.filter fun l => nget 0 w.pc l == pc).map fun l => nget 0 w.age l).foldl min (2 ^ 32)

/-- The program counter selected: the largest count, then the lowest waiting lane (R23). R23 counts from the latest issue of any thread
at a program counter, so that arrivals could keep an older thread there waiting beyond the 64 slots of R24: a thread that has waited 32
slots goes first, the oldest before the others (DEDUCED, log entry 138). -/
def selectPc (w : Warp) : Option DWord :=
  let ls := eligibleLanes w
  let oldest := ls.foldl (fun m l => max m (nget 0 w.age l)) 0
  if 32 ≤ oldest then (ls.find? fun l => nget 0 w.age l == oldest).map fun l => nget 0 w.pc l else
  let pcs := (ls.map fun l => nget 0 w.pc l).eraseDups
  let best := pcs.foldl (fun m pc => max m (pcCount w ls pc)) 0
  pcs.find? fun pc => pcCount w ls pc == best

/-- The group at an address. -/
def groupAt (w : Warp) (pc : DWord) : Lanes := lanesFrom ((eligibleLanes w).filter fun l => nget 0 w.pc l == pc)

/-- A granted issue slot passes (R23): the group's count restarts, held lanes come nearer to release. -/
def slotPasses (w : Warp) (grp : Lanes) : Warp :=
  let held := (lanesOf w.live).filter (heldLane w)
  { w with
    age := (lanesOf w.live).foldl (fun m l => nset 0 m l (if lon grp l then 0 else nget 0 m l + 1)) w.age
    heldFor := held.foldl (fun m l => nset 0 m l (nget 0 m l + 1)) w.heldFor
    yielded := false }

/-- The group issues the clause at its address: hints there are cleared (R141). -/
def reachHint (w : Warp) (pc : DWord) (grp : Lanes) : Warp :=
  { w with hint := (lanesOf grp).foldl (fun m l => if nget none m l == some pc then nset none m l none else m) w.hint }

/-! The active set (R284, R285). -/

/-- Congestion level of a core: the highest received in the last 4,096 sclk (R285). -/
def congestion (s : State) (core : Nat) : Nat :=
  s.congest.foldl (fun m e => if e.1 / 4096 = core && s.clk ≤ e.2.2 + Config.sclk 4096 then max m e.2.1 else m) 0

/-- Cap of an active set by level. -/
def activeCap (s : State) (core : Nat) : Nat :=
  match congestion s core with
  | 0 => 8
  | 1 => 6
  | 2 => 4
  | _ => 2

/-- Warps of a quadrant, its handler apart. -/
def quadWarps (s : State) (core quad : Nat) : List Warp :=
  s.allWarps.filter fun w => w.core == core && w.quad == quad && !w.handler && w.uid != 0

/-- Warps of the active set. -/
def activeWarps (s : State) (core quad : Nat) : List Warp := (quadWarps s core quad).filter (·.active)

/-- The clause that stepping has broken off at an address, where eligible lanes of its group stand there (R318). -/
def pausedAt (w : Warp) (pc : DWord) : Option Run := w.paused.find? fun r => r.pc == pc && (r.grp &&& groupAt w pc) != 0

/-- Whether a warp between clauses has an eligible thread and a clause ready to begin; one that cannot be fetched is ready to stop its
group. -/
def clauseReady (s : State) (w : Warp) : Bool :=
  w.run.isNone && match selectPc w with
    | none => false
    | some pc =>
      (pausedAt w pc).isSome ||
      match (fetchClause s w.core (tenantOf s w) pc.toNat).1 with
      | .clause hdr body => !(waitHolds w hdr || clauseBlocked s w (groupAt w pc) (splitItems 16 body))
      | _ => true

/-- Whether a warp meets a long-latency dependence: no eligible thread (R38), a next clause that waits on a dependency counter
(R284), or an access that holds for a log entry or payload slot (R376). -/
def longWait (s : State) (w : Warp) : Bool :=
  (w.run.any fun r => r.slotSince != 0) || w.run.isNone && match selectPc w with
    | none => true
    | some pc =>
      (pausedAt w pc).isNone &&
      match (fetchClause s w.core (tenantOf s w) pc.toNat).1 with
      | .clause hdr _ => waitHolds w hdr
      | _ => false

/-- Entering or leaving the active set. -/
def setActive (s : State) (w : Warp) (on : Bool) : State :=
  match findWarp s w.uid with
  | none => s
  | some x => putWarp s { x with active := on, since := s.clk }

/-- The earliest by `since`. -/
def earliest : List Warp → Option Warp
  | [] => none
  | w :: t =>
    match earliest t with
    | none => some w
    | some x => if x.since < w.since then some x else some w

/-- The `n` latest by `since`. -/
def latest : Nat → List Warp → List Warp
  | 0, _ => []
  | n + 1, ws =>
    match ws.reverse.find? fun w => ws.all fun x => decide (x.since ≤ w.since) with
    | none => []
    | some w => w :: latest n (ws.filter fun x => x.uid != w.uid)

/-- The warps above the cap, those that entered last, leave the set, each at its clause boundary (R285). -/
def trimActive (core quad : Nat) (s : State) : State :=
  let act := activeWarps s core quad
  ((latest (act.length - activeCap s core) act).filter fun w => w.run.isNone).foldl (fun s w => setActive s w false) s

/-- Ready pending warps enter while there is room, the one that has waited longest first. -/
def fillActive (core quad : Nat) : Nat → State → State
  | 0, s => s
  | n + 1, s =>
    if activeCap s core ≤ (activeWarps s core quad).length then s
    else
      match earliest ((quadWarps s core quad).filter fun x => !x.active && clauseReady s x) with
      | none => s
      | some x => fillActive core quad n (setActive s x true)

/-- The active set of a quadrant at an issue (R284, R285): warps above the cap and warps that meet a long-latency dependence leave
it, ready pending ones enter. -/
def settle (core quad : Nat) (s : State) : State :=
  let s := trimActive core quad s
  let s := ((activeWarps s core quad).filter (longWait s)).foldl (fun s w => setActive s w false) s
  fillActive core quad 16 s

/-- A warp whose clause waits on the scoreboard leaves the set where the wait is estimated above 200 clk, which is left open
(DESIGN CHOICE, log entry 128). -/
def scoreWait (s : State) (w : Warp) : State :=
  let (k, s) := choose s 2
  if k = 0 then s else fillActive w.core w.quad 16 (setActive s w false)

/-- How far a warp's slot stands behind that of the warp of its quadrant that last issued. -/
def ringPlace (s : State) (w : Warp) : Nat := (w.slot + 16 - nget 0 s.lastIssue (4 * w.core + w.quad)) % 16

/-- Whether a save or a reset lets no clause of a warp begin; one that stepping has broken off goes on (R287, R378). -/
def issueBarred (s : State) (w : Warp) : Bool :=
  resetting s (tenantOf s w) || !(w.handler || !w.paused.isEmpty || ((clusterOf s w).all fun c => c.saving.isNone))

/-- Whether no other active warp that could issue comes before a warp in round-robin order (R284); one that has yielded gives way
(R107) (DEDUCED, log entry 82). -/
def itsTurn (s : State) (w : Warp) : Bool :=
  w.handler || (w.active && (activeWarps s w.core w.quad).all fun x =>
    decide (ringPlace s w ≤ ringPlace s x) || x.yielded || x.trap.isSome || issueBarred s x || !clauseReady s x)

/-- Whether the quadrant may grant its slot to a warp (R107, R109, R284, R287, R312): the module issues, no clause runs, a
ready handler goes first, a warp that yielded lets another active one go first, and a warp being saved does not issue
(DESIGN CHOICE, log entry 81). -/
def mayIssue (s : State) (w : Warp) : Bool :=
  let others := s.allWarps.filter fun x => x.core == w.core && x.quad == w.quad && x.uid != w.uid && x.uid != 0
  !s.boot.tripped && !issueBarred s w && w.run.isNone && w.trap.isNone &&
    (others.all fun x => x.run.isNone) &&
    (w.handler || (others.all fun x => !x.handler || issueBarred s x || !clauseReady s x)) &&
    (w.handler || !w.yielded || (others.all fun x => x.handler || !x.active || issueBarred s x || !clauseReady s x))

/-- The round-robin order goes on behind the warp that issues (R284). -/
def markIssue (s : State) (w : Warp) : State :=
  if w.handler then s else { s with lastIssue := nset 0 s.lastIssue (4 * w.core + w.quad) (w.slot + 1) }

/-- A clause that stepping has broken off goes on with its next instruction (R318): the lanes that still stand there. -/
def goOnPaused (s : State) (w : Warp) (r : Run) : State :=
  let grp := r.grp &&& groupAt w r.pc
  let rest := lanesWhere (r.grp &&& ~~~ grp &&& w.live) fun l => nget 0 w.pc l == r.pc
  let s := markIssue (mapWarps s fun x => if x.core = w.core && x.quad = w.quad then { x with yielded := false } else x) w
  { s with cur := { slotPasses w grp with
      run := some { r with grp := grp }
      paused := (w.paused.filter fun x => x != r) ++ (if rest = 0 then [] else [{ r with grp := rest }]) } }

/-- The clause begins (R105, R107): its group, tile size and body; a STEP stop comes before its first instruction. -/
def beginClause (s : State) (w : Warp) (pc : DWord) (grp : Lanes) (hdr : DWord) (body : List Word) : State :=
  let s := mapWarps s fun x => if x.core = w.core && x.quad = w.quad then { x with yielded := false } else x
  let s := markIssue s w
  let w := reachHint (slotPasses w grp) pc grp
  let r : Run :=
    { hdrAddr := pc, hdr := hdr, grp := grp, tsz := w.part.setWidth 3, slot := 0, pc := dw ((pc.toNat + 8) % 2 ^ 60),
      body := body, lat := [], transit := false, bnd := none, released := false }
  let s := { s with cur := { w with run := some r } }
  let dbg := grp &&& w.dbg
  if fbit hdr 22 && dbg ≠ 0 then takeTrap s { cause := 0xC0, pc := r.pc.toNat, lanes := dbg } grp (some r) else s

/-- Running the slot of the focused warp: the group selected, its clause fetched, checked and begun, or its lanes stopped. -/
def runSlot (s : State) : State :=
  match selectPc s.cur with
  | none => s
  | some pc =>
    let w := s.cur
    let grp := groupAt w pc
    if let some r := pausedAt w pc then goOnPaused s w r else
    let stop := fun s (rep : Report) =>
      let s := markIssue { s with cur := slotPasses s.cur grp } w
      takeTrap s { rep with pc := pc.toNat, lanes := grp, asp := rep.asp, info1 := rep.info1 } grp none
    match fetchClause s w.core (tenantOf s w) pc.toNat with
    | (.page b, s) => stop s { cause := b.cause, addr := dw b.addr, asp := b.asp, info0 := b.info0 }
    | (.noHeader, s) => stop s { cause := 0x04, addr := pc, asp := 1, info0 := 2, info1 := lowLane grp }
    | (.malformed row hdr, s) =>
      stop s { cause := 0x01, addr := pc, asp := 1, info0 := row, info1 := fld hdr 5 2 * 64 + fld hdr 11 6, aux := hdr }
    | (.clause hdr body, s) =>
      if waitHolds w hdr then s
      else if clauseBlocked s w grp (splitItems 16 body) then scoreWait s w
      else beginClause s w pc grp hdr body

/-- The stops due for the warp in a slot that stands between clauses, whether or not it may issue (R311, R317, R348). -/
def dueStops (c q n : Nat) (s : State) : State :=
  match warpAt s c q n with
  | none => s
  | some w =>
    if w.uid = 0 || w.run.isSome || w.trap.isSome || (w.deferred.isEmpty && !w.halt) then s
    else focus (boundaryStops (focus s w.uid)) s.cur.uid

/-- CLAUSE_ISSUE. -/
def clauseIssue (c q n : Nat) (s : State) : State :=
  let s := settle c q (dueStops c q n s)
  match warpAt s c q n with
  | none => s
  | some w =>
    if w.uid = 0 || !mayIssue s w || !itsTurn s w then s else runSlot (focus s w.uid)

/-- RCV_HOLD_EXPIRY: lanes held for 32 slots are eligible, their count intact, and keep their hint (R23, R141). -/
def holdExpiry (c q n : Nat) (s : State) : State :=
  match warpAt s c q n with
  | none => s
  | some w =>
    let ls := (lanesOf w.live).filter fun l => decide (32 ≤ nget 0 w.heldFor l)
    putWarp s { w with heldFor := ls.foldl (fun m l => nset 0 m l 32) w.heldFor }

/-- AGE_SWAP (R284): a ready pending warp has waited 2,048 clk with no room; the one longest in the set leaves. -/
def ageSwap (c q : Nat) (s : State) : State :=
  let act := activeWarps s c q
  match earliest ((quadWarps s c q).filter fun x => !x.active && clauseReady s x), earliest act with
  | some x, some y =>
    if x.since + 2048 ≤ s.clk && activeCap s c ≤ act.length && y.run.isNone then setActive (setActive s y false) x true else s
  | _, _ => s

/-- CONGESTION_LEVEL (R285). -/
def congestionLevel (c src lvl : Nat) (s : State) : State :=
  let s := { s with congest := nset (0, 0) s.congest (4096 * c + 4 * (src % 1024) + lvl % 4) (lvl % 4, s.clk) }
  (List.range Config.quads).foldl (fun s q => trimActive c q s) s

/-- CONGESTION_LEVEL_EXPIRY (R285): a message 4,096 sclk old counts no more. -/
def congestionExpiry (c src : Nat) (s : State) : State :=
  let old := fun (e : Nat × Nat × Nat) => e.1 / 4 == 1024 * c + src % 1024 && decide (e.2.2 + Config.sclk 4096 < s.clk)
  { s with congest := s.congest.filter fun e => !old e }

/-! The handler slot (R312, R350). -/

/-- The trapped warp of a quadrant that has waited longest for the handler slot (DEDUCED, log entry 113). -/
def waitingTrap (s : State) (c q : Nat) : Option (Warp × Trap) :=
  let ws := ((quadWarps s c q).filterMap fun w => w.trap.map fun t => (w, t)).filter fun e => e.2.phase == 0 && !resetting s (tenantOf s e.1)
  ws.foldl (fun best e =>
    match best with
    | none => some e
    | some b => if e.2.order < b.2.order then some e else some b) none

/-- Lanes of a new warp whose debug-enable bit starts set (R315, TRAPCFG bit 17) (DEDUCED, log entry 78). -/
def startDbg (s : State) (w : Warp) (lanes : Lanes) : Lanes := if trapCfg s w 17 then lanes else 0

/-- The handler warp of a trapped warp (R312): registers zero, lanes live, the other special registers the trapped warp's;
its first clause acquires. -/
def handlerWarp (s : State) (uid : Nat) (w : Warp) (t : Trap) (trec : DWord) : Warp :=
  { uid := uid, core := w.core, quad := w.quad, slot := 16, ctx := w.ctx, clu := w.clu, bid := w.bid, wid := w.wid,
    handler := true, serves := w.uid, hslot := w.slot, tcause := w32 (t.cause.toNat + w.wid % 256 * 256), trec := trec, live := allLanes,
    dbg := startDbg s w allLanes, pc := (List.range 32).foldl (fun m l => nset 0 m l t.entry) [],
    phase := (List.range 32).foldl (fun m l => nset [] m l (allBefore s)) [], rctr := w.rctr, part := w.part, vcnt := w.vcnt,
    rseed := w.rseed, xcause := w.xcause, xuser := w.xuser, txn := w.txn, since := s.clk }

/-- Whether a stop has done steps 1 to 3 of R73 at .block for its lanes (R311): their atomics have performed, accesses parked in the log
too but for those that wait for system software (R375), and the entries it raised have reached their level. -/
def stopReady (s : State) (w : Warp) (t : Trap) : Bool :=
  !(s.reqs.any fun q => q.warp == w.uid && q.groups.any fun g => g.lanes.any fun l => lon t.stopped l.lane) &&
    (w.olog.all (·.reported)) && !(s.staging.any fun e => belowLevel w.core (scopeLevel s w 2) e && decide (e.born ≤ t.order))

/-- HANDLER_START, once the stop has done its part of a boundary: the record is written where THREC says and the handler begins;
where it cannot be written the trap goes to system software (R350). -/
def handlerStart (c q : Nat) (s : State) : State :=
  match warpAt s c q 16, waitingTrap s c q with
  | none, some (w, t) =>
    if !stopReady s w t then s else
    let shelf := coreShelf c
    let ten := tenantOf s w
    let va := fld (pkgReg s 0x27 ten) 59 17 * 2 ^ 17 + 64 * (4 * c + q)
    (match sysWrite s shelf ten va (recordBytes t.record) with
     | none => eqAppend (putWarp s { w with trap := some { t with phase := 2 } }) (reportQueue t.record) t.record
     | some s =>
       let (id, s) := takeId s
       let s := putWarp s { released t.stopped [2] s.order w with trap := some { t with phase := 1 } }
       { s with warps := s.warps ++ [handlerWarp s id w t (dw va)] })
  | _, _ => s

/-- CLAUSE_ISSUE (R21 to R24, R105 to R110, R284): the quadrant grants its slot to the warp in slot `n`. -/
def execClauseIssue (c : Nat) (q : Nat) (n : Nat) (s : State) : Out := .next (clauseIssue c q n s)

/-- RCV_HOLD_EXPIRY (R23). -/
def execRcvHoldExpiry (c : Nat) (q : Nat) (n : Nat) (s : State) : Out := .next (holdExpiry c q n s)

/-- AGE_SWAP (R284). -/
def execAgeSwap (c : Nat) (q : Nat) (s : State) : Out := .next (ageSwap c q s)

/-- CONGESTION_LEVEL (R285). -/
def execCongestionLevel (c : Nat) (src : Nat) (lvl : Nat) (s : State) : Out := .next (congestionLevel c src lvl s)

/-- CONGESTION_LEVEL_EXPIRY (R285). -/
def execCongestionLevelExpiry (c : Nat) (src : Nat) (s : State) : Out := .next (congestionExpiry c src s)

/-- HANDLER_START (R312, R350). -/
def execHandlerStart (c : Nat) (q : Nat) (s : State) : Out := .next (handlerStart c q s)

end Sys2Proof.Machine
end

