-- ==== Sys2Proof/Machine/Publish.lean ====
section
/-! DEFINITION. Pool accesses at their target, publication of staged stores, the generations of the interleave table (R50, R54, R57, R72, R73). -/

namespace Sys2Proof.Machine

/-! Pool accesses that arrive over the Causeway (R50). -/

/-- The pool access of an instruction, performed at its target. -/
def atTargetDo (i : Instr) : Option (State → Warp → Run → State) :=
  let lds := fun it => some (loadDo true (accBytes it (ldsQ it)) (accBytes it (ldsQ it)) it)
  match i with
  | .lds f => lds (longItem 0x100 false f)
  | .ldsB32Short f => lds (shortItem 0x29 false 0x80 f)
  | .ldsB64Short f => lds (shortItem 0x2A false 0x90 f)
  | .ldsm f => let it := longItem 0x101 false f; some (loadDo true (4 * ldsmN it) (min (4 * ldsmN it) 16) it)
  | .sts f => some (stsDo true (longItem 0x102 false f))
  | .stsB32Short f => some (stsDo true (shortItem 0x2B false 0x80 f))
  | .stsB64Short f => some (stsDo true (shortItem 0x2C false 0x90 f))
  | .atoms f => some (atomPoolDo true true (longItem 0x103 false f))
  | .reds f => some (atomPoolDo true false (longItem 0x104 false f))
  | .town f => some (townDo true (longItem 0x145 false f))
  | .qmerge f => some (qmergeDo true (longItem 0x163 true f))
  | .binit f => some (binitDo true (longItem 0x1A0 true f))
  | .arrive f => some (arriveDo true (longItem 0x1A1 false f))
  | .expect f => some (expectDo true (longItem 0x1A2 true f))
  | .waitp f => some (waitpDo true (longItem 0x1A3 false f))
  | .btest f => some (btestDo true (longItem 0x1A4 false f))
  | .baredit f => some (bareditDo true (longItem 0x1C7 true f))
  | _ => none

/-- POOL_ACCESS_AT_TARGET: the access of the warp in slot `n` that travels to another core is delivered whole, after
those of its core to the same target that issued before it. -/
def poolAccessAtTarget (c q n : Nat) (s : State) : State :=
  match warpAt s c q n with
  | none => s
  | some w =>
    match w.run with
    | none => s
    | some r =>
      let ahead := s.allWarps.any fun x => x.bound w.core r.targets && decide ((x.run.map (·.stamp)).getD 0 < r.stamp)
      match r.transit && !ahead, decodeParcels r.body with
      | true, .ok (i, _) =>
        (match atTargetDo i with
         | some k => k (focus s w.uid) w r
         | none => s)
      | _, _ => s

/-! Publication (R54, R70, R72). -/

/-- Entries of the same core that are older than entry `n`, hold a byte of it and are not yet applied: stores of one core to a byte
keep their order (R68, R71) (DEDUCED, log entry 87). -/
def olderOf (s : State) (n : Nat) (e : Stage) : List Stage :=
  (s.staging.take n).filter fun x => x.core == e.core && x.pa == e.pa && x.mask &&& e.mask != 0 && x.txn == 0 && !x.applied

/-- Whether an atomic of the core that comes before an entry's publication is still bound for its line (R60, R76). -/
def atomicAhead (s : State) (e : Stage) : Bool :=
  s.reqs.any fun q => q.core == e.core && decide (q.sent < e.sent) && q.groups.any fun g => g.pa / 256 == e.pa / 256

/-- STAGING_EARLY_PUBLISH: entry `n`'s publication starts; not within an open transaction. -/
def earlyPublish (n : Nat) (s : State) : State :=
  match s.staging[n]? with
  | none => s
  | some e =>
    if e.txn ≠ 0 || e.going.isSome then s
    else { s with staging := s.staging.modify n (startPublish s e.freeLevel) }

/-- HOME_APPLY_PUBLICATION: entry `n` is applied whole at its home, in arrival order (R55). Entries of one core to one line
arrive in their order; a held line makes it wait (R57, R85, R253); one bound for a peer with no port left is lost (R385), and one
of a tenant that is being reset is discarded (R378 step 4). -/
def homeApply (n : Nat) (s : State) : State :=
  match s.staging[n]? with
  | none => s
  | some e =>
    if e.going.isSome && resetting s e.tenant then { s with staging := s.staging.eraseIdx n }
    else if e.going.isNone || e.applied || !(olderOf s n e).isEmpty || atomicAhead s e || overtaken s e.core e.sent || (lineOf s e.pa).locked || (lineOf s e.pa).holdWr ||
        drainHolds s (coreShelf e.core) e.gen e.pa || peerWay s (coreShelf e.core) e.pa = .waits then s
    else if let .lost p := peerWay s (coreShelf e.core) e.pa then
      lostReport { s with staging := s.staging.eraseIdx n } e.tenant p 1
    else
      let s := applyStaged (overtakes s e.core e.sent) e
      { s with staging := s.staging.modify n fun x => { x with applied := true, level := if paLocal e.pa then 0 else 1 } }

/-- PUBLICATION_ACK: the acknowledgement of entry `n` reaches its core, and the entry is free (R54). -/
def publicationAck (n : Nat) (s : State) : State :=
  match s.staging[n]? with
  | none => s
  | some e => if e.applied then { s with staging := s.staging.eraseIdx n } else s

/-- BOUNDARY_RELEASE_COMPLETE: the entries that the boundary of slot `n` raised have reached their level (R73 step 3). -/
def boundaryComplete (c q n : Nat) (s : State) : State :=
  match warpAt s c q n with
  | none => s
  | some w =>
    match w.run with
    | none => s
    | some r =>
      match r.bnd with
      | some l => if waitingEntries s c l then s else putWarp s { w with run := some { r with released := true } }
      | none => s

/-! The interleave table's generations (R57, R386). -/

/-- The lowest entry of a bank in which the shelves differ. -/
def bankDiffers (s : State) (bank : Nat) : Option Nat :=
  (List.range 32).find? fun n => shelfReg s 0 0x01 (32 * bank + n) != shelfReg s 1 0x01 (32 * bank + n)

/-- Writing ACT of IRTCTL; ERR is write-one-to-clear, and the write acts for the package (DEDUCED, log entry 86). -/
def actWrite (v : DWord) (s : State) : State :=
  let old := putFld (shelfReg s 0 0x02 0) 2 2 (if fbit v 2 then 0 else fld (shelfReg s 0 0x02 0) 2 2)
  let act := fld v 0 0
  let refused := bothPut s 0x02 0 (putFld old 2 2 1)
  if fbit old 1 then reportModule refused { cause := 0x90, info0 := 1, info1 := act, sev := 0, src := 7 }
  else if act = fld old 0 0 then bothPut s 0x02 0 old
  else
    match bankDiffers s act with
    | some n => reportModule refused { cause := 0x91, info0 := n, info1 := act, sev := 0, src := 7 }
    | none => bothPut s 0x02 0 (putFld (putFld old 0 0 act) 1 1 1)

/-- Whether a request tagged with the old generation is still under way. -/
def oldRequests (s : State) : Bool :=
  let cur := decide (irtBank s 0 = 1)
  s.staging.any (fun e => e.going.isSome && e.gen != cur) || s.reqs.any (fun q => q.gen != cur) ||
    s.watches.any (fun x => x.st == 0 && x.gen != cur) ||
    s.l2.any fun e => (e.2.locked || e.2.holdWr) && anyMoved s (256 * e.1)

/-- DRAIN_CLEAR: old-generation homes write back the dirty lines that moved and answer their watches on them spurious (R248). -/
def drainClear (s : State) : State :=
  if !draining s || oldRequests s then s
  else
    let s := ((s.l2.map (·.1)).filter fun k => anyMoved s (256 * k)).foldl writeBack s
    let cur := decide (irtBank s 0 = 1)
    let s := { s with watches := s.watches.map fun x =>
      if (x.st == 1 || x.st == 2) && x.gen != cur && anyMoved s x.pa then { x with st := 3, answer := 3 } else { x with gen := cur } }
    bothPut s 0x02 0 (putFld (shelfReg s 0 0x02 0) 1 1 0)

/-- POOL_ACCESS_AT_TARGET (R50). -/
def execPoolAccessAtTarget (c : Nat) (q : Nat) (n : Nat) (s : State) : Out := .next (poolAccessAtTarget c q n s)

/-- STAGING_EARLY_PUBLISH (R72). -/
def execStagingEarlyPublish (n : Nat) (s : State) : Out := .next (earlyPublish n s)

/-- HOME_APPLY_PUBLICATION (R55). -/
def execHomeApplyPublication (n : Nat) (s : State) : Out := .next (homeApply n s)

/-- PUBLICATION_ACK (R54). -/
def execPublicationAck (n : Nat) (s : State) : Out := .next (publicationAck n s)

/-- BOUNDARY_RELEASE_COMPLETE (R73). -/
def execBoundaryReleaseComplete (c : Nat) (q : Nat) (n : Nat) (s : State) : Out := .next (boundaryComplete c q n s)

/-- IRTCTL_ACT_WRITE (R57, R386). -/
def execIrtctlActWrite (v : DWord) (s : State) : Out := .next (actWrite v s)

/-- DRAIN_CLEAR (R57). -/
def execDrainClear (s : State) : Out := .next (drainClear s)

end Sys2Proof.Machine
end

