-- ==== Sys2Proof/Machine/Replay.lean ====
section
/-! DEFINITION. The replay of parked accesses (R245, R301). -/

namespace Sys2Proof.Machine

/-- The oldest ready entry of a warp that no older entry on its page precedes (R301) (DEDUCED, log entry 22). -/
def readyEntry (w : Warp) : Option LogEntry :=
  (List.range w.olog.length).findSome? fun i =>
    match w.olog[i]? with
    | some e => if e.st = 2 && !(w.olog.take i).any (fun x => x.va.toNat / 65536 == e.va.toNat / 65536) then some e else none
    | none => none

/-- Replacing a log entry. -/
def putEntry (w : Warp) (e : LogEntry) : Warp := { w with olog := w.olog.map fun x => if x.src == e.src then e else x }

/-- An entry parks again, on another page. -/
def repark (s : State) (e : LogEntry) (lane va : Nat) : State :=
  let st := if inTransit s (tenantOf s s.cur) (va / 65536) then 1 else 0
  onCur s fun w => putEntry w { e with st := st, va := dw (va / 65536 * 65536), lane := lane, reported := false }

/-- Lanes of a parked TWAIT that still wait at it. -/
def tideLanes (w : Warp) (e : LogEntry) : Lanes :=
  lanesWhere (e.mask &&& w.live) fun l =>
    match nget none w.park l with
    | some p => p.wait == .tide e.src
    | none => false

/-- The counter that an entry's instruction raised: STG, REDG and LAUNCH have one. -/
def entryDc (it : Item) (e : LogEntry) : Nat :=
  if ([0x120, 0x122, 0x009] : List Nat).contains (opcOf (e.insn.extractLsb' 0 32)) then it.dc else 0

/-- A fault met at replay is deferred and names the instruction (R301): the entry goes, its destinations are not written, its
tiles are released without credit, its TWAIT lanes wait no longer (DEDUCED, log entry 85). -/
def replayFault (s : State) (it : Item) (e : LogEntry) (lane : Nat) (b : LaneBad) : State :=
  let s := releaseTiles s e.tiles
  let s := onCur s fun w =>
    let w := { w with park := (lanesOf (tideLanes w e)).foldl (fun m l => nset none m l none) w.park }
    freeEntry w e (entryDc it e)
  deferFault s s.cur
    { cause := b.cause, pc := e.pc.toNat, lanes := e.mask, addr := b.addr, asp := b.asp, info0 := b.info0, info1 := lane,
      aux := e.insn }

/-- The entry is done: its counter falls, its registers are written. -/
def replayed (s : State) (e : LogEntry) (dc : Nat) : State := onCur s fun w => freeEntry w e dc

/-- The entries of a log that are older than one (R301): its access parks behind those that name a page it touches. -/
def olderOn (w : Warp) (e : LogEntry) : List LogEntry := w.olog.takeWhile fun x => x.src != e.src

/-- A replay's access from translation on (R301). -/
def replayAccess (s : State) (it : Item) (e : LogEntry) (lanes : List Nat) (pre : Nat → Option LaneBad) (va : Nat → Nat)
    (acc : Acc) (go : List (Nat × Option Nat × DWord) → State → State) : State :=
  let older := olderOn s.cur e
  match translateLanes s { s.cur with olog := older } lanes pre va acc 1 true with
  | (.fault l b, s) => replayFault s it e l b
  | (.park l a, s) => repark s e l a
  | (.ok loc, s) => go loc s

/-- STG: its bytes are staged outside any transaction (R250) (DEDUCED, log entry 84). -/
def replayStg (s : State) (it : Item) (e : LogEntry) (v : Nat → LaneVal) : State :=
  let lanes := lanesOf e.mask
  replayAccess s it e lanes (fun _ => none) (fun l => (v l).va) .write fun loc s' =>
    let txn := s'.cur.txn
    let s' := onCur s' fun w => { w with txn := {} }
    if !stageRoom s' (it.m 54 52) (blocksOf loc) then freeOldest s s.cur.core
    else
      let s' := stgStage (it.m 54 52) (stgBytes it) s' lanes loc fun l => (v l).data
      replayed (onCur s' fun w => { w with txn := txn }) e it.dc

/-- ATOMG and REDG: the groups go to their homes; old values are still to come. -/
def replayAtom (red : Bool) (s : State) (it : Item) (e : LogEntry) (v : Nat → LaneVal) : State :=
  let lanes := lanesOf e.mask
  let va := fun l => (v l).va
  replayAccess s it e lanes (fun _ => none) va .write fun loc s =>
    match firstLane lanes (atomHostBad (it.m 55 52) it.mty va loc) with
    | some (l, b) => replayFault s it e l b
    | none =>
      let s := atomSend it red e.src e.pc s lanes va loc fun l => ⟨l, dw (v l).data, dw (v l).cmp⟩
      if red then replayed s e it.dc else onCur s fun w => { w with olog := w.olog.filter fun x => x.src != e.src }

/-- GATHER: its elements are read, its command is under way with the tiles it kept. -/
def replayGather (s : State) (it : Item) (e : LogEntry) (v : Nat → LaneVal) : State :=
  let lanes := lanesOf e.mask
  let w := s.cur
  replayAccess s it e lanes (fun _ => none) (fun l => (v l).va) .read fun loc s' =>
    let c : Cmd :=
      { id := e.src, kind := .gather, warp := w.uid, core := w.core, ctx := w.ctx, clu := w.clu, bid := w.bid, wid := w.wid,
        lanes := e.mask, insn := e.insn, lit := e.lit, pc := e.pc, bar := e.bar, tiles := e.tiles,
        phase := nget [] w.phase (lowLane e.mask), sig := [laneSig w (lowLane e.mask)] }
    let need := missing s' w.core (it.mb 52) (loc.filterMap fun x => x.2.1.map fun pa => (pa, tyBytes it.mty, x.2.2))
    if anyLocked s' (loc.filterMap (·.2.1)) || behindAtomic s' c (loc.filterMap (·.2.1)) then s
    else if !need.isEmpty then sendReads s' need
    else
      let (c, s') := gatherCmd s' c (tyBytes it.mty) lanes (fun l => (v l).data) (fun l => (v l).va) loc
      replayed { s' with cmds := s'.cmds ++ [c] } e 0

/-- TWAIT: its watches go out for the lanes that still wait (R245); a discarded page compares with zero (DEDUCED, log entry 29). -/
def replayTwait (s : State) (it : Item) (e : LogEntry) (v : Nat → LaneVal) : State :=
  let lanes := lanesOf (tideLanes s.cur e)
  let va := fun l => (v l).va
  if lanes.isEmpty then replayed s e 0
  else
    replayAccess s it e lanes (fun _ => none) va .read fun loc s =>
      match firstLane lanes (watchHostBad loc va), lanes.find? fun l => ((locOf loc l).1).isNone with
      | some (l, b), _ => replayFault s it e l b
      | none, some l =>
        if lanes.all fun l => ((locOf loc l).1).isNone && watchHolds (watchOf s.cur 0 it (v l) 0) 0 then
          replayed (onCur s fun w => lanes.foldl (fun w l => unpark [] w l (some 1)) w) e 0
        else repark s e l (va l)
      | none, none => replayed (sendWatches s it e.again e.pc e.ft e.at0 lanes loc v) e 0

/-- LAUNCH: its record is read, where it has not been, and its queue tested (R143); a status that exited threads alone waited for is
discarded (R140). -/
def replayLaunch (s : State) (it : Item) (e : LogEntry) (v : LaneVal) : State :=
  let w := s.cur
  let append := fun (s' : State) (img : List Byte) =>
    match appendRecord s' w.core (tenantOf s' w) (v.data % 2 ^ 32) img with
    | .hold => s
    | .status d s' => replayed (if s'.cur.pend.any fun p => p.src == e.src then onCur s' (launchStatus it d) else s') e it.dc
    | .park va s' => repark s' { e with img := img } (lowLane e.mask) va
  if !e.img.isEmpty then append s e.img
  else
    match translateLanes s { w with olog := olderOn w e } imageLanes (fun _ => none) (fun i => v.va + 64 * i) .read 1 true with
    | (.fault _ b, s') => replayFault s' it e 0 b
    | (.park _ a, s') => repark s' e (lowLane e.mask) a
    | (.ok loc, s') => if anyLocked s' (loc.filterMap (·.2.1)) then s else append (imageFill s' loc) (imageBytes s' loc)

/-- The replay of an entry, by its opcode. -/
def replayEntry (s : State) (e : LogEntry) : State :=
  let w0 := e.insn.extractLsb' 0 32
  let f := longFields w0 (e.insn.extractLsb' 32 32) (if lengthCode w0 = 2 then some e.lit else none)
  let v := payloadLane s e.pay.toNat
  match opcOf w0 with
  | 0x120 => replayStg s (longItem 0x120 false f) e v
  | 0x121 => replayAtom false s (longItem 0x121 false f) e v
  | 0x122 => replayAtom true s (longItem 0x122 false f) e v
  | 0x123 => replayGather s (longItem 0x123 false f) e v
  | 0x1A9 => replayTwait s (longItem 0x1A9 false f) e v
  | 0x009 => replayLaunch s (longItem 0x009 true f) e (v (lowLane e.mask))
  | _ => s

/-- OPERAND_LOG_REPLAY: the next ready entry of the warp in slot `n` replays. -/
def logReplay (c q n : Nat) (s : State) : State :=
  match warpAt s c q n with
  | none => s
  | some w =>
    match readyEntry w with
    | none => s
    | some e =>
      let back := s.cur.uid
      focus (replayEntry (focus s w.uid) e) back

/-- OPERAND_LOG_REPLAY (R301). -/
def execOperandLogReplay (c : Nat) (q : Nat) (n : Nat) (s : State) : Out := .next (logReplay c q n s)

end Sys2Proof.Machine
end

