-- ==== Sys2Proof/Machine/Migrate.lean ====
section
/-! DEFINITION. Shoot-downs, frame rings, migrations, remote homes and retired frames (R297, R302 to R306, R375, R377, R411). -/

namespace Sys2Proof.Machine

/-! Shoot-downs (R297). -/

/-- A range of physical addresses: first, one beyond the last. -/
structure PaRange where
  lo : Nat
  hi : Nat
  deriving DecidableEq, Repr

/-- Whether a physical address lies in one of the ranges. -/
def inRanges (rs : List PaRange) (pa : Nat) : Bool := rs.any fun r => decide (r.lo ≤ pa) && decide (pa < r.hi)

/-- The frames that a leaf maps. -/
def leafRange (e : DWord) (gig : Bool) : PaRange :=
  ⟨leafPFN e * 65536, leafPFN e * 65536 + (if gig then 2 ^ 27 else 65536)⟩

/-- The frames of a page before its leaf changed: those of the leaves that it has had since its last shoot-down, or that a cache
holds, and that differ from the present one; the present one's where there is none (DEDUCED, log entry 33). -/
def pageFrames (s : State) (shelf ten page : Nat) : List PaRange :=
  let now := walk s shelf ten (page * 65536)
  let cached := (s.tlb.filter fun t => t.tenant == ten).filterMap fun t => tlbLeaf t page
  let old := ((cached ++ walksSince s shelf ten page).filter (· != now)).filterMap fun l =>
    match l with
    | .leaf e g => some (leafRange e g)
    | _ => none
  if old.isEmpty then (match now with | .leaf e g => [leafRange e g] | _ => []) else old.eraseDups

/-- The 64 KiB units under the valid leaves of a table at `level`, with their leaves (R292). -/
def tableLeaves (s : State) : Nat → Nat → Nat → List Nat
  | 0, base, va =>
    (List.range 2048).filterMap fun i => if ptV (dw (homeNat s (base + 8 * i) 8)) then some (va / 65536 + i) else none
  | l + 1, base, va =>
    (List.range 2048).flatMap fun i =>
      let e := dw (homeNat s (base + 8 * i) 8)
      let at_ := va + i * 2 ^ (16 + 11 * (l + 1))
      if !ptV e then [] else if ptL e then (if l = 0 then [at_ / 65536] else []) else tableLeaves s l (fld e 51 14 * 2 ^ 14) at_

/-- The units of every valid leaf of a tenant, by a shelf's tables. -/
def tenantLeaves (s : State) (shelf ten : Nat) : List Nat :=
  let root := shelfReg s shelf 0x11 ten
  if fbit root 0 then tableLeaves s 3 (fld root 51 14 * 2 ^ 14) 0 else []

/-- The frames of a shoot-down's pages, by the tables of either shelf (R409); with SIZE 3 those of every valid leaf of the tenant. -/
def shootFrames (s : State) (ten size va : Nat) : List PaRange :=
  let cached := (s.tlb.filter (shootMatch ten size va)).map (·.page)
  let named := match size with
    | 0 => [va / 65536]
    | 1 => (List.range 32).map (va / 2 ^ 21 * 32 + ·)
    | 2 => (List.range 8).map fun i => va / 2 ^ 30 * 2 ^ 14 + 2048 * i
    | _ => tenantLeaves s 0 ten ++ tenantLeaves s 1 ten
  (((cached ++ named).eraseDups).flatMap fun p => pageFrames s 0 ten p ++ pageFrames s 1 ten p).eraseDups

/-- The tenant of a launch. -/
def ctxTenant (s : State) (ctx : Nat) : Nat := ((findCtx s ctx).map (·.tenant)).getD 0

/-- The tenant's staging entries that hold bytes of the frames. -/
def shootStage (ten : Nat) (rs : List PaRange) (e : Stage) : Bool := e.tenant == ten && inRanges rs e.pa

/-- Whether an engine command has translated a tile that has not landed: the elements of a GATHER, a part that has been read and not
landed on every member, a row operation under way. -/
def Cmd.reading (c : Cmd) : Bool :=
  match c.kind with
  | .gather => true
  | .rowzf | .rowcp => !c.sent.isEmpty
  | .tcopy => c.unitList.any fun u => c.sent.contains (u % 1024) && !c.landed.contains u
  | _ => false

/-- Whether an access that was translated through the leaves is still under way: an atomic, a watch on its way, a packet
to a stack, a staged store, a tile of the tenant that has been read and has not landed (DEDUCED, log entry 88). -/
def shootBusy (s : State) (ten : Nat) (rs : List PaRange) : Bool :=
  s.cmds.any (fun c => ctxTenant s c.ctx == ten && c.reading) ||
  s.reqs.any (fun q => ctxTenant s q.ctx == ten && q.groups.any fun g => inRanges rs g.pa) ||
    s.watches.any (fun x => x.tenant == ten && x.st == 0 && inRanges rs x.pa) ||
    s.packets.any (fun p => 2 ≤ p.kind && inRanges rs p.pa) || s.staging.any (shootStage ten rs)

/-- Publication of the tenant's staged stores to the frames starts; an open transaction's stay (R72). -/
def shootPublish (s : State) (ten : Nat) (rs : List PaRange) : State :=
  { s with staging := s.staging.map fun e =>
      if shootStage ten rs e && e.txn == 0 && e.going.isNone then startPublish s e.freeLevel e else e }

/-- Dropping the replicas of the frames' lines. -/
def dropReplicas (s : State) (rs : List PaRange) : State :=
  { s with replicas := s.replicas.filter fun r => !inRanges rs (256 * r.line) }

/-- Writing TLBINV: with GO a shoot-down starts, or ERR is set while one runs (Table 14.6). -/
def tlbinvWrite (v : DWord) (s : State) : State :=
  let old := pkgReg s 0x2B 0
  let err := if fbit v 1 then 0 else fld old 1 1
  let new := dw (fld old 63 63 * 2 ^ 63 + fld v 59 16 * 2 ^ 16 + fld v 7 4 * 16 + fld v 3 2 * 4 + err * 2)
  if !fbit v 0 then pkgPut s 0x2B 0 new
  else if fbit old 63 then pkgPut s 0x2B 0 (putFld new 1 1 1)
  else { pkgPut s 0x2B 0 (putFld new 63 63 1) with shoot := some new }

/-- TLBINV_COMPLETE: staged stores of the frames are published first; then leaves and replicas are dropped, the tenant's watches
on the frames are answered cancelled, and BUSY clears. -/
def tlbinvComplete (s : State) : State :=
  match s.shoot with
  | none => s
  | some x =>
    let ten := fld x 7 4
    let rs := shootFrames s ten (fld x 3 2) (fld x 59 16 * 65536)
    if shootBusy s ten rs then shootPublish s ten rs
    else
      let s := dropReplicas (dropLeaves s ten (fld x 3 2) (fld x 59 16 * 65536)) rs
      let s := { s with
        shoot := none
        watches := s.watches.map fun w =>
          if w.tenant == ten && (w.st == 1 || w.st == 2) && inRanges rs w.pa then { w with st := 3, answer := 4 } else w }
      pkgPut s 0x2B 0 (putFld (pkgReg s 0x2B 0) 63 63 0)

/-! Frame rings (R411). -/

/-- Physical address of 8 bytes that the fault unit may read and write through the tenant's translation. -/
def ringWord (s : State) (shelf ten va : Nat) : Option Nat :=
  match (translate s shelf ten va .write 1).1 with
  | .ok pa _ => some pa
  | _ => none

/-- A ring as the fault unit finds it: where its indices stand, their values, its entries, its address. -/
structure Ring where
  prodPa : Nat
  consPa : Nat
  prod : Nat
  cons : Nat
  slots : Nat
  base : Nat
  deriving DecidableEq, Repr

/-- Entries a ring holds. -/
def Ring.used (r : Ring) : Nat := (r.prod + 2 ^ 64 - r.cons) % 2 ^ 64

/-- Reading a tenant's ring for a tier and granule; none where it counts as unusable. -/
def findRing (s : State) (shelf ten tier z : Nat) : Option Ring :=
  let f := shelfReg s shelf 0x15 (4 * ten + 2 * tier + z)
  let base := fld f 59 12 * 4096
  match ringWord s shelf ten base, ringWord s shelf ten (base + 8) with
  | some p, some c =>
    let r : Ring := ⟨p, c, homeNat s p 8, homeNat s c 8, 2 ^ (fld f 11 8 + 4) - 2, base⟩
    if r.slots < r.used then none else some r
  | _, _ => none

/-- Where entry `k` of a ring stands. -/
def ringSlot (s : State) (shelf ten : Nat) (r : Ring) (k : Nat) : Option Nat := ringWord s shelf ten (r.base + 8 * (2 + k % r.slots))

/-- Taking an entry, at most `n` looked at: a frame that has been retired is never handed out (R377). -/
def takeFrom (s : State) (shelf ten z : Nat) (r : Ring) : Nat → Nat → Option (Nat × State)
  | 0, _ => none
  | n + 1, k =>
    match ringSlot s shelf ten r k with
    | none => none
    | some a =>
      let pfn := homeNat s a 8 % 2 ^ 36
      if (List.range (if z = 1 then 32 else 1)).any fun i => s.retired.contains (pfn + i) then takeFrom s shelf ten z r n (k + 1)
      else some (pfn, applyWrite (reachHome s r.consPa 8) (atAddr r.consPa (bytesOf 8 ((k + 1) % 2 ^ 64))))

/-- Taking a frame or group from a ring (DEDUCED, log entry 110). -/
def ringTake (s : State) (shelf ten tier z : Nat) : Option (Nat × State) :=
  match findRing s shelf ten tier z with
  | none => none
  | some r => takeFrom s shelf ten z r r.used r.cons

/-- Returning a frame or group to a ring. -/
def ringPut (s : State) (shelf ten tier z pfn : Nat) : Option State :=
  match findRing s shelf ten tier z with
  | none => none
  | some r =>
    if r.used = r.slots then none
    else
      (ringSlot s shelf ten r r.prod).map fun a =>
        applyWrite (applyWrite (reachHome (reachHome s a 8) r.prodPa 8) (atAddr a (bytesOf 8 pfn))) (atAddr r.prodPa (bytesOf 8 ((r.prod + 1) % 2 ^ 64)))

/-! Migrations (R302 to R305, R377). -/

/-- Shelf whose fault unit owns a physical address (R12, Table 14.1); shelf 0 where no tier holds it. -/
def pageShelf (pa : Nat) : Nat :=
  match paKind pa with
  | .fast => stackOf pa / 4
  | .capacity => if Config.cap1 ≤ pa then 1 else 0
  | _ => 0

/-- The request that covers a unit. -/
def findMigr (s : State) (ten page : Nat) : Option Migr := s.migrs.find? fun m => m.covers ten page

/-- Replacing the requests of a page by one, or by none. -/
def putMigr (s : State) (ten page : Nat) (m : Option Migr) : State :=
  { s with migrs := (s.migrs.filter fun x => !x.covers ten page) ++ m.toList }

/-- Tier that a page goes to. -/
def destTier (kind : Nat) (leaf : DWord) : Nat :=
  match kind with
  | 1 | 2 => 1
  | 4 => if leafTIER leaf then 1 else 0
  | _ => 0

/-- The leaf of step 4. -/
def newLeaf (kind : Nat) (e : DWord) (pfn : Nat) : DWord :=
  let e := putFld (putFld e 63 63 1) 35 0 pfn
  match kind with
  | 0 | 3 => putFld (putFld e 56 56 0) 55 54 0
  | 1 => putFld (putFld e 56 56 1) 55 54 1
  | 2 => putFld (putFld e 56 56 1) 55 54 0
  | _ => e

/-- Changing every warp, saved ones included. -/
def everyWarp (s : State) (f : Warp → Warp) : State :=
  { mapWarps s f with saved := s.saved.map fun v => { v with warps := v.warps.map f } }

/-- What becomes of what is parked on a unit: a log entry, a unit of an engine command, a command at issue. -/
structure OnPark where
  entry : LogEntry → LogEntry
  unit : UnitPark → Option UnitPark
  want : Want → Option Want

/-- Changing what a tenant has parked on the units that `hit` names. -/
def parksOn (s : State) (ten : Nat) (hit : Nat → Bool) (f : OnPark) : State :=
  let s := everyWarp s fun w =>
    if tenantOf s w == ten then
      { w with olog := w.olog.map fun e => if hit (e.va.toNat / 65536) then f.entry e else e } else w
  let onCmd := fun (c : Cmd) =>
    if ctxTenant s c.ctx == ten then { c with parks := c.parks.filterMap fun p => if hit p.page then f.unit p else some p } else c
  { s with
    cmds := s.cmds.map onCmd
    saved := s.saved.map fun v => { v with cmds := v.cmds.map onCmd }
    wants := s.wants.filterMap fun x => if x.tenant == ten && hit x.page then f.want x else some x }

/-- Every parked access on the units may go on (R301). -/
def markReady (s : State) (ten : Nat) (hit : Nat → Bool) : State :=
  parksOn s ten hit ⟨fun e => { e with st := 2 }, fun _ => none, fun _ => none⟩

/-- The page that an access is parked on is in transit, or no longer so (Table 14.7). -/
def markTransit (s : State) (ten : Nat) (hit : Nat → Bool) (on : Bool) : State :=
  parksOn s ten hit ⟨fun e => if e.st = (if on then 0 else 1) then { e with st := if on then 1 else 0 } else e, some, some⟩

/-- Whether some access of the tenant is parked on the unit and not reported. -/
def parkedOn (s : State) (ten page : Nat) : Bool :=
  (threadWarps s).any (fun w => tenantOf s w == ten && w.olog.any fun e => e.st == 0 && !e.reported && e.va.toNat / 65536 == page) ||
    s.cmds.any (fun c => ctxTenant s c.ctx == ten && c.parks.any fun p => p.page == page && !p.reported) ||
    s.wants.any fun x => x.tenant == ten && x.page == page && !x.reported

/-- A failed migration (cause 0x48): the page's parks stay, in transit no longer. -/
def migrFail (s : State) (m : Migr) (sub : Nat) : State :=
  let s := markTransit s m.tenant (m.covers m.tenant) false
  reportBare (putMigr s m.tenant m.page (some { m with failed := true })) m.tenant 0
    { cause := 0x48, addr := dw (m.page * 65536), asp := 1, info0 := sub, src := 2, sev := 2, defd := true }

/-- The subcode of a failing ring check. -/
def ringCheck (s : State) (m : Migr) : Option Nat :=
  let shelf := pageShelf (leafPFN m.leaf * 65536)
  let z := if ptL m.leaf then 1 else 0
  let dest := destTier m.kind m.leaf
  if (ringTake s shelf m.tenant dest z).isNone then some (if m.kind = 3 then 3 else 1)
  else if m.kind < 3 && (ringPut s shelf m.tenant (if leafTIER m.leaf then 1 else 0) z 0).isNone then some 4
  else none

/-- Where the leaves of a page stand: the address of the first. -/
def leavesAt (s : State) (m : Migr) : Option Nat :=
  match leafAddr s (pageShelf (leafPFN m.leaf * 65536)) m.tenant (m.page * 65536) with
  | some (a, false) => some (a - 8 * (m.page % pageCount m.leaf))
  | _ => none

/-- Changing the leaves of a page in memory. -/
def editLeaves (s : State) (a n : Nat) (f : Nat → DWord → DWord) : State :=
  (List.range n).foldl (fun s i =>
    applyWrite (reachHome s (a + 8 * i) 8) (atAddr (a + 8 * i) (bytesOf 8 (f i (dw (homeNat s (a + 8 * i) 8))).toNat))) s

/-- Step 1 of R302 after the ring checks: the leaf is written invalid and the page is in transit; its shoot-down runs. -/
def migrBegin (s : State) (m : Migr) : State :=
  match ringCheck s m, leavesAt s m with
  | some sub, _ => migrFail s m sub
  | none, none => s
  | none, some a =>
    let s := editLeaves s a (pageCount m.leaf) fun _ e => putFld e 63 63 0
    let s := markTransit s m.tenant (m.covers m.tenant) true
    putMigr s m.tenant m.page (some { m with failed := false })

/-- A watch that finds its line moved (R303): its status is kept where there is room, else it is answered spurious. -/
def moveWatch (olds : List Nat) (pfn : Nat) (s : State) (x : Watch) : State :=
  match findIdx (· == x.pa / 65536) olds with
  | none => s
  | some i =>
    let pa := (pfn + i) * 65536 + x.pa % 65536
    let slice := homeSlice s (coreShelf x.core) pa
    let room := fun st => decide (watchCount s slice st < (if st = 1 then Config.tideEntries else Config.spillEntries))
    if x.st ≠ 1 && x.st ≠ 2 then s
    else if room x.st then putWatch s { x with pa := pa }
    else if room (3 - x.st) then putWatch s { x with pa := pa, st := 3 - x.st }
    else putWatch s { x with st := 3, answer := 3 }

/-- One line of a migration copy, applied at the new line's home with its poison (R382) (DEDUCED, log entry 90). -/
def copyLine (dst src : Nat) (s : State) (k : Nat) : State :=
  let bad := (List.range 8).filter fun j => nget false s.poison ((src + 256 * k) / 32 + j)
  applyWriteBad 512 (fun _ => [hostSig s]) (bad.map ((dst + 256 * k) / 32 + ·)) s (atAddr (dst + 256 * k) (homeBytes s (src + 256 * k) 256))

/-- The history of a frame's new contents: what its old frame's was, so that no read of the page goes behind the copy. -/
def moveHist (hs : List Hist) (src : Option Nat) (dst : Nat) : List Hist :=
  let kept := hs.filter fun h => h.pa / 65536 != dst
  match src with
  | some p => ((hs.filter fun h => h.pa / 65536 == p).map fun h => { h with pa := dst * 65536 + h.pa % 65536 }) ++ kept
  | none => kept

/-- A map by byte address, with what it says of a frame's bytes moved to another frame. -/
def moveKeys {α : Type} [DecidableEq α] (d : α) (m : NMap α) (src : Option Nat) (dst : Nat) : NMap α :=
  let kept := m.filter fun e => e.1 / 65536 != dst
  match src with
  | some p => (m.filter fun e => e.1 / 65536 == p).foldl (fun k e => nset d k (dst * 65536 + e.1 % 65536) e.2) kept
  | none => kept

/-- What warps and commands know of a frame's bytes, moved with them (R74). -/
def moveReads (s : State) (src : Option Nat) (dst : Nat) : State :=
  let cmd := fun (c : Cmd) => { c with floor := moveKeys 0 c.floor src dst, cap := moveKeys 0 c.cap src dst }
  let s := everyWarp s fun w => { w with seen := moveKeys 0 w.seen src dst }
  { s with cmds := s.cmds.map cmd, saved := s.saved.map fun v => { v with cmds := v.cmds.map cmd } }

/-- Step 3 for one frame: its lines, their writers, its compression. -/
def copyFrame (src dst : Nat) (s : State) : State :=
  let hs := s.hist
  let s := (List.range 256).foldl (copyLine (dst * 65536) (src * 65536)) (reachHome (reachHome s (src * 65536) 65536) (dst * 65536) 65536)
  let md := { nget ({} : FrameMeta) s.fmeta dst with cmp := (nget ({} : FrameMeta) s.fmeta src).cmp }
  let s := { s with sigs := moveKeys [] s.sigs (some src) dst }
  moveReads { s with fmeta := nset {} s.fmeta dst md, hist := moveHist hs (some src) dst } (some src) dst

/-- A frame of zeros, as writes at its homes (R305). -/
def zeroFrame (s : State) (dst : Nat) : State :=
  let hs := s.hist
  let s := (List.range 256).foldl (fun s k => applyWrite s (atAddr (dst * 65536 + 256 * k) (List.replicate 256 0)))
    (reachHome s (dst * 65536) 65536)
  moveReads { s with hist := moveHist hs none dst } none dst

/-- The record of a retired frame (R377): to the mapping tenant, or to the module. -/
def retireReport (s : State) (pfn : Nat) (ten : Option Nat) (new : Nat) : State :=
  let rep : Report := { cause := 0x49, addr := dw (pfn * 65536), asp := 3, info0 := ten.getD 0x10, aux := dw new, src := 2, sev := 0 }
  match ten with
  | some t => reportBare s t 0 rep
  | none => reportModule s rep

/-- Steps 2 to 5 of R302, once the shoot-down is complete. -/
def migrFinish (s : State) (m : Migr) : State :=
  let n := pageCount m.leaf
  let z := if ptL m.leaf then 1 else 0
  let shelf := pageShelf (leafPFN m.leaf * 65536)
  match leavesAt s m with
  | none => s
  | some a =>
    let olds := (List.range n).map fun i => leafPFN (dw (homeNat s (a + 8 * i) 8))
    let rs := if m.kind = 3 then [] else olds.map fun p => (⟨p * 65536, (p + 1) * 65536⟩ : PaRange)
    if shootBusy s m.tenant rs then shootPublish s m.tenant rs
    else if s.l2.any fun e => (e.2.locked || e.2.holdWr) && inRanges rs (256 * e.1) then s
    else
      match ringTake s shelf m.tenant (destTier m.kind m.leaf) z with
      | none => migrFail s m (if m.kind = 3 then 3 else 1)
      | some (pfn, s) =>
        if m.err && m.kind < 3 then migrFail s m 2
        else
        let s := dropReplicas (dropLeaves s m.tenant (if n = 32 then 1 else 0) (m.first * 65536)) rs
        let s := if m.kind = 3 then (List.range n).foldl (fun s i => zeroFrame s (pfn + i)) s
          else (List.range n).foldl (fun s i => copyFrame (olds.getD i 0) (pfn + i) s) (s.watches.foldl (moveWatch olds pfn) s)
        let s := editLeaves s a n fun i e => newLeaf m.kind e (pfn + i)
        let s := if m.kind < 3 then (ringPut s shelf m.tenant (if leafTIER m.leaf then 1 else 0) z (olds.headD 0)).getD s else s
        let s := if m.kind = 4 then
            retireReport { s with retired := s.retired ++ olds } m.frame (some m.tenant) (pfn + (findIdx (· == m.frame) olds).getD 0) else s
        markReady (putMigr s m.tenant m.page none) m.tenant (m.covers m.tenant)

/-- Whether the fault unit is moving a page of the tenant: it moves one at a time (DEDUCED, log entry 89). -/
def tenantMoving (s : State) (ten : Nat) : Bool := s.migrs.any fun m => m.tenant == ten && !m.failed

/-- A request's start: nothing while another page of the tenant is moved. -/
def migrStart (s : State) (m : Migr) : State := if tenantMoving s m.tenant then s else migrBegin s m

/-! Parks that no migration covers (R306, R375). -/

/-- Shelf of the core of an access that is parked on a unit. -/
def askShelf (s : State) (ten page : Nat) : Nat :=
  let logged := fun (w : Warp) => tenantOf s w == ten && w.olog.any fun e => e.va.toNat / 65536 == page
  let parked := fun (c : Cmd) => ctxTenant s c.ctx == ten && c.parks.any fun p => p.page == page
  let wanted := fun (x : Want) => if x.tenant == ten && x.page == page then (findWarp s x.warp).map fun w => w.core else none
  let cores := (s.allWarps.filter logged).map (·.core) ++ (s.cmds.filter parked).map (·.core) ++ s.wants.filterMap wanted
  (cores.map coreShelf).headD 0

/-- The shelf whose fault unit sees to a page, by its own tables: its home shelf, else that of the access that asks (R409) (DEDUCED, log
entry 150). -/
def pageHome (s : State) (ten va : Nat) : Nat :=
  let own := fun k => match walk s k ten va with
    | .leaf e _ => pageShelf (leafPFN e * 65536) == k
    | _ => false
  if own 0 then 0 else if own 1 then 1 else askShelf s ten (va / 65536)

/-- The walk of a page on that shelf. -/
def homeWalk (s : State) (ten va : Nat) : Walk := walk s (pageHome s ten va) ten va

/-- The ownership entry of a shelf that holds an address: its device (DEDUCED, log entry 91). -/
def ownerOf (s : State) (shelf ten va : Nat) : Option Nat :=
  (List.range 64).findSome? fun n =>
    let b := shelfReg s shelf 0x09 n
    let l := shelfReg s shelf 0x0A n
    if fbit l 63 && fld l 19 16 == ten && decide (fld b 59 21 ≤ bitsN va 59 21) && decide (bitsN va 59 21 ≤ fld l 59 21) then
      some (fld l 15 0) else none

/-- The lowest valid peer slot of a device, on a shelf, that has a port up. -/
def slotOf (s : State) (shelf dev : Nat) : Option Nat :=
  (List.range 64).find? fun n =>
    let r := shelfReg s shelf 0x08 n
    fbit r 63 && fld r 47 32 == dev && (List.range 16).any fun p => fbit r p && linkUp s p

/-- An element set among others by a number. -/
def insertBy {α : Type} (key : α → Nat) (x : α) : List α → List α
  | [] => [x]
  | y :: t => if key x ≤ key y then x :: y :: t else y :: insertBy key x t

/-- The oldest entries of a tenant's warps on a unit that are parked and not reported, the oldest of all first (R375). -/
def oldestParks (s : State) (ten page : Nat) : List (Warp × LogEntry) :=
  ((s.allWarps.filter fun w => tenantOf s w == ten).filterMap fun w =>
    (w.olog.find? fun e => e.va.toNat / 65536 == page && e.st == 0 && !e.reported).map fun e => (w, e)).foldr
      (insertBy fun x => x.2.src) []

/-- Reporting a unit's parks (R375): each warp once, that of the oldest entry first, naming its own oldest; each engine command's
warp. A saved warp is reported after it resumes (DEDUCED, log entry 111). -/
def reportParks (s : State) (ten page : Nat) (rep : DWord → Report) : State :=
  let s := (oldestParks s ten page).foldl (fun s (x : Warp × LogEntry) =>
    let e := x.2
    deferFault s x.1 { rep e.insn with pc := e.pc.toNat, lanes := e.mask, addr := e.va, asp := 1, src := 2, info1 := e.lane }) s
  let s := (s.cmds.filter fun c => ctxTenant s c.ctx == ten && c.parks.any fun p => p.page == page && !p.reported).foldl (fun s c =>
    deferFault s ((findWarp s c.warp).getD c.who)
      { rep c.insn with pc := c.pc.toNat, lanes := c.lanes, addr := dw (page * 65536), asp := 1, src := 2 }) s
  let s := (s.wants.filter fun x => x.tenant == ten && x.page == page && !x.reported).foldl (fun s x =>
    match findWarp s x.warp with
    | some w => deferFault s w { rep x.insn with pc := x.pc.toNat, lanes := x.lanes, addr := dw (page * 65536), asp := 1, src := 2 }
    | none => s) s
  let saved := s.saved
  { parksOn s ten (· == page)
      ⟨fun e => if e.st == 0 then { e with reported := true } else e, fun p => some { p with reported := true },
       fun x => some { x with reported := true }⟩ with saved := saved }

/-- A translation that no one resolves: cause 0x40, the level at which the walk ended. -/
def unresolved (s : State) (ten page level : Nat) : State :=
  reportParks s ten page fun insn => { cause := 0x40, info0 := level, aux := insn }

/-- A remote home that failed: cause 0x41, the device. -/
def remoteFail (s : State) (ten page dev sub : Nat) : State :=
  reportParks { s with remotes := s.remotes.filter fun r => r.tenant != ten || r.page != page } ten page
    fun _ => { cause := 0x41, info0 := sub, aux := dw dev }

/-- A park on an invalid leaf: to the owning peer, or to system software. -/
def askOwner (s : State) (ten page level : Nat) : State :=
  if s.remotes.any fun r => r.tenant == ten && r.page == page then s
  else
    let shelf := pageHome s ten (page * 65536)
    match ownerOf s shelf ten (page * 65536) with
    | none => unresolved s ten page level
    | some dev =>
      if dev = Config.ownDevice then unresolved s ten page level
      else if (slotOf s shelf dev).isNone then remoteFail s ten page dev 3
      else { s with remotes := s.remotes ++ [⟨ten, page, dev, s.clk, shelf⟩] }

/-- FAULT_UNIT_MIGRATE: the parks on a page are one request: its move goes on, or starts, or its accesses may replay, or another
party is asked. A failed move waits for system software. -/
def faultUnit (t va : Nat) (s : State) : State :=
  let page := va / 65536
  match findMigr s t page with
  | some m => if m.failed then s else migrFinish s m
  | none =>
    if !parkedOn s t page then s
    else
      match homeWalk s t va with
      | .invalid l => askOwner s t page l
      | .bad _ => markReady s t (· == page)
      | .leaf e g =>
        if (leafBad e g).isSome || leafKEY e ≠ t || leafSTATE e = 0 then markReady s t (· == page)
        else if leafSTATE e = 1 then migrStart s { tenant := t, page := page, kind := 0, leaf := e, failed := false, mb := false }
        else s

/-- PAGE_REVIVE: a write has met a discarded page (R305). -/
def pageRevive (t va : Nat) (s : State) : State :=
  let page := va / 65536
  match findMigr s t page with
  | some m => if m.failed || m.kind ≠ 3 then s else migrFinish s m
  | none =>
    match homeWalk s t va with
    | .leaf e g =>
      if parkedOn s t page && (leafBad e g).isNone && leafKEY e = t && leafSTATE e = 2 then
        migrStart s { tenant := t, page := page, kind := 3, leaf := e, failed := false, mb := false }
      else s
    | _ => s

/-- An answer of the fault unit to a peer, over channel 3 (DESIGN CHOICE, log entry 34). -/
def answerPeer (s : State) (t page : Nat) (leaf : Option DWord) : State := { s with answers := s.answers ++ [⟨t, page, leaf⟩] }

/-- REMOTE_HOME_REQUEST: a peer asks for a page of ours. It is promoted or revived first where it needs to be, and the reply carries its
leaf's attributes and frame; where the address cannot be resolved here it is a refusal (R306). -/
def remoteRequest (t va : Nat) (s : State) : State :=
  let page := va / 65536
  match findMigr s t page with
  | some m => if m.failed then answerPeer s t page none else migrFinish s m
  | none =>
    match homeWalk s t va with
    | .leaf e g =>
      if (leafBad e g).isSome || leafKEY e ≠ t then answerPeer s t page none
      else if leafSTATE e = 1 then migrStart s { tenant := t, page := page, kind := 0, leaf := e, failed := false, mb := false }
      else if leafSTATE e = 2 then migrStart s { tenant := t, page := page, kind := 3, leaf := e, failed := false, mb := false }
      else answerPeer s t page (some (putFld e 35 0 (leafPA e g va / 65536)))
    | _ => answerPeer s t page none

/-- A leaf with a peer's attributes: the frame in the peer window, LAY 0, TIER 0 (R293, R306). -/
def peerLeaf (leaf : DWord) (slot : Nat) : DWord :=
  let pa := 2 ^ 51 + slot * 2 ^ 45 + leafPFN leaf * 65536 % 2 ^ 45
  putFld (putFld (putFld (putFld leaf 63 62 2) 58 57 0) 56 54 0) 35 0 (pa / 65536)

/-- REMOTE_HOME_REPLY: a peer-window leaf is written and the parks are ready, or the owner refused (cause 0x41, 1). -/
def remoteReply (t va : Nat) (ok : Bool) (leaf : DWord) (s : State) : State :=
  let page := va / 65536
  match s.remotes.find? fun r => r.tenant == t && r.page == page with
  | none => s
  | some r =>
    if !ok then remoteFail s t page r.dev 1
    else
      match slotOf s r.shelf r.dev, leafAddr s r.shelf t va with
      | none, _ => remoteFail s t page r.dev 3
      | some _, none => remoteFail s t page r.dev 1
      | some n, some (a, _) =>
        let s := { s with remotes := s.remotes.filter fun r => r.tenant != t || r.page != page }
        markReady (applyWrite (reachHome s a 8) (atAddr a (bytesOf 8 (peerLeaf leaf n).toNat))) t (· == page)

/-- REMOTE_HOME_TIMEOUT: no reply within 1 ms (cause 0x41, 2). -/
def remoteTimeout (t va : Nat) (s : State) : State :=
  let page := va / 65536
  match s.remotes.find? fun r => r.tenant == t && r.page == page with
  | some r => if r.at0 + 1000 * Config.clkPerUs ≤ s.clk then remoteFail s t page r.dev 2 else s
  | none => s

/-! Retired frames (R377). -/

/-- The 64 KiB unit of a table at `level` whose leaf maps a frame: its virtual address below `va`. -/
def searchTable (s : State) (pfn : Nat) : Nat → Nat → Nat → Option Nat
  | 0, base, va =>
    (List.range 2048).findSome? fun i =>
      let e := dw (homeNat s (base + 8 * i) 8)
      if ptV e && leafPFN e == pfn then some (va + i * 65536) else none
  | l + 1, base, va =>
    (List.range 2048).findSome? fun i =>
      let e := dw (homeNat s (base + 8 * i) 8)
      let at_ := va + i * 2 ^ (16 + 11 * (l + 1))
      if !ptV e then none
      else if !ptL e then searchTable s pfn l (fld e 51 14 * 2 ^ 14) at_
      else if l = 0 && decide (leafPFN e ≤ pfn) && decide (pfn < leafPFN e + 2048) then some (at_ + (pfn - leafPFN e) * 65536)
      else none

/-- The mapping of a frame: tenant and virtual address, by the tables of either shelf. -/
def frameMapping (s : State) (pfn : Nat) : Option (Nat × Nat) :=
  (List.range (2 * Config.tenants)).findSome? fun i =>
    let root := shelfReg s (i % 2) 0x11 (i / 2)
    if fbit root 0 then (searchTable s pfn 3 (fld root 51 14 * 2 ^ 14) 0).map fun va => (i / 2, va) else none

/-- FRAME_RETIRE: the page of a frame whose errors ask for it moves to another frame of its tier, and the frame is never handed out
again; not before READY (R398). A 1 GiB page never moves (R294): its frame is only reported (DESIGN CHOICE, log entry 144). -/
def frameRetire (pfn : Nat) (s : State) : State :=
  if !s.boot.ready || s.retired.contains pfn || !s.failing.contains pfn then s
  else
    match s.migrs.find? fun m => m.kind == 4 && m.frame == pfn with
    | some m => if m.failed then s else migrFinish s m
    | none =>
      match frameMapping s pfn with
      | none => retireReport { s with retired := s.retired ++ [pfn] } pfn none 0
      | some (t, va) =>
        match homeWalk s t va with
        | .leaf e false =>
          if (findMigr s t (va / 65536)).isSome then s
          else migrStart s { tenant := t, page := va / 65536, kind := 4, leaf := e, failed := false, mb := false, frame := pfn }
        | .leaf _ true => retireReport { s with retired := s.retired ++ [pfn] } pfn (some t) pfn
        | _ => s

/-- TLBINV_GO (R297, Table 14.6). -/
def execTlbinvGo (v : DWord) (s : State) : Out := .next (tlbinvWrite v s)

/-- TLBINV_COMPLETE (R297). -/
def execTlbinvComplete (s : State) : Out := .next (tlbinvComplete s)

/-- FAULT_UNIT_MIGRATE (R302, R306, R375). -/
def execFaultUnitMigrate (t : Nat) (va : Nat) (s : State) : Out := .next (faultUnit t va s)

/-- PAGE_REVIVE (R305). -/
def execPageRevive (t : Nat) (va : Nat) (s : State) : Out := .next (pageRevive t va s)

/-- REMOTE_HOME_REQUEST (R306). -/
def execRemoteHomeRequest (t : Nat) (va : Nat) (s : State) : Out := .next (remoteRequest t va s)

/-- REMOTE_HOME_REPLY (R306). -/
def execRemoteHomeReply (t : Nat) (va : Nat) (ok : Bool) (leaf : DWord) (s : State) : Out := .next (remoteReply t va ok leaf s)

/-- REMOTE_HOME_TIMEOUT (R374). -/
def execRemoteHomeTimeout (t : Nat) (va : Nat) (s : State) : Out := .next (remoteTimeout t va s)

/-- FRAME_RETIRE (R377). -/
def execFrameRetire (pfn : Nat) (s : State) : Out := .next (frameRetire pfn s)

end Sys2Proof.Machine
end

