-- ==== Sys2Proof/Machine/Debug.lean ====
section
/-! DEFINITION. Debugging from outside: WCTL and WSTAT (R317, R410). -/

namespace Sys2Proof.Machine

/-- Fields of WCTL (Table 15.5). -/
def wctlTen (x : DWord) : Nat := fld x 23 20
/-- The named slot. -/
def wctlSlot (s : State) (c : Nat) (x : DWord) : Option Warp :=
  (warpAt s c (fld x 19 18) (fld x 17 14)).filter fun w => w.uid != 0 && tenantOf s w == wctlTen x

/-- A refused action: ERR is set. -/
def wctlRefuse (s : State) (c : Nat) : State := coreRegPut s c 0x44 0 (putFld (coreReg s c 0x44 0) 62 62 1)

/-- Writing WCTL's fields without its action; ERR is write-one-to-clear, BUSY stays. -/
def wctlFields (s : State) (c : Nat) (v : DWord) : State :=
  let old := coreReg s c 0x44 0
  let err := if fbit v 62 then 0 else fld old 62 62
  coreRegPut s c 0x44 0 (dw (fld old 63 63 * 2 ^ 63 + err * 2 ^ 62 + fld v 23 12 * 2 ^ 12))

/-- Ending the handler of a trapped warp without a return; a trap that no handler has taken yet goes to system software's queue (R350). -/
def endHandler (s : State) (w : Warp) : State :=
  match s.allWarps.find? fun h => h.handler && h.serves == w.uid with
  | some h => dropHandler s h
  | none =>
    match w.trap with
    | some t => if t.phase = 0 then eqAppend s (reportQueue t.record) t.record else s
    | none => s

/-- At resume the warp's reported parks are looked at again (R375): ready where a valid leaf stands now, else asked for and
reported once more; its reported engine tiles are translated afresh. -/
def retryParks (s : State) (uid : Nat) : State :=
  match findWarp s uid with
  | none => s
  | some w =>
    let ten := tenantOf s w
    let valid := fun (e : LogEntry) => match walk s (coreShelf w.core) ten e.va.toNat with
      | .invalid _ => false
      | _ => true
    let again := fun (e : LogEntry) =>
      if e.st == 0 && e.reported then (if valid e then { e with st := 2, reported := false } else { e with reported := false }) else e
    let s := putWarp s { w with olog := w.olog.map again }
    { s with cmds := s.cmds.map fun c =>
        if c.warp == uid then { c with parks := c.parks.map fun p => { p with reported := false } } else c }

/-- The action under way at a core (R317), with the fields that name its warp: 1 resume, 2 kill, 0 none; BUSY shows it. -/
def wctlPending (s : State) (c n : Nat) (x : DWord) : State :=
  let s := coreRegPut s c 0x44 0 (putFld (coreReg s c 0x44 0) 63 63 (if n = 0 then 0 else 1))
  { s with wctl := nset 0 s.wctl c (if n = 0 then 0 else 2 ^ 24 * n + fld x 23 0) }

/-- Resume: as TRET does, after steps 1 to 3 of R73 at .block (R313, R314) (DEDUCED, log entry 92); not yet while the stop's own steps (R311)
or entries that it raises are on their way. -/
def resumeTry (s : State) (w : Warp) : State × Bool :=
  let lvl := scopeLevel s w 2
  let s := raiseEntries s w.core lvl
  if waitingEntries s w.core lvl || !(w.trap.all fun t => stopReady s w t) then (s, false)
  else
    let w := match w.trap with
      | some t => released t.stopped [2] s.order w
      | none => w
    (retryParks (resumeTrap (endHandler s w) w) w.uid, true)

/-- Dropping a killed warp's engine commands that have a parked tile, and what it holds for a page at issue: their tiles are released
without credit (R375, DEDUCED, log entry 111). -/
def dropParked (s : State) (uid : Nat) : State :=
  let gone := s.cmds.filter fun c => c.warp == uid && !c.parks.isEmpty
  let s := gone.foldl (fun s c => dropCmd (releaseTiles s c.tiles) c) s
  { s with wants := s.wants.filter fun x => x.warp != uid }

/-- Kill: every live thread exits; the log's entries go, their tiles released without credit (R375). Not yet while a round that it would
close waits for the column store (R197). -/
def killTry (s : State) (w : Warp) : State × Bool :=
  match exitLanes s w w.live with
  | none => (s, false)
  | some s' =>
    let s' := endHandler s' w
    let s' := (lanesOf w.live).foldl (fun s l => leaveWatch s w.uid l) s'
    let s' := releaseTiles s' (w.olog.flatMap (·.tiles))
    match findWarp s' w.uid with
    | none => (s', true)
    | some w' =>
      let left := w'.pend.filter fun p => !w.olog.any fun e => e.src == p.src
      let s' := dropParked s' w.uid
      (putWarp s' { w' with trap := none, run := none, paused := [], olog := [], halt := false, pend := left }, true)

/-- Resume or kill of the warp in the named slot: refused where it is not stopped; BUSY until it is done (DESIGN CHOICE, log entry 130). -/
def wctlAct (try_ : State → Warp → State × Bool) (n c : Nat) (s : State) : State :=
  let under := nget 0 s.wctl c
  let x := if under = 0 then coreReg s c 0x44 0 else dw under
  if under ≠ 0 && under / 2 ^ 24 ≠ n then s
  else
    match wctlSlot s c x with
    | none => wctlPending (wctlRefuse s c) c 0 x
    | some w =>
      if w.trap.isNone then wctlPending (wctlRefuse s c) c 0 x
      else
        let y := try_ s w
        wctlPending y.1 c (if y.2 then 0 else n) x

/-- Resume. -/
def wctlResume (c : Nat) (s : State) : State := wctlAct resumeTry 1 c s

/-- Kill. -/
def wctlKill (c : Nat) (s : State) : State := wctlAct killTry 2 c s

/-- Halt: the lanes that do not wait stop at the next clause boundary. -/
def wctlHalt (c : Nat) (s : State) : State :=
  match wctlSlot s c (coreReg s c 0x44 0) with
  | none => wctlRefuse s c
  | some w => putWarp s { w with halt := true }

/-- Step on: depths start at 0; refused where TRAPCFG forbids stepping. -/
def wctlStepOn (c : Nat) (s : State) : State :=
  let x := coreReg s c 0x44 0
  match wctlSlot s c x with
  | none => wctlRefuse s c
  | some w =>
    if !trapCfg s w 18 then wctlRefuse s c
    else putWarp s { w with step := true, stepm := BitVec.ofNat 2 (fld x 13 12), depth := [] }

/-- Step off. -/
def wctlStepOff (c : Nat) (s : State) : State :=
  match wctlSlot s c (coreReg s c 0x44 0) with
  | none => wctlRefuse s c
  | some w => putWarp s { w with step := false }

/-- A write to WCTL: its fields, then its action, which is refused while another is under way (DESIGN CHOICE, log entry 130). -/
def wctlWrite (c : Nat) (v : DWord) (s : State) : State :=
  let s := wctlFields s c v
  if fld v 3 0 ≠ 0 && nget 0 s.wctl c ≠ 0 then wctlRefuse s c else
  match fld v 3 0 with
  | 0 => s
  | 1 => wctlResume c s
  | 2 => wctlKill c s
  | 3 => wctlHalt c s
  | 4 => wctlStepOn c s
  | 5 => wctlStepOff c s
  | _ => wctlRefuse s c

/-- What WSTAT reads (Table 15.7). -/
def wstatRead (s : State) (c i : Nat) : DWord :=
  match warpAt s c (i / 16) (i % 16) with
  | none => 0
  | some w =>
    if w.uid = 0 then 0
    else
      let bit := fun (b : Bool) k => if b then 2 ^ k else 0
      let que := ((ctxOf s w).map (·.queue)).getD 0
      dw (2 ^ 63 + tenantOf s w % 16 * 2 ^ 59 + que % 8 * 2 ^ 56 + w.wid % 256 * 2 ^ 48 + w.bid % 16 * 2 ^ 44 +
        bit ((w.trap.map fun t => t.stopped != 0).getD false) 43 + bit w.step 42 +
        bit ((lanesOf w.live).any fun l => (nget none w.park l).isSome) 41)

/-- WCTL_RESUME (R317, R375). -/
def execWctlResume (c : Nat) (s : State) : Out := .next (wctlResume c s)

/-- WCTL_KILL (R317, R375). -/
def execWctlKill (c : Nat) (s : State) : Out := .next (wctlKill c s)

/-- WCTL_HALT (R317). -/
def execWctlHalt (c : Nat) (s : State) : Out := .next (wctlHalt c s)

/-- WCTL_STEP_ON (R317). -/
def execWctlStepOn (c : Nat) (s : State) : Out := .next (wctlStepOn c s)

/-- WCTL_STEP_OFF (R317). -/
def execWctlStepOff (c : Nat) (s : State) : Out := .next (wctlStepOff c s)

end Sys2Proof.Machine
end

