-- ==== Sys2Proof/Machine/Loader.lean ====
section
/-! DEFINITION. The Ovjan loader (R129 to R132, R364): an object's checks and relocations, and its refusals. The loader runs on the
host and acts on the module through the mailbox alone, so it changes no State: it answers the bytes to place, or a record. -/

namespace Sys2Proof.Machine

/-- A relocation of an object, its index within its section, its symbol's value where it is defined (Table 6.17). -/
structure Reloc where
  idx : Nat
  typ : Nat
  place : Nat
  sym : Option Nat
  addend : Int
  /-- The symbol's name. -/
  name : List Byte := []
  deriving DecidableEq, Repr

/-- A refusal: the record of Table 20.9, which holds the relocation's index and the computed value, or the header's offset and field; and
the symbol's name (R132). -/
structure LoadRefused where
  rep : Report
  name : List Byte
  deriving DecidableEq, Repr

/-- An object: its ELF header's 64 bytes, its bytes at the addresses it is placed at, the end of .ovtext, the addresses of its
kernel headers, its relocations in section order and index order. -/
structure Object where
  elf : List Byte
  image : NMap Byte
  textEnd : Nat
  headers : List Nat
  relocs : List Reloc
  deriving DecidableEq, Repr

/-- A level entry of a kernel header: domain and scope. -/
def lvltEntry (h : List DWord) (i : Nat) : Nat := fld (wordAt h 2) (6 * i + 9) (6 * i + 4)

/-- The defects of a kernel header (R132, Table 6.16): the word and the low bit of the field. -/
def headerDefects (h : List DWord) : List (Nat × Nat) :=
  let w := wordAt h
  let bad := fun (b : Bool) (k lo : Nat) => if b then [(k, lo)] else []
  bad (fld (w 0) 31 0 != 0x314B564F) 0 0 ++ bad (fld (w 0) 39 32 != 1) 0 32 ++ bad (decide (128 < fld (w 0) 55 48)) 0 48 ++
    bad (fld (w 0) 63 59 != 0) 0 59 ++ bad (decide (0x200000 < fld (w 1) 21 0)) 1 0 ++ bad (fld (w 1) 31 22 != 0) 1 22 ++
    bad (decide (0x400000 < fld (w 1) 54 32)) 1 32 ++ bad (fld (w 1) 63 55 != 0) 1 55 ++
    bad (fld (w 2) 3 0 == 0 || decide (8 < fld (w 2) 3 0)) 2 0 ++ bad (lvltEntry h 0 == 0x38) 2 4 ++
    ((List.range 8).flatMap fun i => bad (decide (fld (w 2) 3 0 ≤ i) && lvltEntry h i != 0) 2 (6 * i + 4)) ++
    bad (fld (w 2) 63 52 != 0) 2 52 ++ bad (fld (w 3) 15 6 != 0) 3 6 ++ bad (fld (w 3) 23 19 != 0) 3 19 ++ bad (fbit (w 3) 31) 3 31 ++
    bad (fld (w 3) 47 32 != 0) 3 32 ++ bad (fld (w 3) 63 48 != 0) 3 48 ++ bad (decide (8 < fld (w 5) 3 0)) 5 0 ++
    bad (decide (16 < fld (w 5) 8 4)) 5 4 ++ bad (fld (w 5) 15 9 != 0) 5 9 ++ bad (decide (0x10000 < fld (w 5) 32 16)) 5 16 ++
    bad (fld (w 5) 63 33 != 0) 5 33 ++ bad (fld (w 6) 63 32 != 0) 6 32 ++ bad (w 7 != 0) 7 0

/-- A field of the ELF header and the values that the loader accepts there (R129): ELFCLASS64, ELFDATA2LSB, OSABI 0, ET_EXEC or
ET_DYN, machine 0x5A48, flags 1. The offsets and the codes of the named values are those of ELF (PRESUMED, log entry 116). -/
def elfFields : List (Nat × Nat × List Nat) :=
  [(4, 1, [2]), (5, 1, [1]), (7, 1, [0]), (16, 2, [2, 3]), (18, 2, [0x5A48]), (48, 4, [1])]

/-- The refusal of the ELF header: offset and value. -/
def elfBad (elf : List Byte) : Option (Nat × Nat) :=
  let val := fun (f : Nat × Nat × List Nat) => ofBytes ((elf.drop f.1).take f.2.1)
  (elfFields.find? fun f => !f.2.2.contains (val f)).map fun f => (f.1, val f)

/-- Bits that a relocation writes from bit 0 of its place on (Table 6.17). -/
def Reloc.bits (r : Reloc) : Nat := [0, 64, 32, 20, 16, 8].getD r.typ 0

/-- The multiple that its place has to be. -/
def Reloc.align (r : Reloc) : Nat := [1, 8, 4, 4, 4, 4].getD r.typ 1

/-- The value of a relocation whose symbol is defined. -/
def Reloc.value (r : Reloc) (sym : Nat) : Int := sym + r.addend - (if r.typ = 2 then r.place else 0)

/-- Whether a value lies in its type's range. -/
def Reloc.fits (r : Reloc) (v : Int) : Bool :=
  match r.typ with
  | 1 => decide (0 ≤ v) && decide (v < 2 ^ 60)
  | 2 => decide (-2 ^ 31 ≤ v) && decide (v < 2 ^ 31)
  | 3 => decide (0 ≤ v) && decide (v < 2 ^ 20)
  | 4 => decide (0 ≤ v) && decide (v < 2 ^ 16)
  | 5 => decide (0 ≤ v) && decide (v < 16)
  | _ => true

/-- Whether two relocations touch a common bit. -/
def Reloc.overlaps (r q : Reloc) : Bool :=
  r.bits != 0 && q.bits != 0 && decide (8 * r.place < 8 * q.place + q.bits) && decide (8 * q.place < 8 * r.place + r.bits)

/-- The refusal of a relocation, in the order of R132, against those applied before it (Table 20.9; PRESUMED, log entry 116). -/
def relocBad (before : List Reloc) (r : Reloc) : Option Report :=
  let rep : Report := { cause := 0, addr := dw r.place, asp := 1, info0 := r.typ, info1 := r.idx, src := 7, sev := 1 }
  match r.sym.map r.value, before.find? r.overlaps with
  | some v, q =>
    if !r.fits v then some { rep with cause := 0x11, aux := BitVec.ofInt 64 v }
    else if r.place % r.align ≠ 0 then some { rep with cause := 0x12, aux := dw r.place }
    else if 6 ≤ r.typ then some { rep with cause := 0x13 }
    else q.map fun q => { rep with cause := 0x14, info0 := min q.idx r.idx, info1 := max q.idx r.idx, aux := dw r.place }
  | none, q =>
    if r.place % r.align ≠ 0 then some { rep with cause := 0x12, aux := dw r.place }
    else if 6 ≤ r.typ then some { rep with cause := 0x13 }
    else match q with
      | some q => some { rep with cause := 0x14, info0 := min q.idx r.idx, info1 := max q.idx r.idx, aux := dw r.place }
      | none => some { rep with cause := 0x15 }

/-- Applying a relocation: the other bits of the word keep their values (R131). -/
def relocApply (m : NMap Byte) (r : Reloc) : NMap Byte :=
  let n := (r.bits + 31) / 32 * 4
  let old := ofBytes (ngetRange 0 m r.place n)
  let v := (r.value (r.sym.getD 0) % (2 ^ r.bits : Nat)).toNat
  nsetRange 0 m r.place (bytesOf n (old / 2 ^ r.bits * 2 ^ r.bits + v))

/-- The refusal of a kernel header: its fields, then its code against the end of .ovtext. -/
def kernelBad (m : NMap Byte) (textEnd at_ : Nat) : Option Report :=
  let h := (List.range 8).map fun k => dw (ofBytes (ngetRange 0 m (at_ + 8 * k) 8))
  let rep : Report := { cause := 0x16, addr := dw at_, asp := 1, src := 7, sev := 1 }
  let code := fld (wordAt h 6) 31 0
  match headerDefects h with
  | (k, lo) :: _ => some { rep with info0 := k, info1 := lo, aux := wordAt h k }
  | [] => if textEnd < at_ + 64 + code then some { rep with cause := 0x17, aux := dw code } else none

/-- The relocations, one after another. -/
def applyRelocs (m : NMap Byte) (before : List Reloc) : List Reloc → Except LoadRefused (NMap Byte)
  | [] => .ok m
  | r :: t =>
    match relocBad before r with
    | some e => .error ⟨e, r.name⟩
    | none => applyRelocs (relocApply m r) (r :: before) t

/-- Loading an object: the bytes to place, or the first refusal; a refusal places nothing (R132). -/
def loadObject (o : Object) : Except LoadRefused (NMap Byte) :=
  match elfBad o.elf with
  | some (off, v) => .error ⟨{ cause := 0x10, asp := 1, info0 := off, aux := dw v, src := 7, sev := 1 }, []⟩
  | none =>
    match applyRelocs o.image [] o.relocs with
    | .error e => .error e
    | .ok m =>
      match o.headers.findSome? (kernelBad m o.textEnd) with
      | some e => .error ⟨e, []⟩
      | none => .ok m

/-- The record that the loader returns to its caller, SEQ and TIME zero; it enters no queue (R364). -/
def loaderRecord (ten : Nat) (r : Report) : List DWord :=
  [recWord0 0 ten 0 { r with defd := true }, 0, 0, r.addr, dw (r.info1 % 2 ^ 32 * 2 ^ 32 + r.info0 % 2 ^ 30 * 4 + r.asp % 4), 0, r.aux]

end Sys2Proof.Machine
end

