-- ==== Sys2Proof/Machine/Place.lean ====
section
/-! DEFINITION. Where a cluster may lie: what cores hold, and the placements that R283 allows (R27 to R31, R48, R49, R282). -/

namespace Sys2Proof.Machine

/-- What a block and a cluster need (R27 to R29, R31, R48, R226). -/
structure Needs where
  /-- Member cores of the cluster, and cores of a block. -/
  nc : Nat
  n : Nat
  /-- Warps of a block, and the most on one of its cores. -/
  warps : Nat
  per : Nat
  /-- Vector registers of a warp, a multiple of 8; resident warps of this kernel that a core holds. -/
  regs : Nat
  limit : Nat
  /-- Pool bytes of each member, column-store bytes of each column, chain slots of a block. -/
  pool : Nat
  cols : Nat
  chn : Nat
  deriving DecidableEq, Repr

/-- Rounding up. -/
def ceilDiv (a b : Nat) : Nat := (a + b - 1) / b

/-- The needs of a launch. -/
def needsOf (r h : List DWord) : Needs :=
  let g := ceilDiv (fld (wordAt h 0) 47 40 + 1) 8 * 8
  let limit := min 64 (8192 / g)
  let poolb := fld (wordAt h 1) 21 0
  let n := max (ceilDiv (recWarps r) limit) (ceilDiv poolb Config.poolBytes)
  { nc := recNblk r * n, n := n, warps := recWarps r, per := ceilDiv (recWarps r) (max 1 n), regs := g, limit := limit
    pool := ceilDiv (ceilDiv poolb (max 1 n)) 1024 * 1024
    cols := ceilDiv (ceilDiv (fld (wordAt h 1) 54 32) 64) 256 * 256, chn := fld (wordAt h 5) 3 0 }

/-- Warps on core `j` of a block (R27). -/
def Needs.onCore (x : Needs) (j : Nat) : Nat := min x.per (x.warps - j * x.per)

/-- The needs of a launch that the module holds. -/
def needsOfCtx (s : State) (ctx : Nat) : Needs :=
  match findCtx s ctx with
  | some c => needsOf c.record c.khdr
  | none => ⟨0, 0, 0, 0, 0, 0, 0, 0, 0⟩

/-! What cores hold. -/

/-- A cluster's hold on its cores: its pool window. -/
structure Window where
  cores : List Nat
  lo : Nat
  hi : Nat
  deriving DecidableEq, Repr

/-- A block's hold on its cores, until its cluster retires: warps, registers, chain slots, a column-store range. -/
structure Stand where
  cores : List Nat
  x : Needs
  cb : Nat
  deriving DecidableEq, Repr

/-- What the cores of the device hold: windows, blocks, and the cores that have a warp. -/
structure Occ where
  windows : List Window := []
  stands : List Stand := []
  busy : List Nat := []
  deriving DecidableEq, Repr

/-- What the cores hold now. -/
def occOf (s : State) : Occ :=
  { windows := s.clusters.map fun c => ⟨c.cores, c.pbase, c.plim⟩
    stands := s.blocks.map fun b => ⟨b.cores, needsOfCtx s b.ctx, b.cbase⟩
    busy := ((s.allWarps.filter fun w => w.uid != 0).map (·.core)).eraseDups }

/-- Warps that a block has on a core. -/
def Stand.warpsOn (b : Stand) (core : Nat) : Nat := b.x.onCore ((findIdx (· == core) b.cores).getD 0)

/-- Whether two ranges of offsets share a byte. -/
def meets (a n b m : Nat) : Bool := decide (a < b + m) && decide (b < a + n) && n != 0 && m != 0

/-- Whether a core can hold member `i` of a cluster with its pool window at `pb` and its block's column-store range at `cb`. -/
def Occ.fits (o : Occ) (x : Needs) (pb cb core i : Nat) : Bool :=
  let bs := o.stands.filter fun b => b.cores.contains core
  let w := x.onCore (i % max 1 x.n)
  decide ((bs.map fun b => b.warpsOn core).sum + w ≤ 64) &&
    decide ((bs.map fun b => b.warpsOn core * b.x.regs).sum + w * x.regs ≤ 8192) &&
    decide ((bs.map fun b => b.x.chn).sum + x.chn ≤ 8) &&
    ((o.windows.filter fun c => c.cores.contains core).all fun c => !meets pb x.pool c.lo (c.hi - c.lo)) &&
    bs.all fun b => !meets cb x.cols b.cb b.x.cols

/-! Ways to take cores. -/

/-- Where a cluster may lie: the coves, and of each the members it holds, first and one beyond the last. -/
abbrev Region := List (Nat × Nat × Nat)

/-- Cores of a cove (Table 1.2). -/
def coveCores (k : Nat) : List Nat := (List.range 12).map (12 * k + ·)

/-- The cores of a region in order, each with the members it may be. -/
def regionCores (r : Region) : List (Nat × Nat × Nat) := r.flatMap fun p => (coveCores p.1).map fun c => (c, p.2)

/-- The elements of a list, each with those beyond it. -/
def tailsOf {α : Type} : List α → List (α × List α)
  | [] => []
  | a :: t => (a, t) :: tailsOf t

/-- The facing pairs of Table 1.3 that BOND admits. -/
def facingPairs (bond : Nat) : List (Nat × Nat) :=
  (if 1 ≤ bond then [(3, 8), (7, 12), (19, 24), (23, 28)] else []) ++
    if bond = 2 then [(4, 16), (5, 17), (6, 18), (7, 19), (12, 24), (13, 25), (14, 26), (15, 27)] else []

/-- Coves that hold part of a bonded cluster (DEDUCED, log entry 97). -/
def Occ.bondedCoves (o : Occ) : List Nat :=
  o.windows.flatMap fun c =>
    let ks := (c.cores.map coreCove).eraseDups
    if 1 < ks.length then ks else []

/-- The single coves, as regions. -/
def plainRegions (x : Needs) : List Region := (List.range 32).map fun k => [(k, 0, x.nc)]

/-- The facing pairs open to a bonded cluster: a cove belongs to one bonded cluster at a time (R13). -/
def Occ.bondRegions (o : Occ) (x : Needs) (bond : Nat) : List Region :=
  let busy := o.bondedCoves
  ((facingPairs bond).filter fun p => !busy.contains p.1 && !busy.contains p.2).map fun p =>
    [(p.1, 0, (x.nc + 1) / 2), (p.2, (x.nc + 1) / 2, x.nc)]

/-! The placements of a cluster (R283). -/

/-- What is asked for a cluster: its needs, BOND, AFF, its die where the launch has a die level, the pool base that a resumed
cluster keeps (R289) and the column-store bases of its blocks (DEDUCED, log entry 104). -/
structure Ask where
  x : Needs
  bond : Nat
  aff : Nat
  die : Option Nat
  base : Option (Nat × List Nat)
  deriving DecidableEq, Repr

/-- A placement: cores in member order, pool base, column-store base of each block. -/
structure Placed where
  cores : List Nat
  pb : Nat
  cbs : List Nat
  deriving DecidableEq, Repr

/-- Every pool base that a cluster may have. -/
def Ask.poolAll (q : Ask) : List Nat :=
  match q.base with
  | some b => [b.1]
  | none => ((List.range 513).map (1024 * ·)).filter fun b => decide (b + q.x.pool ≤ Config.poolBytes)

/-- Every column-store base that block `i` may have. -/
def Ask.colsAll (q : Ask) (i : Nat) : List Nat :=
  match q.base with
  | some b => [b.2.getD i 0]
  | none => ((List.range 257).map (256 * ·)).filter fun b => decide (b + q.x.cols ≤ 65536)

/-- The pool bases that no window can be lowered from: the start, and where a window ends. Whether a cluster fits is seen at these: a
window that fits elsewhere fits lower down too, as far as one of them. -/
def Occ.poolLow (o : Occ) (q : Ask) : List Nat :=
  match q.base with
  | some b => [b.1]
  | none => ((0 :: o.windows.map fun c => ceilDiv c.hi 1024 * 1024).eraseDups).filter fun b => decide (b + q.x.pool ≤ Config.poolBytes)

/-- The same for column-store ranges. -/
def Occ.colsLow (o : Occ) (q : Ask) (i : Nat) : List Nat :=
  match q.base with
  | some b => [b.2.getD i 0]
  | none => ((0 :: o.stands.map fun b => ceilDiv (b.cb + b.x.cols) 256 * 256).eraseDups).filter fun b => decide (b + q.x.cols ≤ 65536)

/-- The ways to put the next member, in increasing core number: its block's base, chosen with the block's first member, its core, and the
cores beyond. -/
def Occ.ways (o : Occ) (q : Ask) (bases : Nat → List Nat) (rest : List (Nat × Nat × Nat)) (p : Placed) :
    List (Nat × Nat × List (Nat × Nat × Nat)) :=
  let i := p.cores.length
  let n := max 1 q.x.n
  (if i % n = 0 then bases (i / n) else [p.cbs.getLastD 0]).flatMap fun cb =>
    ((tailsOf rest).filter fun e => decide (e.1.2.1 ≤ i) && decide (i < e.1.2.2) && o.fits q.x p.pb cb e.1.1 i).map fun e =>
      (cb, e.1.1, e.2)

/-- A placement with one more member. -/
def Placed.put (p : Placed) (x : Needs) (cb core : Nat) : Placed :=
  { p with cores := p.cores ++ [core], cbs := if p.cores.length % max 1 x.n = 0 then p.cbs ++ [cb] else p.cbs }

/-- Whether the last members can be put on cores of `rest` so that `k` holds of the placement. -/
def Occ.canFrom (o : Occ) (q : Ask) (k : Placed → Bool) : Nat → List (Nat × Nat × Nat) → Placed → Bool
  | 0, _, p => k p
  | m + 1, rest, p => (o.ways q (o.colsLow q) rest p).any fun e =>
      decide (m ≤ e.2.2.length) && o.canFrom q k m e.2.2 (p.put q.x e.1 e.2.1)

/-- Whether the cluster can lie in a region so that `k` holds. -/
def Occ.can (o : Occ) (q : Ask) (k : Placed → Bool) (r : Region) : Bool :=
  (o.poolLow q).any fun pb => o.canFrom q k q.x.nc (regionCores r) ⟨[], pb, []⟩

/-- Dies of a region. -/
def regionDies (r : Region) : List Nat := r.map fun p => p.1 / 8

/-- Rules 1 and 2 on some dies: one cove, and only where none can hold the cluster a facing pair. -/
def Occ.regionsOn (o : Occ) (q : Ask) (bond : Nat) (ok : Nat → Bool) : List Region :=
  let on := fun (rs : List Region) => rs.filter fun r => (regionDies r).all ok && o.can q (fun _ => true) r
  let a := on (plainRegions q.x)
  if a.isEmpty then on (o.bondRegions q.x bond) else a

/-- The regions for a cluster: on its die, else on AFF's dies, else, where more than 96 cores hold no warp, on any
(DEDUCED, log entry 98). -/
def Occ.regions (o : Occ) (q : Ask) : List Region :=
  match q.die with
  | some d => o.regionsOn q 0 (· == d)
  | none =>
    if q.aff = 0 then o.regionsOn q q.bond fun _ => true
    else
      let a := o.regionsOn q q.bond fun d => q.aff.testBit d
      if a.isEmpty && decide (96 + o.busy.length < Config.cores) then o.regionsOn q q.bond fun _ => true else a

/-- The cores with a cluster placed. -/
def Occ.add (o : Occ) (x : Needs) (p : Placed) : Occ :=
  let n := max 1 x.n
  { windows := o.windows ++ [⟨p.cores, p.pb, p.pb + x.pool⟩]
    stands := o.stands ++ (List.range p.cbs.length).map fun b => ⟨(p.cores.drop (b * n)).take n, x, p.cbs.getD b 0⟩
    busy := (o.busy ++ ((List.range p.cores.length).filter fun i => 0 < x.onCore (i % n)).map fun i => p.cores.getD i 0).eraseDups }

/-- Whether clusters can be placed one after another (R282). -/
def Occ.canAll : List Ask → Occ → Bool
  | [], _ => true
  | q :: t, o => (o.regions q).any (o.can q fun p => Occ.canAll t (o.add q.x p))

/-- The regions for a cluster that leave room for those that have to follow. -/
def Occ.regionsBefore (o : Occ) (q : Ask) (t : List Ask) : List Region := (o.regions q).filter (o.can q fun p => (o.add q.x p).canAll t)

/-- What cluster `num` of a launch asks for on its dies. -/
def askOf (r h : List DWord) (dies : List Nat) (num : Nat) : Ask :=
  { x := needsOf r h, bond := recBond r, aff := recAff r
    die := if hasDom r 2 then some (dies.getD (num / max 1 (clustersPerDie r)) 4) else none, base := none }

end Sys2Proof.Machine
end

