-- ==== Sys2Proof/Machine/Launch.lean ====
section
/-! DEFINITION. Launch records: reading, refusing, starting and completing launches (R275 to R279, R282, R391, R392). -/

namespace Sys2Proof.Machine

/-! What the scheduler reads (R276 to R278). -/

/-- Bytes as the scheduler and the loader find them: there, or on a page that moves first, or not readable. -/
inductive View where
  | ok (bs : List Byte)
  | move (va : Nat)
  | bad
  deriving DecidableEq, Repr

/-- The scheduler's translation of a tenant's address by its walk. -/
def schedXlate (s : State) (ten va : Nat) (acc : Acc) : Xlate :=
  match walk s 0 ten va with
  | .leaf e g => leafAccess s 0 ten va acc 1 e g
  | .invalid l => .park l
  | .bad sub => .bad 0x45 sub va 1

/-- Where a page's bytes stand: `inPlace` reads a page in the capacity tier where it is. -/
inductive Place where
  | at (pa : Nat)
  | zeros
  | move
  | bad
  deriving DecidableEq, Repr

/-- The place of one address. -/
def viewPlace (s : State) (ten : Nat) (inPlace : Bool) (va : Nat) : Place :=
  if 2 ^ 60 ≤ va then .bad
  else
    match schedXlate s ten va .read with
    | .ok pa _ => .at pa
    | .zero _ => .zeros
    | .park 4 =>
      (match inPlace, walk s 0 ten va with
       | true, .leaf e g => .at (leafPA e g va)
       | _, _ => .move)
    | _ => .bad

/-- The parts of [va, va + n), one for each 64 KiB unit. -/
def pageParts (va n : Nat) : List (Nat × Nat) :=
  if n = 0 then []
  else
    (List.range ((va + n - 1) / 65536 + 1 - va / 65536)).map fun i =>
      let p := (va / 65536 + i) * 65536
      (max va p, min (va + n) (p + 65536) - max va p)

/-- Coherence-latest bytes of [va, va + n) at their homes; a poisoned sector cannot be read (R382). -/
def viewBytes (s : State) (ten : Nat) (inPlace : Bool) (va n : Nat) : View :=
  (pageParts va n).foldl (fun acc p =>
    match acc with
    | .ok bs =>
      (match viewPlace s ten inPlace p.1 with
       | .at pa => if poisonedAt s pa p.2 then .bad else .ok (bs ++ homeBytes s pa p.2)
       | .zeros => .ok (bs ++ List.replicate p.2 0)
       | .move => .move p.1
       | .bad => .bad)
    | x => x) (.ok [])

/-- The same read at its homes: misses fill the sectors that it asks for (R55). -/
def viewFill (s : State) (ten va n : Nat) : State :=
  (pageParts va n).foldl (fun t p =>
    match viewPlace s ten false p.1 with
    | .at pa => fillBytes t pa p.2
    | _ => t) s

/-- Bytes read in place, or none (DEDUCED, log entry 94). -/
def viewInPlace (s : State) (ten va n : Nat) : Option (List Byte) :=
  match viewBytes s ten true va n with
  | .ok bs => some bs
  | _ => none

/-- Moving a page that the scheduler, the fault unit or a counter needs: promoted from STATE 1, revived from STATE 2. -/
def needPage (s : State) (ten va : Nat) : State :=
  if (findMigr s ten (va / 65536)).isSome then s
  else
    match walk s 0 ten va with
    | .leaf e _ =>
      if leafSTATE e = 1 then migrStart s { tenant := ten, page := va / 65536, kind := 0, leaf := e, failed := false, mb := false }
      else if leafSTATE e = 2 then migrStart s { tenant := ten, page := va / 65536, kind := 3, leaf := e, failed := false, mb := false }
      else s
    | _ => s

/-! The checks of a record (R277, R392). -/

/-- Why a launch is refused: cause, INFO0, INFO1, and AUX where it is not the slot's address. -/
structure Refuse where
  cause : Nat
  info0 : Nat
  info1 : Nat
  aux : Option DWord := none
  deriving DecidableEq, Repr

/-- A refusal of Table 24.2 (DEDUCED, log entry 93). -/
def refuse (sub word : Nat) : Refuse := { cause := 0x65, info0 := sub, info1 := word }

/-- A refusal where a condition holds. -/
def refuseIf (c : Bool) (r : Refuse) : Option Refuse := if c then some r else none

/-- The reserved bits of record word `i` (Table 13.4). -/
def recReserved (i : Nat) (w : DWord) : Bool :=
  match i with
  | 0 | 1 | 7 => fld w 63 60 != 0
  | 2 => fld w 63 61 != 0 || fld w 16 4 != 0
  | 3 => fld w 31 0 != 0
  | 4 => fld w 63 48 != 0
  | 8 | 10 | 12 | 14 => fld w 62 60 != 0
  | _ => decide (16 ≤ i) && w != 0

/-- Whether dependence `j` is valid. -/
def recDv (r : List DWord) (j : Nat) : Bool := fbit (wordAt r (8 + 2 * j)) 63
/-- DADDR of dependence `j`. -/
def recDaddr (r : List DWord) (j : Nat) : Nat := fld (wordAt r (8 + 2 * j)) 59 0
/-- KADDR. -/
def recKaddr (r : List DWord) : Nat := fld (wordAt r 0) 59 0
/-- PADDR. -/
def recPaddr (r : List DWord) : Nat := fld (wordAt r 1) 59 0

/-- Subcode 1: the first word with a reserved field that is not zero. -/
def reservedBad (r : List DWord) : Option Refuse :=
  ((List.range 32).find? fun i => recReserved i (wordAt r i)).map (refuse 1)

/-- Subcode 2: fields outside their limits. -/
def limitBad (r : List DWord) : Option Refuse :=
  (refuseIf (decide (0x10000 < recPsize r) || decide (12 < recNblk r) || decide (8192 < recNthr r) || recBond r == 3) (refuse 2 2)).or
    ((refuseIf (recKaddr r % 64 != 0) (refuse 2 0)).or ((refuseIf (recPaddr r % 16 != 0) (refuse 2 1)).or
      ((refuseIf (recCc r % 8 != 0) (refuse 2 7)).or
        (((List.range 4).find? fun j => recDv r j && recDaddr r j % 8 != 0).map fun j => refuse 2 (8 + 2 * j)))))

/-- Whether a counter's address translates as subcode 9 asks. -/
def counterOk (s : State) (ten va : Nat) (wr : Bool) : Bool :=
  match walk s 0 ten va with
  | .leaf e g =>
    (leafBad e g).isNone && leafKEY e == ten && !(wr && leafRO e) && paLocal (leafPA e g va)
  | _ => false

/-- Subcode 9. -/
def counterBad (s : State) (ten : Nat) (r : List DWord) : Option Refuse :=
  (refuseIf (!counterOk s ten (recCc r) true) (refuse 9 7)).or
    (((List.range 4).find? fun j => recDv r j && !counterOk s ten (recDaddr r j) false).map fun j => refuse 9 (8 + 2 * j))

/-- The header checks of R132 that a header in memory can be put to. -/
def headerBad (h : List DWord) : Bool := !(headerDefects h).isEmpty

/-- Natural scope of a domain (Table 2.3) as a code of Table 0.3. -/
def naturalScope (d : Nat) : Nat :=
  match d with
  | 1 => 5
  | 2 => 4
  | 3 => 3
  | 4 => 2
  | 5 | 6 => 1
  | _ => 0

/-- R33 at one level: the record word that breaks it. -/
def levelWord (r : List DWord) (i : Nat) : Option Nat :=
  let d := recDom r i
  if d = 0 || 6 < recScope r i || recScope r i < naturalScope d || (0 < i && d < recDom r (i - 1)) ||
      (0 < i && d = recDom r (i - 1) && recScope r i ≠ recScope r (i - 1)) || (i = 0 && d ≠ 1) ||
      (i + 1 = recNlvl r && d ≠ 7) then some 4
  else if recExt r i = 0 || (i = 0 && recExt r i ≠ 1) then some (5 + i / 4)
  else none

/-- R33: the level and the record word. -/
def levelsBad (r : List DWord) : Option Refuse :=
  let n := recNlvl r
  let bad := fun l w => some ({ cause := 0x18, info0 := l, info1 := w } : Refuse)
  if n = 0 || 8 < n then bad 0 2
  else
    match (List.range n).find? fun i => (levelWord r i).isSome with
    | some i => bad i ((levelWord r i).getD 4)
    | none =>
      let beyond := (List.range 8).drop n
      match beyond.find? fun i => bitsN (wordAt r 4).toNat (6 * i + 5) (6 * i) ≠ 0 with
      | some i => bad i 4
      | none => (beyond.find? fun i => recExt r i ≠ 0).bind fun i => bad i (5 + i / 4)

/-- Whether the extents of a domain multiply to its instances (R34, R407). -/
def domainOk (r : List DWord) (d : Nat) : Bool :=
  let p := domProd r d
  let e := enclosing r d
  if d = 1 then p == 1
  else if d = 2 then decide (p ≤ 4)
  else if d = 6 && !([1, 2, 4, 8, 16] : List Nat).contains p then false
  else if e ≤ 2 then p % perCluster r d == 0
  else if d = 7 && e = 6 then p == tileSize r
  else if d = 7 && e = 5 then p == 32
  else p * perCluster r e == perCluster r d

/-- R34 and R407: the first level of the first domain whose extents do not multiply out. -/
def extentsBad (r : List DWord) : Option Refuse :=
  (((List.range 8).find? fun d => hasDom r d && !domainOk r d).bind fun d => (levelsOf r d).head?).map fun i =>
    { cause := 0x18, info0 := i, info1 := 5 + i / 4 }

/-- R133: levels that do not match the template. -/
def templateBad (r h : List DWord) : Option Refuse :=
  if fld (wordAt h 2) 3 0 ≠ recNlvl r then some { cause := 0x18, info0 := min (fld (wordAt h 2) 3 0) (recNlvl r), info1 := 2 }
  else
    ((List.range (recNlvl r)).find? fun i =>
      let t := lvltEntry h i
      (t % 8 ≠ 0 && t % 8 ≠ recDom r i) || (t / 8 ≠ 7 && t / 8 ≠ recScope r i)).map fun i => { cause := 0x18, info0 := i, info1 := 4 }

/-- R133: the parameter window is smaller than the kernel reads. -/
def paramBad (r h : List DWord) : Option Refuse :=
  let n := fld (wordAt h 5) 32 16
  if recPsize r < n then some { cause := 0x19, info0 := 0, info1 := recPsize r, aux := some (dw n) } else none

/-- Subcodes 4 and 5: the threads of the levels inside the block; the kernel's roles. -/
def rolesBad (r h : List DWord) : Option Refuse :=
  let inner := ((List.range (recNlvl r)).filter fun i => decide (4 < recDom r i)).foldl (fun n i => n * recExt r i) 1
  (refuseIf (hasDom r 4 && inner != recNthr r) (refuse 4 2)).or
    ((refuseIf (fbit (wordAt h 3) 0 && !recCoop r) (refuse 5 2)).or (refuseIf (fbit (wordAt h 3) 1 && !hasDom r 2) (refuse 5 4)))

/-- Signed byte offset of a table from its header. -/
def tableVa (r : List DWord) (off at_ : Nat) : Nat := wrapInt 64 ((recKaddr r : Int) + signedOf 32 off + at_)

/-- Fields of a node that its operator does not use, and the reserved operators (Table 9.9). -/
def nodeBad (n : DWord) : Bool :=
  let op := nodeOp n
  let usesFmt := op == 1 || op == 2
  op == 0 || decide (0x0B < op) || (!usesFmt && fld n 15 8 != 0) || (op != 5 && nodeArg8 n != 0) ||
    (op != 7 && op != 0x0A && nodeArg24 n != 0) || fld n 63 48 != 0

/-- R201 on one graph: the node, or 0 for word 0. -/
def graphNodeBad (g : List DWord) : Option Nat :=
  let n := fld (wordAt g 0) 3 0
  if n = 0 || 12 < n || fld (wordAt g 0) 5 4 = 0 then some 0
  else ((List.range n).find? fun i => nodeBad (wordAt g (i + 1))).map (· + 1)

/-- Operand counts of the chain operations (Table 10.11). -/
def chainOperands (op : Nat) : Nat :=
  match op with
  | 1 | 2 | 3 | 5 | 6 => 2
  | 4 | 7 | 14 => 3
  | _ => 1

/-- R224 on one operation word. -/
def chainOpBad (nin : Nat) (o : DWord) : Bool :=
  let op := fld o 7 0
  let sels := [fld o 17 13, fld o 22 18, fld o 27 23]
  op == 0 || decide (0x11 < op) || fld o 31 30 != 0 || fbit o 12 || decide (8 < fld o 11 8) ||
    (decide (4 < op) && fld o 29 28 != 0) ||
    (List.range 3).any fun i =>
      let x := sels.getD i 0
      (decide (i < chainOperands op) != (x != 0)) || decide (0x10 < x) ||
        (decide (9 ≤ x) && decide (x ≤ 11) && decide (nin ≤ x - 9))

/-- R224 on one chain: the operation, or 0 for the header. -/
def chainWordBad (ch : List DWord) : Option Nat :=
  let hd := wordAt ch 0
  let n := chNops ch
  if fld hd 63 15 ≠ 0 || n = 0 || 16 < n || chNin ch = 0 || chOfmt ch < 2 || 10 < chOfmt ch || 4 < chOrnd ch then some 0
  else
    match (List.range 16).find? fun i => if i < n then chainOpBad (chNin ch) (wordAt ch (i + 1)) else wordAt ch (i + 1) != 0 with
    | some i => some (i + 1)
    | none => if (chOps ch).any fun o => fld o 11 8 == 8 then none else some 0

/-- The tables of one kind: `n` of them, `words` words each, `step` bytes apart, with their check. -/
def loadTables (s : State) (ten : Nat) (r : List DWord) (cause off n words step : Nat) (bad : List DWord → Option Nat) :
    Except Refuse (List (List DWord)) :=
  (List.range n).foldl (fun acc i =>
    match acc with
    | .error e => .error e
    | .ok l =>
      (match viewInPlace s ten (tableVa r off (step * i)) (8 * words) with
       | none => .error { cause := cause, info0 := i, info1 := 0, aux := some 0 }
       | some bs =>
         let t := wordsOf bs words
         match bad t with
         | some k => .error { cause := cause, info0 := i, info1 := k, aux := some (wordAt t k) }
         | none => .ok (l ++ [t]))) (.ok [])

/-- Subcodes 6 to 8: the block's cores, the cluster's shape, a cooperative launch that an idle device cannot hold whole (R27, R31,
R282) (DEDUCED, log entry 100). -/
def shapeBad (r h : List DWord) : Option Refuse :=
  let x := needsOf r h
  let asks := (List.range (recClusters r)).map fun k => { askOf r h [0, 1, 2, 3] k with aff := 0 }
  (refuseIf (decide (4 < x.n)) (refuse 6 2)).or ((refuseIf (decide (12 < x.nc)) (refuse 7 2)).or
    (refuseIf (recCoop r && !({} : Occ).canAll asks) (refuse 8 2)))

/-- What reading a record gives: header, graphs and chains, or a refusal; the checks in the order of R392. -/
def checkRecord (s : State) (ten : Nat) (r : List DWord) : Except Refuse (List DWord × List (List DWord) × List (List DWord)) :=
  match ((reservedBad r).or (limitBad r)).or (counterBad s ten r) with
  | some e => .error e
  | none =>
    match (viewInPlace s ten (recKaddr r) 64).map fun bs => wordsOf bs 8 with
    | none => .error (refuse 3 0)
    | some h =>
      if headerBad h then .error (refuse 3 0)
      else
        match (levelsBad r).or ((extentsBad r).or ((templateBad r h).or ((paramBad r h).or (rolesBad r h)))) with
        | some e => .error e
        | none =>
          match loadTables s ten r 0x1A (fld (wordAt h 4) 63 32) (fld (wordAt h 5) 8 4) 16 128 graphNodeBad with
          | .error e => .error e
          | .ok gs =>
            match loadTables s ten r 0x1B (fld (wordAt h 4) 31 0) (fld (wordAt h 5) 3 0) 17 136 chainWordBad with
            | .error e => .error e
            | .ok cs =>
              match shapeBad r h with
              | some e => .error e
              | none => .ok (h, gs, cs)

/-- The record of a refused launch (R392). -/
def refuseReport (s : State) (ten q : Nat) (r : List DWord) (slot : Nat) (e : Refuse) : State :=
  reportBare s ten q { cause := e.cause, addr := dw (recKaddr r), asp := 1, info0 := e.info0, info1 := e.info1,
                       aux := e.aux.getD (dw slot), src := 3, sev := 1 }

/-! Dependences (R278, R391). -/

/-- The watch of a dependence goes to its counter's home: greater or equal, 64 bits, at .device. A page that is not resident
is moved first; on a discarded page the counter reads 0. -/
def dependenceWatch (s : State) (x : Watch) : State :=
  match schedXlate s x.tenant x.va.toNat .read with
  | .ok pa _ => putWatch s { x with pa := pa, st := 0, answer := 0, gen := irtBank s 0 = 1 }
  | .zero _ => if x.operand = 0 then putWatch s { x with st := 3, answer := 1 } else needPage s x.tenant x.va.toNat
  | .park 4 => needPage s x.tenant x.va.toNat
  | _ => s

/-- The watches of a launch's dependences, not yet sent. -/
def addDependences (s : State) (ctx ten : Nat) (r : List DWord) : State :=
  ((List.range 4).filter (recDv r)).foldl (fun s j =>
    let (id, s) := takeId s
    let x : Watch :=
      { id := id, tenant := ten, ctx := ctx, core := 0, warp := 0, lanes := BitVec.ofNat 32 j, va := dw (recDaddr r j), pa := 0,
        width := 8, cmp := 5, signed := false, operand := wordAt r (9 + 2 * j), mask := 0, scope := 5, st := 4, answer := 0,
        deadline := none, cancel := false }
    dependenceWatch { s with watches := s.watches ++ [x] } x) s

/-- DEPENDENCE_WATCH_RETRY: the `n`-th dependence watch that waits is sent again. -/
def dependenceRetry (n : Nat) (s : State) : State :=
  match (s.watches.filter fun x => x.st == 4)[n]? with
  | none => s
  | some x => dependenceWatch s x

/-! Reading a record. -/

/-- A slot that cannot be read stops its queue (R276). -/
def stopQueue (s : State) (ten q : Nat) : State :=
  let i := 8 * ten + q
  let x := pkgReg s 0x21 i
  let s := pkgPut s 0x22 i (putFld (pkgReg s 0x22 i) 63 63 0)
  reportBare s ten q { cause := 0x64, addr := dw (slotVa s i (fld x 15 0)), asp := 1, info0 := q + 8, info1 := fld x 15 0, aux := x,
                       src := 3, sev := 2 }

/-- A launch as its record makes it. -/
def newCtx (id ten q slot : Nat) (r : List DWord) : Ctx :=
  { id := id, tenant := ten, queue := q, record := r, khdr := [], param := [], psize := 0, graphs := [], chains := [], st := 1,
    deps := [], granted := 0, retired := 0, total := 0, dies := [], budget := 0, runnable := false, slotAddr := dw slot }

/-- LAUNCH_RECORD_READ (DESIGN CHOICE, log entry 43) (DESIGN CHOICE, log entry 95). -/
def recordRead (t q : Nat) (s : State) : State :=
  let i := 8 * t + q
  let x := pkgReg s 0x21 i
  let slot := slotVa s i (fld x 15 0)
  if !queueOn s i || queueCount s i = 0 then s
  else
    match viewBytes s t false slot 256 with
    | .bad => stopQueue s t q
    | .move va => needPage s t va
    | .ok bs =>
      let r := wordsOf bs 32
      let s := pkgPut (viewFill s t slot 256) 0x21 i (putFld x 15 0 (fld x 15 0 + 1))
      let (id, s) := takeId s
      let c := newCtx id t q slot r
      match checkRecord s t r with
      | .error e => refuseReport { s with ctxs := s.ctxs ++ [c] } t q r slot e
      | .ok (h, gs, cs) =>
        let c := { c with khdr := h, graphs := gs, chains := cs, psize := recPsize r, st := 0, total := recClusters r,
                          deps := (List.range 4).filter (recDv r) }
        addDependences { s with ctxs := s.ctxs ++ [c] } id t r

/-! Starting and completing. -/

/-- The dies of a die-level launch (R283): those of AFF first, then the others, lower numbers first. -/
def bindDies (r : List DWord) : List Nat :=
  if !hasDom r 2 then []
  else
    let inAff := fun d => (recAff r).testBit d
    (((List.range 4).filter inAff) ++ (List.range 4).filter fun d => !inAff d).take (recDies r)

/-- Whether every earlier launch of the queue has placed its clusters. -/
def earlierPlaced (s : State) (c : Ctx) : Bool :=
  (s.ctxs.takeWhile fun x => x.id != c.id).all fun x =>
    x.tenant != c.tenant || x.queue != c.queue || (x.st == 1 && x.granted == x.total)

/-- LAUNCH_START: the `n`-th launch that waits starts where its dependences are met and its turn has come. -/
def launchBegin (n : Nat) (s : State) : State :=
  match (s.ctxs.filter fun c => c.st == 0)[n]? with
  | none => s
  | some c =>
    if !c.deps.isEmpty || !earlierPlaced s c then s
    else
      match viewBytes s c.tenant false (recPaddr c.record) c.psize with
      | .move va => needPage s c.tenant va
      | .bad =>
        refuseReport (putCtx s { c with st := 1, total := 0 }) c.tenant c.queue c.record c.slotAddr.toNat (refuse 10 1)
      | .ok bs =>
        { putCtx (viewFill s c.tenant (recPaddr c.record) c.psize)
            { c with st := 1, param := nsetRange 0 [] 0 bs, dies := bindDies c.record } with
          starve := nset 0 s.starve (8 * c.tenant + c.queue) (s.clk + 1) }

/-- A launch whose clusters have all retired. -/
def launchDone (c : Ctx) : Bool := c.st == 1 && c.granted == c.total && c.retired == c.total

/-- Adding 1 at a completion counter, as one write at its home: none where a page has to move first. A counter that no longer
translates, or a misaligned one, is not written (DEDUCED, log entry 41). -/
def bumpCounter (s : State) (ten va : Nat) : Option State :=
  if va % 8 ≠ 0 then some s else
  match schedXlate s ten va .write with
  | .ok pa _ =>
    if anyLocked s [pa] || anyHeld s [pa] then none
    else some (applyWrite s (atAddr pa (bytesOf 8 ((homeNat s pa 8 + 1) % 2 ^ 64))))
  | .park 4 | .park 5 => none
  | _ => some s

/-- Every staging entry of the cores that run or ran clusters of a launch is raised to the system level (R83): those allocated so far
(DEDUCED, log entry 96). -/
def publishLaunch (s : State) (c : Ctx) : State :=
  let s := c.cores.foldl (fun s k => raiseEntries s k 2) s
  { putCtx s { c with closing := some s.fresh } with fresh := s.fresh + 1 }

/-- Whether an entry raised for a launch's completion has still to reach its level. -/
def launchHeld (s : State) (c : Ctx) : Bool :=
  s.staging.any fun e => c.cores.contains e.core && e.txn == 0 && decide (e.born ≤ c.closing.getD 0)

/-- LAUNCH_COMPLETE: the `n`-th launch whose work is done publishes; then its counter advances, and its replicas and watches go. -/
def launchEnd (n : Nat) (s : State) : State :=
  match (s.ctxs.filter launchDone)[n]? with
  | none => s
  | some c =>
    let s := if c.closing.isNone then publishLaunch s c else s
    if launchHeld s { c with closing := (findCtx s c.id).bind (·.closing) } then s
    else
      match bumpCounter s c.tenant (recCc c.record) with
      | none => needPage s c.tenant (recCc c.record)
      | some s =>
        { s with
          ctxs := s.ctxs.filter fun x => x.id != c.id
          replicas := s.replicas.filter fun x => x.ctx != c.id
          watches := s.watches.filter fun x => x.ctx != c.id }

/-- LAUNCH_RECORD_READ (R276, R277, R392). -/
def execLaunchRecordRead (t : Nat) (q : Nat) (s : State) : Out := .next (recordRead t q s)

/-- LAUNCH_START (R278). -/
def execLaunchStart (n : Nat) (s : State) : Out := .next (launchBegin n s)

/-- DEPENDENCE_WATCH_RETRY (R391). -/
def execDependenceWatchRetry (n : Nat) (s : State) : Out := .next (dependenceRetry n s)

/-- LAUNCH_COMPLETE (R279, R83). -/
def execLaunchComplete (n : Nat) (s : State) : Out := .next (launchEnd n s)

end Sys2Proof.Machine
end

