-- ==== Sys2Proof/Machine/Sched.lean ====
section
/-! DEFINITION. Granting clusters, deficit round robin, retirement (R27 to R31, R41, R280 to R283). -/

namespace Sys2Proof.Machine

/-- The last members put one by one, each where the rest can follow. -/
def pickFrom (o : Occ) (q : Ask) (k : Placed → Bool) : Nat → List (Nat × Nat × Nat) → Placed → State → Placed × State
  | 0, _, p, s => (p, s)
  | m + 1, rest, p, s =>
    let ws := (o.ways q q.colsAll rest p).filter fun e => o.canFrom q k m e.2.2 (p.put q.x e.1 e.2.1)
    let (e, s) := chooseFrom (0, 0, []) s ws
    pickFrom o q k m e.2.2 (p.put q.x e.1 e.2.1) s

/-- A placement chosen freely among those that R283 allows and that leave room for the clusters that have to follow: its region, its
pool base, then member by member its core and its block's column-store base; nothing where there is none (DESIGN CHOICE, log entry 99). -/
def choosePlace (s : State) (q : Ask) (t : List Ask) : Option (Placed × State) :=
  let o := occOf s
  let k := fun p => (o.add q.x p).canAll t
  let rs := o.regionsBefore q t
  if rs.isEmpty then none
  else
    let (r, s) := chooseFrom [] s rs
    let (pb, s) := chooseFrom 0 s (q.poolAll.filter fun pb => o.canFrom q k q.x.nc (regionCores r) ⟨[], pb, []⟩)
    some (pickFrom o q k q.x.nc (regionCores r) ⟨[], pb, []⟩ s)

/-! A block starts. -/

/-- A free slot of a core, chosen freely: quadrant, slot. -/
def freeSlot (s : State) (core : Nat) : (Nat × Nat) × State :=
  let all := (List.range Config.quads).flatMap fun q => (List.range Config.slots).map fun n => (q, n)
  chooseFrom (0, 0) s (all.filter fun p => !s.allWarps.any fun w => w.uid != 0 && w.core == core && w.quad == p.1 && w.slot == p.2)

/-- A warp enters a quadrant: a slot, and the active set where there is room (R284, R410). -/
def seatWarp (s : State) (w : Warp) : State :=
  let ((q, n), s) := freeSlot s w.core
  let room := decide ((activeWarps s w.core q).length < activeCap s w.core)
  { s with warps := s.warps ++ [{ w with quad := q, slot := n, active := room, since := s.clk }] }

/-- The lanes of warp `wid` that hold threads (R20, R27). -/
def warpLanes (r : List DWord) (wid : Nat) : Lanes :=
  lanesFrom ((List.range 32).filter fun l => decide (32 * wid + l < recNthr r))

/-- Warp `wid` of a block as it starts (Tables 2.2, 2.6, 5.7, 11.10): every live lane at the kernel's first clause. -/
def startWarp (s : State) (c : Ctx) (core num bid wid : Nat) : State :=
  let (id, s) := takeId s
  let lanes := warpLanes c.record wid
  let ls := lanesOf lanes
  seatWarp s
    { uid := id, core := core, ctx := c.id, clu := num, bid := bid, wid := wid, live := lanes
      dbg := if fbit (wordAt c.khdr 3) 17 then lanes else 0
      pc := ls.foldl (fun m l => nset 0 m l (dw (recKaddr c.record + 64))) []
      phase := ls.foldl (fun m l => nset [] m l (allBefore s)) []
      part := w32 (startTsz c.record), rseed := recSeed c.record }

/-- The instruction cache of a core is invalidated where the launch has not run on it before (R105) (DEDUCED, log entry 102). -/
def freshCache (s : State) (ctx : Nat) (cores : List Nat) : State :=
  let been := ((findCtx s ctx).map (·.cores)).getD []
  { s with icache := cores.foldl (fun m k => if been.contains k then m else nset 0 m k s.order) s.icache }

/-- Block `bid` of a placed cluster starts: every tile T, no codebook, no chain, convergence registers zero
(DESIGN CHOICE, log entry 101). -/
def startBlock (c : Ctx) (num : Nat) (p : Placed) (x : Needs) (s : State) (bid : Nat) : State :=
  let cores := (p.cores.drop (bid * x.n)).take x.n
  let b : Block :=
    { ctx := c.id, clu := num, bid := bid, conv := [], chains := [], cores := cores, cb := none, cbase := p.cbs.getD bid 0, cn := x.cols,
      warpsLeft := x.warps, since := s.clk }
  (List.range x.warps).foldl (fun s i => startWarp s c (cores.getD (i / max 1 x.per) 0) num bid i)
    { s with blocks := s.blocks ++ [b] }

/-- A cluster is granted as a whole (R31). A context begins with TOK eu of its first die (R332). -/
def placeCluster (s : State) (c : Ctx) (p : Placed) : State :=
  let x := needsOf c.record c.khdr
  let num := c.granted
  let die := coreDie (p.cores.headD 0)
  let s := freshCache s c.id p.cores
  let c := { c with
    granted := num + 1
    cores := (c.cores ++ p.cores).eraseDups
    budget := if num = 0 then fld (shelfReg s (die / 2) 0x05 die) 31 0 else c.budget }
  let s := putCtx s c
  let clu : Cluster :=
    { ctx := c.id, num := num, cores := p.cores, pbase := p.pb, plim := p.pb + x.pool, blocksLeft := recNblk c.record,
      saving := none, heldReported := false }
  (List.range (recNblk c.record)).foldl (startBlock c num p x) { s with clusters := s.clusters ++ [clu] }

/-- What the next grant of a launch asks for: one cluster, or all of a cooperative launch (R282). -/
def nextAsks (c : Ctx) : List Ask :=
  (List.range (if recCoop c.record then c.total - c.granted else 1)).map fun k => askOf c.record c.khdr c.dies (c.granted + k)

/-- Whether the next grant of a launch can be made. -/
def placeableNow (s : State) (c : Ctx) : Bool := (occOf s).canAll (nextAsks c)

/-- Granting clusters of a launch, all of them or none. -/
def grantAll (ctx : Nat) : List Ask → State → Option State
  | [], s => some s
  | q :: t, s =>
    match choosePlace s q t with
    | none => none
    | some (p, s) =>
      match findCtx s ctx with
      | none => none
      | some c => grantAll ctx t (placeCluster s c p)

/-- The next grant of a launch. -/
def grantNext (s : State) (c : Ctx) : Option State := grantAll c.id (nextAsks c) s

/-! Choosing a queue (R280 to R282). -/

/-- A queue's launch that has still clusters to place. -/
def currentLaunch (s : State) (i : Nat) : Option Ctx :=
  s.ctxs.find? fun c => 8 * c.tenant + c.queue == i && c.st == 1 && decide (c.granted < c.total)

/-- Whether a tenant gets no grant: system software has suspended it (Table 13.6), or it is being reset (R378). -/
def suspended (s : State) (ten : Nat) : Bool := fbit (pkgReg s 0x25 ten) 0 || resetting s ten

/-- Effective priority of a launch (R278, R281). -/
def effPrio (s : State) (c : Ctx) : Nat :=
  let i := 8 * c.tenant + c.queue
  let p := min (recPrio c.record) (fld (pkgReg s 0x22 i) 57 56)
  let cur := (currentLaunch s i).any fun x => x.id == c.id
  if cur && fbit (pkgReg s 0x23 i) 63 then min 3 (p + 1) else p

/-- Whether a queue has a placeable cluster. -/
def queuePlaceable (s : State) (i : Nat) : Bool := (currentLaunch s i).any fun c => !suspended s c.tenant && placeableNow s c

/-! The power ring (R332). -/

/-- Launches with a resident cluster on a compute die. -/
def ctxsOn (s : State) (die : Nat) : List Ctx :=
  s.ctxs.filter fun c => s.clusters.any fun k => k.ctx == c.id && k.cores.any fun x => coreDie x == die

/-- eu a ring pass brings on a die: PWRDIE.TOK. -/
def dieTok (s : State) (die : Nat) : Nat := fld (shelfReg s (die / 2) 0x05 die) 31 0

/-- A tenant's weight on a die. -/
def dieWeight (s : State) (die : Nat) (c : Ctx) : Nat := fld (shelfReg s (die / 2) 0x14 c.tenant) 7 0

/-- `k` ring passes on a die: TOK·w/W eu to each launch on it with each, at most 64·TOK in all (R332). -/
def passes (s : State) (die k : Nat) : State :=
  let cs := ctxsOn s die
  let total := (cs.map (dieWeight s die)).sum
  if total = 0 then s
  else
    let tok := dieTok s die
    cs.foldl (fun s c => putCtx s { c with budget := min (c.budget + k * (tok * dieWeight s die c / total)) (64 * tok) }) s

/-- Ring passes of a die that are due: one every 1,024 sclk from READY on, less those made. -/
def passesDue (s : State) (die : Nat) : Nat :=
  if s.boot.ready then (s.clk - s.readyClk) / Config.sclk 1024 - nget 0 s.ring die else 0

/-- The passes of a die that are due are made. -/
def catchUp (s : State) (die : Nat) : State :=
  let k := passesDue s die
  if k = 0 then s else passes { s with ring := nset 0 s.ring die (nget 0 s.ring die + k) } die k

/-- `n` clk pass: a queue that has had a placeable cluster throughout goes on counting, another starts again (R281). The power rings make
the passes that fall due as the clock reaches them, so that a refill comes before a debit of the same sclk (R332, DEDUCED, log entry 44). -/
def passTime (n : Nat) (s : State) : State :=
  let s := { s with
    clk := s.clk + n
    placeable := (List.range 128).foldl (fun m i =>
      if queuePlaceable s i then (if nget 0 m i = 0 then nset 0 m i (s.clk + 1) else m) else nset 0 m i 0) s.placeable }
  if s.boot.ready then (List.range 4).foldl catchUp s else s

/-- Queues of a priority level with a placeable cluster. -/
def levelQueues (s : State) (lvl : Nat) : List Nat :=
  (List.range 128).filter fun i => queuePlaceable s i && (currentLaunch s i).any fun c => effPrio s c == lvl

/-- Whether a cooperative launch that does not fit heads a queue of the level (R282). -/
def coopBlocks (s : State) (lvl : Nat) : Bool :=
  (List.range 128).any fun i =>
    match currentLaunch s i with
    | none => false
    | some c => effPrio s c == lvl && recCoop c.record && !suspended s c.tenant && !placeableNow s c

/-- Deficit of a queue (Table 13.3). -/
def queueDef (s : State) (i : Nat) : Int := signedOf 48 (fld (pkgReg s 0x23 i) 47 0)

/-- Quantum of a queue: 0 acts as 1. -/
def queueQuant (s : State) (i : Nat) : Nat := max 1 (fld (pkgReg s 0x22 i) 31 0)

/-- Setting a deficit (DEDUCED, log entry 108). -/
def setDef (s : State) (i : Nat) (d : Int) : State := pkgPut s 0x23 i (putFld (pkgReg s 0x23 i) 47 0 (wrapInt 48 d))

/-- The queues of a list in ring order from `p` (DESIGN CHOICE, log entry 9). -/
def ringFrom (p : Nat) (qs : List Nat) : List Nat := (qs.filter fun q => decide (p ≤ q)) ++ qs.filter fun q => decide (q < p)

/-- Rounds of replenishment before some queue's deficit is positive. -/
def drrRounds (s : State) (qs : List Nat) : Nat :=
  qs.foldl (fun m q =>
    let d := queueDef s q
    let k := if 0 < d then 0 else (-d).toNat / queueQuant s q + 1
    min m k) (2 ^ 64)

/-- Deficits after `k` rounds. -/
def replenish (s : State) (qs : List Nat) (k : Nat) : State :=
  qs.foldl (fun s q =>
    if k = 0 then s else setDef s q (min (queueDef s q + (k * queueQuant s q : Nat)) (queueQuant s q : Nat))) s

/-- Granting at a level by deficit round robin (R280): the pointer moves one queue on for each round. -/
def grantLevel (s : State) (lvl : Nat) : State :=
  let qs := levelQueues s lvl
  let k := drrRounds s qs
  let p := (nget 0 s.drr lvl + k) % 128
  let s' := replenish s qs k
  match (ringFrom p qs).find? fun q => 0 < queueDef s' q with
  | none => s
  | some q =>
    match currentLaunch s' q with
    | none => s
    | some c =>
      match grantNext s' c with
      | none => s
      | some s2 =>
        let s2 := { s2 with drr := nset 0 s2.drr lvl q, starve := nset 0 s2.starve q (s2.clk + 1), placeable := nset 0 s2.placeable q 0 }
        if c.granted + 1 = c.total || recCoop c.record then
          { pkgPut s2 0x23 q (putFld (pkgReg s2 0x23 q) 63 63 0) with boosted := nset 0 s2.boosted q 0 }
        else s2

/-! Saved clusters that may go on. -/

/-- Whether a saved warp has something to do but wait for a tide. -/
def savedActive (v : Saved) : Bool :=
  !v.cmds.isEmpty || v.warps.any fun w => (lanesOf w.live).any fun l =>
    match nget none w.park l with
    | some p => (match p.wait with | .tide _ => false | _ => true)
    | none => true

/-- Whether a saved cluster waits for cores (DEDUCED, log entry 104). -/
def savedWaits (s : State) (v : Saved) : Bool :=
  match findCtx s v.ctx with
  | none => false
  | some c => !suspended s c.tenant && (c.runnable || savedActive v)

/-- What a resumed cluster asks for: its pool window and its blocks' column-store ranges stay (R289). -/
def resumeAsk (c : Ctx) (v : Saved) : Ask :=
  { askOf c.record c.khdr c.dies v.num with base := some (v.cluster.pbase, v.blocks.map (·.cbase)) }

/-- The saved clusters that resume with one: itself, or all of a cooperative launch (R39). -/
def resumeUnit (s : State) (c : Ctx) (v : Saved) : List Saved := if recCoop c.record then s.saved.filter fun x => x.ctx == v.ctx else [v]

/-- Whether a saved cluster's unit can be placed. -/
def resumable (s : State) (c : Ctx) (v : Saved) : Bool := (occOf s).canAll ((resumeUnit s c v).map (resumeAsk c))

/-- The highest effective priority at which a saved cluster that fits waits. -/
def resumeLevel (s : State) : Option Nat :=
  (([3, 2, 1, 0] : List Nat).find? fun l => s.saved.any fun v =>
    savedWaits s v && (findCtx s v.ctx).any fun c => effPrio s c == l && resumable s c v)

/-- CLUSTER_GRANT: the highest level with a placeable cluster, above any level that a cooperative launch holds, and no lower
than a saved cluster that waits (DEDUCED, log entry 103). -/
def clusterGrant (s : State) : State :=
  if !s.boot.ready || s.boot.tripped then s
  else
    match ([3, 2, 1, 0] : List Nat).find? fun l => !(levelQueues s l).isEmpty || coopBlocks s l with
    | none => s
    | some l =>
      if coopBlocks s l || ((resumeLevel s).any fun k => decide (l < k)) then s else grantLevel s l

/-- STARVATION_BOOST: a queue that has had a placeable cluster for more than 2^24 sclk without a grant (R281). -/
def starvationBoost (t q : Nat) (s : State) : State :=
  let i := 8 * t + q
  let since := nget 0 s.placeable i
  if since = 0 || s.clk + 1 ≤ since + Config.sclk (2 ^ 24) || !queuePlaceable s i || fbit (pkgReg s 0x23 i) 63 then s
  else { pkgPut s 0x23 i (putFld (pkgReg s 0x23 i) 63 63 1) with boosted := nset 0 s.boosted i 0 }

/-! Retirement (R41). -/

/-- Core-cycles charged to a queue (R280); a boost lasts for QUANT of them (R281). -/
def chargeQueue (s : State) (i n : Nat) : State :=
  let s := setDef s i (queueDef s i - (n : Nat))
  if fbit (pkgReg s 0x23 i) 63 then
    let b := nget 0 s.boosted i + n
    if queueQuant s i ≤ b then
      { pkgPut s 0x23 i (putFld (pkgReg s 0x23 i) 63 63 0) with boosted := nset 0 s.boosted i 0 }
    else { s with boosted := nset 0 s.boosted i b }
  else s

/-- Charging the time a block has been resident. -/
def chargeBlock (s : State) (b : Block) : State :=
  match findCtx s b.ctx with
  | none => s
  | some c => chargeQueue s (8 * c.tenant + c.queue) ((s.clk - b.since) * b.cores.length)

/-- The column-store bytes of a block's cores are no one's any more: nothing that the block left is read again (R48)
(DESIGN CHOICE, log entry 101). -/
def clearColumns (s : State) (b : Block) : State :=
  let gone := fun (core off : Nat) => b.cores.contains core && decide (b.cbase ≤ off % 65536) && decide (off % 65536 < b.cbase + b.cn)
  { s with
    cstore := s.cstore.filter fun e => !gone (e.1 / 2 ^ 22) (e.1 % 2 ^ 22)
    csPoison := s.csPoison.filter fun e => !gone (e.1 / 2 ^ 19) (8 * (e.1 % 2 ^ 19)) }

/-- A cluster retires: its cores, pool, column store, chain slots and watches are free (DEDUCED, log entry 107). -/
def retireCluster (s : State) (c : Cluster) : State :=
  let uids := (threadWarps s).map (·.uid)
  let s := (s.blocks.filter fun b => b.ctx == c.ctx && b.clu == c.num).foldl clearColumns s
  { s with
    clusters := s.clusters.filter fun x => !(x.ctx == c.ctx && x.num == c.num)
    blocks := s.blocks.filter fun b => !(b.ctx == c.ctx && b.clu == c.num)
    watches := s.watches.filter fun x => x.warp == 0 || x.ctx != c.ctx || uids.contains x.warp
    ctxs := s.ctxs.map fun x => if x.id == c.ctx then { x with retired := x.retired + 1 } else x }

/-- A warp of a block is gone: the block and the cluster may retire with it. -/
def warpGone (s : State) (w : Warp) : State :=
  match findBlock s w.ctx w.clu w.bid with
  | none => s
  | some b =>
    let b := { b with warpsLeft := b.warpsLeft - 1 }
    let s := putBlock s b
    if b.warpsLeft ≠ 0 then s
    else
      let s := chargeBlock s b
      match findCluster s w.ctx w.clu with
      | none => s
      | some c =>
        let c := { c with blocksLeft := c.blocksLeft - 1 }
        let s := putCluster s c
        if c.blocksLeft = 0 then retireCluster s c else s

/-- Whether engine work of a warp is still under way. -/
def engineWork (s : State) (w : Warp) : Bool :=
  (s.cmds.any fun c => c.warp == w.uid) || s.credits.any fun c => c.ctx == w.ctx && c.clu == w.clu

/-- WARP_RETIRE: the warp in slot `n` whose threads have all exited; its staging is published at .device first. A transaction
still open is discarded, and fault records that wait for a boundary are appended. -/
def warpRetire (c q n : Nat) (s : State) : State :=
  match warpAt s c q n with
  | none => s
  | some w =>
    if w.uid = 0 || w.handler || w.live ≠ 0 || w.run.isSome || w.trap.isSome || engineWork s w || outstanding s w allLanes ||
        !w.olog.isEmpty then s
    else
      let s := { s with staging := s.staging.filter fun e => e.txn != w.uid }
      let s := raiseEntries s w.core 1
      if waitingEntries s w.core 1 then s
      else
        let s := w.deferred.foldl (fun s d => eqAppend s (reportQueue d.1) d.1) s
        warpGone (dropWarp { s with products := s.products.filter fun p => p.warp != w.uid } w.uid) w

/-! The write index (R276). -/

/-- QIDX_WIDX_WRITE: an index that would overfill the queue is ignored and reported. -/
def widxWrite (t q : Nat) (v : DWord) (s : State) : State :=
  let i := 8 * t + q
  let x := pkgReg s 0x21 i
  let w := fld v 47 32
  if queueSlots s i < (w + 2 ^ 16 - fld x 15 0) % 2 ^ 16 then
    reportBare s t q { cause := 0x64, addr := dw (fld (pkgReg s 0x20 i) 59 8 * 256), asp := 1, info0 := q, info1 := w, aux := x,
                       src := 3, sev := 2 }
  else pkgPut s 0x21 i (putFld x 47 32 w)

/-- CLUSTER_GRANT (R280 to R283). -/
def execClusterGrant (s : State) : Out := .next (clusterGrant s)

/-- STARVATION_BOOST (R281). -/
def execStarvationBoost (t : Nat) (q : Nat) (s : State) : Out := .next (starvationBoost t q s)

/-- WARP_RETIRE (R41). -/
def execWarpRetire (c : Nat) (q : Nat) (n : Nat) (s : State) : Out := .next (warpRetire c q n s)

/-- QIDX_WIDX_WRITE (R276). -/
def execQidxWidxWrite (t : Nat) (q : Nat) (v : DWord) (s : State) : Out := .next (widxWrite t q v s)

end Sys2Proof.Machine
end

