-- ==== Sys2Proof/Machine/Save.lean ====
section
/-! DEFINITION. Pre-emption, saves and resumption (R286 to R289, R393). -/

namespace Sys2Proof.Machine

/-! What a save takes (R286 to R288). -/

/-- The launch of a cluster. -/
def clusterCtx (s : State) (c : Cluster) : Option Ctx := findCtx s c.ctx

/-- The unit saved: the cluster, or every cluster of a cooperative launch (R286). -/
def unitOf (s : State) (c : Cluster) : List Cluster :=
  if (clusterCtx s c).any fun x => recCoop x.record then s.clusters.filter fun x => x.ctx == c.ctx else [c]

/-- Warps, blocks and commands of a cluster. -/
def cluWarps (s : State) (c : Cluster) : List Warp :=
  s.allWarps.filter fun w => w.uid != 0 && !w.handler && w.ctx == c.ctx && w.clu == c.num
/-- Its blocks. -/
def cluBlocks (s : State) (c : Cluster) : List Block := s.blocks.filter fun b => b.ctx == c.ctx && b.clu == c.num
/-- Its commands. -/
def cluCmds (s : State) (c : Cluster) : List Cmd := s.cmds.filter fun x => x.ctx == c.ctx && x.clu == c.num

/-- KIND of an engine resume record (Table 13.8); 0 for a command that has none. -/
def cmdKind (c : Cmd) : Nat :=
  match c.kind with
  | .tcopy => 1
  | .tstore => 2
  | .pcopy | .pcopyR => 3
  | .bload => 4
  | .mmas => 6
  | .chrun => 7
  | .qpost => 8
  | .rowzf => 9
  | .rowcp => 10
  | .preft | .gather => 0

/-- Bytes of a command's resume record (R288). -/
def recordLen (c : Cmd) : Nat :=
  64 + match c.kind with
    | .tcopy | .tstore | .pcopy | .pcopyR | .bload => 128
    | .mmas | .rowzf | .rowcp => 64
    | .chrun => 704
    | .qpost => 1152
    | .preft | .gather => 0

/-- Bytes that a cluster's save needs (Table 13.7) (DEDUCED, log entry 105). -/
def saveBytes (s : State) (c : Cluster) : Nat :=
  let h := ((clusterCtx s c).map (·.khdr)).getD []
  let win := c.plim - c.pbase
  let warp := 128 * (fld (wordAt h 0) 47 40 + 1) + 4 * fld (wordAt h 0) 55 48 + 32 * 32 + 64 + 256 + 768
  (cluWarps s c).length * warp + (cluBlocks s c).length * (512 + 136 * fld (wordAt h 5) 3 0) +
    c.cores.length * (win + win / 1024) + ((cluBlocks s c).map fun b => b.cores.length * (64 * b.cn + 32)).sum +
    ((cluCmds s c).map recordLen).sum

/-- 64 KiB units of the save region that a cluster's save takes. -/
def saveUnits (s : State) (c : Cluster) : Nat := ceilDiv (saveBytes s c) 65536

/-- Virtual address of a unit of a tenant's save region. -/
def regionVa (s : State) (ten unit : Nat) : Nat := (fld (pkgReg s 0x24 ten) 59 16 + unit) * 65536

/-- Units of a tenant's save region that may be written, where their pages stand or once these have moved; a unit on no writable page
is no space (DESIGN CHOICE, log entry 52). -/
def regionUnits (s : State) (ten : Nat) : List Nat :=
  (List.range (fld (pkgReg s 0x24 ten) 15 0)).filter fun k =>
    match schedXlate s ten (regionVa s ten k) .write with
    | .ok _ _ | .park 4 | .park 5 => true
    | _ => false

/-- Units of a tenant's save region that are free: those of saved clusters and of saves under way are not. -/
def freeUnits (s : State) (ten : Nat) : Nat :=
  let used := ((s.saved.filter fun v => ctxTenant s v.ctx == ten).map (·.places.length)).sum +
    ((s.clusters.filter fun c => ctxTenant s c.ctx == ten && c.saving.isSome).map (saveUnits s)).sum
  (regionUnits s ten).length - used

/-- Whether the region holds the saves of these clusters. -/
def saveFits (s : State) (ten : Nat) (cs : List Cluster) : Bool := decide ((cs.map (saveUnits s)).sum ≤ freeUnits s ten)

/-- A save of these clusters begins: issue stops at clause boundaries, sweeps stop at their granules (R287). -/
def startSave (s : State) (cs : List Cluster) : State :=
  let mine := fun (ctx num : Nat) => cs.any fun c => c.ctx == ctx && c.num == num
  { s with
    clusters := s.clusters.map fun c => if mine c.ctx c.num && c.saving.isNone then { c with saving := some s.clk, heldReported := false } else c
    cmds := s.cmds.map fun c => if mine c.ctx c.clu then { c with saving := true } else c }

/-! What holds a save. -/

/-- DC of a logged instruction that has one (Table 6.10). -/
def logDc (e : LogEntry) : Nat :=
  if ([0x120, 0x122, 0x009] : List Nat).contains (opcOf (e.insn.extractLsb' 0 32)) then fld e.insn 63 61 else 0

/-- Whether all that is left of a command is parked on migration: each unit that has not landed, nothing of it under way. -/
def Cmd.parkedOnly (c : Cmd) : Bool :=
  !c.parks.isEmpty && !c.reading && c.unlanded.all fun u => c.parks.any fun p => p.unit % 1024 == u % 1024

/-- Whether a command may be written to a resume record now: parked on a page, or a sweep at a granule, stalled or parked (R200,
R222, R231, R331); a parked QPOST once its frames sent have answered. -/
def cmdSavable (s : State) (c : Cmd) : Bool :=
  match c.kind with
  | .mmas => c.saving && (mmasBoundary c || (charge s c.ctx (stepDebit (energyClass s c.ctx (bitsN c.lits 16 14)))).isNone)
  | .chrun => c.saving && (chrunBoundary c || !c.parks.isEmpty || (charge s c.ctx (chrunDebit s c)).isNone)
  | .qpost => c.parkedOnly && c.sent.all fun i => (List.range 16).all fun j => c.landed.contains (16 * i + j)
  | .tcopy | .tstore | .pcopyR | .bload | .rowzf | .rowcp => c.parkedOnly
  | .pcopy | .preft | .gather => false

/-- Whether a trap of a warp holds its save: latches are kept, or a handler is to run or runs (R287). -/
def trapHolds (w : Warp) : Bool := w.trap.any fun t => t.run.isSome || !w.paused.isEmpty || decide (t.phase < 2)

/-- What holds a save in the terms of cause 0x66: INFO0, member, AUX. -/
def saveHeld (s : State) (c : Cluster) : Option (Nat × Nat × Nat) :=
  match (cluCmds s c).find? fun x => !cmdSavable s x with
  | some x => some (1, memberOf c x.core, cmdKind x)
  | none =>
    match (cluWarps s c).find? trapHolds with
    | some w => some (2, memberOf c w.core, w.wid)
    | none => ((cluWarps s c).find? fun w => w.olog.any fun e => logDc e != 0).map fun w => (3, memberOf c w.core, w.wid)

/-- Whether a save waits for something else: a clause under way, an access, product or watch under way, a counter, a credit, a
staging entry whose line is held (DEDUCED, log entry 106). -/
def saveWaits (s : State) (c : Cluster) : Bool :=
  let ws := cluWarps s c
  ws.any (fun w => w.run.isSome || !w.paused.isEmpty || w.dc.any (fun e => e.2 != 0) || (s.reqs.any fun q => q.warp == w.uid) ||
      (s.products.any fun p => p.warp == w.uid) || s.watches.any fun x => x.warp == w.uid && x.st == 0) ||
    (s.credits.any fun x => x.ctx == c.ctx && x.clu == c.num) ||
    s.staging.any fun e => e.tenant == ctxTenant s c.ctx && c.cores.contains e.core && !e.applied && e.txn == 0 &&
      ((lineOf s e.pa).locked || (lineOf s e.pa).holdWr || drainHolds s (coreShelf e.core) e.gen e.pa)

/-- Whether a cluster's save can complete. -/
def saveReady (s : State) (c : Cluster) : Bool := (saveHeld s c).isNone && !saveWaits s c

/-! The saved state. -/

/-- Entries of a core by offset, keyed for member `i`; `size` offsets a core. -/
def takeKeys {α : Type} (m : NMap α) (size core i : Nat) (p : Nat → Bool) : NMap α :=
  (m.filter fun e => e.1 / size == core && p (e.1 % size)).map fun e => (size * i + e.1 % size, e.2)

/-- Entries of every member. -/
def takeMembers {α : Type} (m : NMap α) (size : Nat) (cores : List Nat) (p : Nat → Nat → Bool) : NMap α :=
  (List.range cores.length).flatMap fun i => takeKeys m size (cores.getD i 0) i (p i)

/-- Member entries put back on other cores, replacing what stands at the places of `p`. -/
def giveMembers {α : Type} [DecidableEq α] (d : α) (m v : NMap α) (size : Nat) (cores : List Nat) (p : Nat → Nat → Bool) : NMap α :=
  let kept := m.filter fun e => !(List.range cores.length).any fun i => e.1 / size == cores.getD i 0 && p i (e.1 % size)
  v.foldl (fun m e => nset d m (size * cores.getD (e.1 / size) 0 + e.1 % size) e.2) kept

/-- Whether a column-store offset of member `i` lies in its block's range. -/
def inColumns (c : Cluster) (bs : List Block) (i off : Nat) : Bool :=
  bs.any fun b => b.cores.contains (c.cores.getD i 0) && decide (b.cbase ≤ off % 65536) && decide (off % 65536 < b.cbase + b.cn)

/-- Whether a pool offset lies in the window. -/
def inWindow (c : Cluster) (off : Nat) : Bool := decide (c.pbase ≤ off) && decide (off < c.plim)

/-- A save writes a register whose parity fails as zero, and reports it (R383). -/
def saveLost (s : State) (w : Warp) : State :=
  w.parity.foldl (fun s m =>
    let rep : Report :=
      { cause := 0x83, pc := (nget 0 w.pc m.2.2).toNat, info0 := if m.1 = 4 then 2 else m.1, info1 := m.2.1, defd := true }
    let (ws, s) := warpRecord s w rep
    let s := eqAppend s (reportQueue ws) ws
    match findWarp s w.uid with
    | none => s
    | some w =>
      putWarp s (match m.1 with
        | 0 => vset w m.2.1 m.2.2 0
        | 1 => sset w m.2.1 0
        | 2 => pset w m.2.1 m.2.2 false
        | _ => qset w m.2.1 false)) s

/-! The save region (R287, R288). -/

/-- The place of a command's first unlanded unit in destination order, and the units landed beyond it. -/
def Cmd.progress (c : Cmd) : Nat × Nat :=
  let us := c.unitList
  let p := (findIdx (fun u => !c.landed.contains u) us).getD us.length
  (p, (List.range 64).foldl (fun n i => if (us[p + 1 + i]?).any fun u => c.landed.contains u then n + 2 ^ i else n) 0)

/-- PROG of a resume record. -/
def Cmd.prog (c : Cmd) : Nat :=
  match c.kind with
  | .mmas => c.rb * 2 ^ 32 + c.g * 2 ^ 16 + c.kc
  | .chrun => c.row
  | .qpost => (findIdx (fun i => !((List.range 16).all fun j => c.landed.contains (16 * i + j))) (List.range (c.units / 16))).getD (c.units / 16)
  | _ => c.progress.1

/-- The header of an engine resume record (Table 13.8). -/
def resumeHeader (c : Cluster) (x : Cmd) : List DWord :=
  let copies := x.kind == .tcopy || x.kind == .tstore || x.kind == .bload || x.kind == .pcopyR
  [dw (cmdKind x * 2 ^ 56 + (recordLen x - 64) / 64 * 2 ^ 32 + memberOf c x.core * 2 ^ 24 + x.wid * 2 ^ 16), x.insn,
    dw (x.lit.toNat * 2 ^ 32 + x.ctl.toNat), dw x.prog, dw (x.vc * 2 ^ 32 + x.cred), dw (if copies then x.progress.2 else 0), 0, 0]

/-- Vector and uniform registers that a kernel's warps save. -/
def savedRegs (h : List DWord) : Nat × Nat := (fld (wordAt h 0) 47 40 + 1, fld (wordAt h 0) 55 48)

/-- Exactly `n` bytes, zeros after those given. -/
def fitBytes (n : Nat) (l : List Byte) : List Byte := (l ++ List.replicate n 0).take n

/-- An item of a save region: its bytes, and the saved cluster with other bytes in their place. -/
structure SavePart where
  img : List Byte
  put : List Byte → Saved → Saved

/-- An item of `n` bytes whose inner layout the spec does not give: its number, its fields (DESIGN CHOICE, log entry 52). -/
def laidOut (k n : Nat) (fields : List Nat) (put : List Nat → Saved → Saved) : SavePart :=
  ⟨fitBytes n (Config.saveLayout k fields), fun bs => put (Config.saveFields k bs)⟩

/-- Changing saved warp `k`. -/
def setWarp (k : Nat) (f : Warp → Warp) (v : Saved) : Saved := { v with warps := v.warps.modify k f }

/-- Changing saved block `j`. -/
def setBlock (j : Nat) (f : Block → Block) (v : Saved) : Saved := { v with blocks := v.blocks.modify j f }

/-- Changing saved command `n`. -/
def setCmd (n : Nat) (f : Cmd → Cmd) (v : Saved) : Saved := { v with cmds := v.cmds.modify n f }

/-- The saved bytes of a warp's registers. -/
def warpImage (n : Nat × Nat) (w : Warp) : List Byte :=
  ((List.range n.1).flatMap fun r => (List.range 32).flatMap fun l => bytesOf 4 (vget w r l).toNat) ++
    (List.range n.2).flatMap fun r => bytesOf 4 (sget w r).toNat

/-- A warp with the registers that its saved bytes hold. -/
def warpFrom (n : Nat × Nat) (bs : List Byte) (w : Warp) : Warp :=
  let at4 := fun k => BitVec.ofNat 32 (ofBytes ((bs.drop (4 * k)).take 4))
  let v := (List.range (32 * n.1)).foldl (fun m k => nset 0 m k (at4 k)) w.v
  { w with v := v, s := (List.range n.2).foldl (fun m k => nset 0 m k (at4 (32 * n.1 + k))) w.s }

/-- A lane set with one lane in it or out of it. -/
def setLane (m : Lanes) (l n : Nat) : Lanes := if n % 2 = 1 then m ||| (1#32 <<< l) else m &&& ~~~ (1#32 <<< l)

/-- A wait as fields: 1 WAITP, 2 a hardware barrier, 3 TWAIT, 4 MMA. -/
def waitFields : Wait → List Nat
  | .token a t => [1, a.toNat, t.toNat]
  | .hw k n => [2, k, n]
  | .tide n => [3, n, 0]
  | .array k => [4, k, 0]

/-- A wait from its fields. -/
def waitFrom (old : Wait) (k a b : Nat) : Wait :=
  match k with
  | 1 => .token (w32 a) (BitVec.ofNat 16 b)
  | 2 => .hw a b
  | 3 => .tide a
  | 4 => .array a
  | _ => old

/-- What a save holds of a thread beside its v registers (Table 13.7): p0 to p6, PC, hint, live, parked, stopped and debug-enable bits,
sr.rctr, parked wait. -/
def threadFields (w : Warp) (l : Nat) : List Nat :=
  let hint := nget none w.hint l
  let park := nget none w.park l
  [(nget 0 w.p l).toNat, (nget 0 w.pc l).toNat, hint.isSome.toNat, (hint.getD 0).toNat, (lon w.live l).toNat, park.isSome.toNat,
    (w.trap.any fun t => lon t.stopped l).toNat, (lon w.dbg l).toNat, (nget 0 w.rctr l).toNat] ++
    (park.map fun p => waitFields p.wait).getD []

/-- A warp with what those fields say of a thread; a thread that was not parked is not made so. -/
def threadFrom (l : Nat) (fs : List Nat) (w : Warp) : Warp :=
  let g := fun i => fs.getD i 0
  { w with
    p := nset 0 w.p l (BitVec.ofNat 7 (g 0))
    pc := nset 0 w.pc l (dw (g 1))
    hint := nset none w.hint l (if g 2 % 2 = 1 then some (dw (g 3)) else none)
    live := setLane w.live l (g 4)
    park := nset none w.park l (if g 5 % 2 = 1 then (nget none w.park l).map fun p => { p with wait := waitFrom p.wait (g 9) (g 10) (g 11) } else none)
    trap := w.trap.map fun t => { t with stopped := setLane t.stopped l (g 6) }
    dbg := setLane w.dbg l (g 7)
    rctr := nset 0 w.rctr l (w32 (g 8)) }

/-- What a save holds of a warp: q0 to q6, sr.part, sr.vcnt, sr.rseed, sr.xstat. -/
def warpFields (w : Warp) : List Nat :=
  [w.q.toNat, w.part.toNat, w.vcnt.toNat, w.rseed.toNat, w.xcause.toNat, w.xuser.toNat]

/-- A warp with what those fields say. -/
def warpWith (fs : List Nat) (w : Warp) : Warp :=
  let g := fun i => fs.getD i 0
  { w with q := BitVec.ofNat 7 (g 0), part := w32 (g 1), vcnt := w32 (g 2), rseed := w32 (g 3), xcause := BitVec.ofNat 8 (g 4),
           xuser := BitVec.ofNat 8 (g 5) }

/-- Words of 32 bits from bytes. -/
def words32 (bs : List Byte) (n : Nat) : List Word := (List.range n).map fun i => w32 (ofBytes ((bs.drop (4 * i)).take 4))

/-- The saved bytes of an operand-log entry (Table 14.7). -/
def entryImage (x : LogEntry) : List Byte := (List.range 16).flatMap fun i => bytesOf 4 (logWord x i).toNat

/-- An operand-log entry as its words have it; none with V clear. -/
def entryFrom (ws : List Word) (x : LogEntry) : Option LogEntry :=
  let g := fun i => (ws.getD i 0)
  let pair := fun i => dw ((g i).toNat + (g (i + 1)).toNat * 2 ^ 32)
  if !(g 0).getLsbD 31 then none
  else
    some { x with st := bitsN (g 0).toNat 30 29, seq := BitVec.ofNat 8 (bitsN (g 0).toNat 12 5), lane := bitsN (g 0).toNat 4 0,
                  insn := pair 1, lit := g 3, mask := g 4, va := pair 5, pc := pair 7, pay := pair 9 }

/-- The words of a tensor record (Table 9.5). -/
def tensorWords (t : Tensor) : List DWord :=
  let pair := fun a b => dw (a * 2 ^ 32 + b)
  let ord := (List.range 5).foldl (fun n j => n + t.order.getD j 0 * 2 ^ (3 * j)) 0
  let box := fun i => t.box.getD i 0
  [dw t.base, pair (t.extAt 1) (t.extAt 0), pair (t.extAt 3) (t.extAt 2),
    pair (t.strAt 1) (t.space.toNat * 2 ^ 31 + t.bv.toNat * 2 ^ 30 + t.extAt 4), pair (t.strAt 3) (t.strAt 2),
    pair (t.strAt 4) (t.fill * 2 ^ 30 + t.rank * 2 ^ 27 + box 2 * 2 ^ 18 + box 1 * 2 ^ 9 + box 0),
    dw (t.bar * 2 ^ 48 + t.fovr.toNat * 2 ^ 47 + t.cbi * 2 ^ 39 + t.geo * 2 ^ 37 + t.fmt * 2 ^ 33 + ord * 2 ^ 18 + box 4 * 2 ^ 9 + box 3),
    dw t.scale]

/-- A record and its origin in 96 bytes. -/
def recordImage (t : Tensor) (org : List Int) : List Byte :=
  (tensorWords t).flatMap (fun w => bytesOf 8 w.toNat) ++
    fitBytes 32 (org.flatMap fun x => bytesOf 4 (x % 2 ^ 32).toNat)

/-- The record of 96 bytes, and its origin. -/
def recordOf (bs : List Byte) : Tensor × List Int :=
  let t := parseTensor (wordsOf bs 8)
  (t, (words32 (bs.drop 64) t.rank).map (·.toInt))

/-- The saved bytes of an iterator slot; zeros where it is unset, as which a record of rank 0 reads back. -/
def iterImage (x : Option Iter) : List Byte := (x.map fun i => recordImage i.tens i.org).getD (List.replicate 96 0)

/-- An iterator slot from its bytes. -/
def iterFrom (bs : List Byte) (old : Option Iter) : Option Iter :=
  let r := recordOf bs
  if r.1.rank = 0 then none
  else some { (old.getD ⟨r.1, r.2, 0, 2⟩) with tens := r.1, org := r.2 }

/-- The bytes of a codebook. -/
def bookImage (l : List (BitVec 16)) : List Byte := fitBytes 32 (l.flatMap fun x => bytesOf 2 x.toNat)

/-- A codebook from its bytes. -/
def bookFrom (bs : List Byte) : List (BitVec 16) := (List.range 16).map fun i => BitVec.ofNat 16 (ofBytes ((bs.drop (2 * i)).take 2))

/-- The items of saved warp `k`. -/
def warpParts (n : Nat × Nat) (k : Nat) (w : Warp) : List SavePart :=
  ⟨warpImage n w, fun bs => setWarp k (warpFrom n bs)⟩ ::
    ((List.range 32).map fun l => laidOut 1 32 (threadFields w l) fun fs => setWarp k (threadFrom l fs)) ++
    laidOut 2 64 (warpFields w) (fun fs => setWarp k (warpWith fs)) ::
    ((List.range 4).map fun e => match w.olog.find? fun x => x.ent == e with
      | some x => (⟨entryImage x, fun bs => setWarp k fun w =>
          { w with olog := w.olog.filterMap fun y => if y.ent == e then entryFrom (words32 bs 16) y else some y }⟩ : SavePart)
      | none => ⟨List.replicate 64 0, fun _ v => v⟩) ++
    (List.range 8).map fun i => (⟨iterImage (nget none w.iter i), fun bs => setWarp k fun w =>
      { w with iter := nset none w.iter i (iterFrom bs (nget none w.iter i)) }⟩ : SavePart)

/-- The convergence registers and chain slots of saved block `j`; a slot not loaded holds no chain. -/
def blockParts (slots j : Nat) (b : Block) : List SavePart :=
  ((List.range 16).map fun k => (⟨bytesOf 32 (nget 0 b.conv k).toNat, fun bs => setBlock j fun b =>
      { b with conv := nset 0 b.conv k (BitVec.ofNat 256 (ofBytes bs)) }⟩ : SavePart)) ++
    (List.range slots).map fun n => match nget none b.chains n with
      | some ch => (⟨(List.range 17).flatMap fun i => bytesOf 8 (wordAt ch i).toNat, fun bs => setBlock j fun b =>
          { b with chains := nset none b.chains n (some (wordsOf bs 17)) }⟩ : SavePart)
      | none => laidOut 3 136 [] fun _ v => v

/-- The window of member `i`, and its tiles. -/
def windowParts (v : Saved) (i : Nat) : List SavePart :=
  let c := v.cluster
  let key := 2 ^ 19 * i + c.pbase
  ⟨ngetRange 0 v.pool key (c.plim - c.pbase), fun bs v => { v with pool := nsetRange 0 v.pool key bs }⟩ ::
    (List.range ((c.plim - c.pbase) / 1024)).map fun t =>
      let n := nget 0 v.tiles (512 * i + c.pbase / 1024 + t)
      laidOut 4 1 [(n != 0).toNat, n] fun fs v => { v with tiles := nset 0 v.tiles (512 * i + c.pbase / 1024 + t) (fs.getD 1 0 % 16) }

/-- The column-store range of a core of saved block `j`, and the array codebook register. -/
def columnParts (v0 : Saved) (c : Cluster) (j : Nat) (b : Block) (core : Nat) : List SavePart :=
  ((List.range 64).map fun col =>
    let key := 2 ^ 22 * memberOf c core + 65536 * col + b.cbase
    (⟨ngetRange 0 v0.cstore key b.cn, fun bs v => { v with cstore := nsetRange 0 v.cstore key bs }⟩ : SavePart)) ++
    [match b.cb with
     | some l => ⟨bookImage l, fun bs => setBlock j fun b => { b with cb := some (bookFrom bs) }⟩
     | none => laidOut 5 32 [] fun _ v => v]

/-- A command with the header that its resume record holds (Table 13.8). -/
def headerFrom (c : Cluster) (ws : List DWord) (x : Cmd) : Cmd :=
  let prog := (wordAt ws 3).toNat
  let us := x.unitList
  let x := { x with
    core := c.cores.getD (fld (wordAt ws 0) 31 24) x.core
    wid := fld (wordAt ws 0) 23 16
    insn := wordAt ws 1
    lit := w32 (fld (wordAt ws 2) 63 32)
    ctl := w32 (fld (wordAt ws 2) 31 0)
    vc := fld (wordAt ws 4) 63 32
    cred := fld (wordAt ws 4) 31 0 }
  match x.kind with
  | .mmas => { x with rb := bitsN prog 47 32, g := bitsN prog 31 16, kc := bitsN prog 15 0 }
  | .chrun => { x with row := prog % 2 ^ 32 }
  | .qpost => { x with landed := List.range (16 * prog), sent := List.range prog }
  | .rowzf | .rowcp => x
  | _ => { x with landed := us.take prog ++ (List.range 64).filterMap fun i => if fbit (wordAt ws 5) i then us[prog + 1 + i]? else none }

/-- The codebook of a record: the first that the command has read. -/
def firstBook (x : Cmd) : List (BitVec 16) := (x.books.head?.map (·.2)).getD []

/-- A command with another first codebook. -/
def withFirstBook (l : List (BitVec 16)) (x : Cmd) : Cmd :=
  match x.books with
  | [] => x
  | e :: t => { x with books := (e.1, l) :: t }

/-- The payload of a resume record (R288): what it names, in that order, zeros after it (DESIGN CHOICE, log entry 52). -/
def payloadParts (n : Nat) (x : Cmd) : List SavePart :=
  let on := fun (img : List Byte) (f : List Byte → Cmd → Cmd) => (⟨img, fun bs => setCmd n (f bs)⟩ : SavePart)
  let book := on (bookImage (firstBook x)) fun bs => withFirstBook (bookFrom bs)
  match x.kind with
  | .tcopy | .tstore | .pcopy | .pcopyR | .bload =>
    [on (recordImage x.tensor x.org) fun bs x => let r := recordOf bs; { x with tens := some r.1, org := r.2 }, book]
  | .mmas => [on (fitBytes 64 (x.desc.flatMap fun w => bytesOf 4 w.toNat)) fun bs x => { x with desc := words32 bs 6 }]
  | .chrun =>
    on ((List.range 17).flatMap fun i => bytesOf 8 (wordAt x.chain i).toNat) (fun bs x => { x with chain := wordsOf bs 17 }) ::
      ((List.range 4).map fun i => on (iterImage x.iters[i]?) fun bs x =>
        { x with iters := match x.iters[i]?, iterFrom bs x.iters[i]? with
            | some _, some y => x.iters.set i y
            | _, _ => x.iters }) ++
      [on (fitBytes 56 (x.params.flatMap fun w => bytesOf 4 w.toNat)) fun bs x => { x with params := words32 bs x.params.length },
       on (fitBytes 128 (x.books.flatMap fun e => bookImage e.2)) fun bs x =>
         { x with books := (List.range x.books.length).filterMap fun i => (x.books[i]?).map fun e =>
             (e.1, if i < 4 then bookFrom (bs.drop (32 * i)) else e.2) }]
  | .qpost =>
    [on ((List.range 8).flatMap fun i => bytesOf 8 (wordAt x.kv i).toNat) fun bs x => { x with kv := wordsOf bs 8 },
     on (fitBytes 1024 (x.query.flatMap fun w => bytesOf 4 w.toNat)) fun bs x => { x with query := words32 bs x.query.length }, book,
     ⟨List.replicate 32 0, fun _ v => v⟩]
  | .rowzf | .rowcp =>
    [on (fitBytes 64 ((List.range 2).flatMap fun i => bytesOf 8 (wordAt x.kv i).toNat)) fun bs x => { x with kv := wordsOf bs 2 ++ x.kv.drop 2 }]
  | .preft | .gather => []

/-- The resume record of saved command `n`. -/
def cmdParts (c : Cluster) (n : Nat) (x : Cmd) : List SavePart :=
  ⟨(resumeHeader c x).flatMap fun w => bytesOf 8 w.toNat, fun bs => setCmd n (headerFrom c (wordsOf bs 8))⟩ :: payloadParts n x

/-- Each element of a list with its place. -/
def eachAt {α β : Type} (l : List α) (f : Nat → α → List β) : List β :=
  (List.range l.length).flatMap fun i => match l[i]? with
    | some x => f i x
    | none => []

/-- What a save writes to its region, in the order of Table 13.7: the warps, the blocks' registers and chains, the windows with their
tiles, the columns, the resume records. -/
def saveParts (h : List DWord) (v : Saved) : List SavePart :=
  let c := v.cluster
  eachAt v.warps (warpParts (savedRegs h)) ++ eachAt v.blocks (blockParts (fld (wordAt h 5) 3 0)) ++
    (List.range c.cores.length).flatMap (windowParts v) ++
    eachAt v.blocks (fun j b => b.cores.flatMap (columnParts v c j b)) ++ eachAt v.cmds (cmdParts c)

/-- The bytes of a saved cluster. -/
def saveImage (h : List DWord) (v : Saved) : List Byte := (saveParts h v).flatMap (·.img)

/-- A saved cluster as the bytes of its region have it, `bs`: an item whose bytes are as they were written is as it was saved. -/
def fromRegion (h : List DWord) (bs : List Byte) (v : Saved) : Saved :=
  ((saveParts h v).foldl (fun (x : Nat × Saved) p =>
    let n := p.img.length
    let new := (bs.drop x.1).take n
    (x.1 + n, if new == (v.image.drop x.1).take n then x.2 else p.put new x.2)) (0, v)).2

/-- Writing the image of a save, each unit where its page stands. -/
def writeRegion (s : State) (ten : Nat) (places : List Nat) (img : List Byte) : State :=
  (List.range places.length).foldl (fun s k =>
    match schedXlate s ten (regionVa s ten (places.getD k 0)) .write with
    | .ok pa _ => applyWrite (reachHome s pa 65536) (atAddr pa ((img.drop (65536 * k)).take 65536))
    | _ => s) s

/-- Reading it back. -/
def readRegion (s : State) (ten : Nat) (places : List Nat) (img : List Byte) : List Byte :=
  (List.range places.length).flatMap fun k =>
    let mine := (img.drop (65536 * k)).take 65536
    (viewInPlace s ten (regionVa s ten (places.getD k 0)) mine.length).getD mine

/-- The lowest units of a tenant's save region that no saved cluster takes. -/
def regionPlaces (s : State) (ten n : Nat) : List Nat :=
  let used := (s.saved.filter fun v => ctxTenant s v.ctx == ten).flatMap (·.places)
  ((regionUnits s ten).filter fun k => !used.contains k).take n

/-- The first unit of those that a save is to take whose page cannot be written yet, or none; `n` units are taken. -/
def regionWaits (s : State) (ten n : Nat) : Option Nat :=
  let us := regionPlaces s ten n
  if us.length < n then some 0
  else (us.map (regionVa s ten)).find? fun va => match schedXlate s ten va .write with
    | .ok _ _ => false
    | _ => true

/-- Order numbers raised by what a core has stored so far. -/
def ownFloor (s : State) (core : Nat) (m : NMap Nat) : NMap Nat :=
  (s.hist.filter fun h => h.core == core).foldl (fun m h => raiseTo m h.pa 1 (h.idx + 1)) m

/-- A thread resumed on other cores keeps its phase, and the order of its own stores and reads (R84): what its core has stored so far
bounds its later reads, and those of its commands. -/
def keepOwn (s : State) (w : Warp) : Warp := { w with seen := ownFloor s w.core w.seen }

/-- Entries of the context on the cores of a cluster that a save publishes first (R84); an entry may hold stores of several launches of
its tenant (R54). -/
def Cluster.staged (s : State) (c : Cluster) (e : Stage) : Bool :=
  e.tenant == ctxTenant s c.ctx && c.cores.contains e.core && e.txn == 0

/-- Step 5 of R287 for one cluster, its staging published: open transactions are aborted (0x09), its blocks are charged, and
what Table 13.7 lists goes to the save region and leaves the cores (DESIGN CHOICE, log entry 52). -/
def saveCluster (s : State) (c : Cluster) : State :=
  let ten := ctxTenant s c.ctx
  let places := regionPlaces s ten (saveUnits s c)
  let s := (cluWarps s c).foldl (fun s w => let (w, s) := doomWarp s w 0x09; putWarp s w) s
  let s := (cluWarps s c).foldl saveLost s
  let ws := (cluWarps s c).map (keepOwn s)
  let bs := cluBlocks s c
  let win := fun (_ : Nat) off => inWindow c off
  let v : Saved :=
    { ctx := c.ctx, num := c.num, cluster := { c with saving := none, heldReported := false }, warps := ws, blocks := bs
      pool := takeMembers s.pool (2 ^ 19) c.cores win
      tiles := takeMembers s.tiles 512 c.cores fun _ t => inWindow c (1024 * t)
      cstore := takeMembers s.cstore (2 ^ 22) c.cores (inColumns c bs)
      poolPoison := takeMembers s.poolPoison (2 ^ 16) c.cores fun _ k => inWindow c (8 * k)
      csPoison := takeMembers s.csPoison (2 ^ 19) c.cores fun i k => inColumns c bs i (8 * k)
      tileSigs := takeMembers s.tileSigs 512 c.cores fun _ t => inWindow c (1024 * t)
      barSigs := takeMembers s.barSigs (2 ^ 35) c.cores fun _ k => inWindow c (k / 2 ^ 16)
      cmds := (cluCmds s c).map fun x => { x with floor := ownFloor s x.core x.floor }, places := places, image := [], wait := s.clk }
  let img := saveImage (((clusterCtx s c).map (·.khdr)).getD []) v
  let v := { v with image := img }
  let s := writeRegion s ten places img
  let s := (bs.filter fun b => b.warpsLeft != 0).foldl chargeBlock s
  let s := bs.foldl clearColumns s
  let s := ws.foldl (fun s w => dropWarp s w.uid) s
  { s with
    saved := s.saved ++ [v]
    clusters := s.clusters.filter fun x => !(x.ctx == c.ctx && x.num == c.num)
    blocks := s.blocks.filter fun b => !(b.ctx == c.ctx && b.clu == c.num)
    cmds := s.cmds.filter fun x => !(x.ctx == c.ctx && x.clu == c.num)
    tiles := s.tiles.filter fun e => !(c.cores.contains (e.1 / 512) && inWindow c (1024 * (e.1 % 512))) }

/-- CONTEXT_SAVE_COMPLETE: the unit of the `n`-th cluster being saved, once nothing holds it: its staging is published and waited for, the
pages of its region are moved to where they can be written, then it is saved. -/
def saveComplete (n : Nat) (s : State) : State :=
  match (s.clusters.filter fun c => c.saving.isSome)[n]? with
  | none => s
  | some c =>
    let cs := unitOf s c
    if cs.all fun x => x.saving.isSome && saveReady s x then
      let mine := fun (e : Stage) => cs.any fun x => x.staged s e
      if s.staging.any mine then
        { s with staging := s.staging.map fun e => if mine e then startPublish s e.freeLevel e else e }
      else
        let ten := ctxTenant s c.ctx
        match regionWaits s ten ((cs.map (saveUnits s)).sum) with
        | some va => needPage s ten va
        | none => cs.foldl saveCluster s
    else s

/-- SAVE_HELD_TIMEOUT: a save that has waited 2^24 sclk is reported once (R393); a clause that does not end counts as its
warp's. -/
def saveTimeout (n : Nat) (s : State) : State :=
  match (s.clusters.filter fun c => c.saving.isSome)[n]? with
  | none => s
  | some c =>
    let cs := unitOf s c
    if c.heldReported || s.clk < c.saving.getD 0 + Config.sclk (2 ^ 24) || cs.all (saveReady s) then s
    else
      let running := cs.findSome? fun x => ((cluWarps s x).find? fun w => w.run.isSome).map fun w => (2, memberOf x w.core, w.wid)
      let held := ((cs.findSome? (saveHeld s)).or running).getD (2, 0, 0)
      let s := { s with clusters := s.clusters.map fun x => if cs.any fun y => y.ctx == x.ctx && y.num == x.num then { x with heldReported := true } else x }
      reportBare s (ctxTenant s c.ctx) (((clusterCtx s c).map (·.queue)).getD 0)
        { cause := 0x66, info0 := held.1, info1 := held.2.1, aux := dw held.2.2, src := 3, sev := 2 }

/-! Pre-emption (R286). -/

/-- The latest grant of a cluster's blocks. -/
def cluSince (s : State) (c : Cluster) : Nat := ((cluBlocks s c).map (·.since)).foldl max 0

/-- The victim of a priority pre-emption: among units of lower priority whose save fits, the lowest priority, then the longest
resident. -/
def victim (s : State) (prio : Nat) : Option (List Cluster) :=
  let key := fun (c : Cluster) => ((clusterCtx s c).map (effPrio s)).getD 3 * 2 ^ 64 + cluSince s c
  let fit := s.clusters.filter fun c =>
    (clusterCtx s c).any (fun x => decide (effPrio s x < prio)) &&
      (unitOf s c).all (fun x => x.saving.isNone) && saveFits s (ctxTenant s c.ctx) (unitOf s c)
  (fit.find? fun c => fit.all fun d => decide (key c ≤ key d)).map (unitOf s)

/-- Priorities at which a cluster has waited more than 2^22 sclk for placement: the next one of a queue, or a saved one. -/
def waitingPrio (s : State) : Option Nat :=
  ([3, 2, 1] : List Nat).find? fun l =>
    ((List.range 128).any fun i =>
      match currentLaunch s i with
      | none => false
      | some c =>
        let since := nget 0 s.starve i
        effPrio s c == l && !suspended s c.tenant && since != 0 && decide (since + Config.sclk (2 ^ 22) < s.clk + 1) && !placeableNow s c) ||
      s.saved.any fun v => savedWaits s v && decide (v.wait + Config.sclk (2 ^ 22) < s.clk) &&
        (findCtx s v.ctx).any fun c => effPrio s c == l && !resumable s c v

/-- PREEMPT_PRIORITY: one victim at a time, a further one where a save is held (R393). -/
def preempt (s : State) : State :=
  if s.clusters.any fun c => c.saving.isSome && !c.heldReported then s
  else
    match (waitingPrio s).bind (victim s) with
    | some cs => startSave s cs
    | none => s

/-- A unit of a suspended tenant: its save starts, or is refused with cause 0x66, INFO0 4. -/
def suspendUnit (ten : Nat) (s : State) (c : Cluster) : State :=
  match findCluster s c.ctx c.num with
  | none => s
  | some c =>
    let cs := unitOf s c
    if (cs.any fun x => x.saving.isSome) || cs.head? ≠ some c then s
    else if saveFits s ten cs then startSave s cs
    else
      reportBare s ten (((clusterCtx s c).map (·.queue)).getD 0)
        { cause := 0x66, info0 := 4, info1 := 0, aux := dw (cs.map (saveBytes s)).sum, src := 3, sev := 2 }

/-- TCTL_SUSP_WRITE: setting SUSP saves what fits and stops grants; clearing it lets them go on. -/
def suspWrite (t : Nat) (v : DWord) (s : State) : State :=
  let s' := pkgPut s 0x25 t (putFld 0 0 0 (fld v 0 0))
  if fbit v 0 && !fbit (pkgReg s 0x25 t) 0 then (s.clusters.filter fun c => ctxTenant s c.ctx == t).foldl (suspendUnit t) s' else s'

/-! Resumption (R289). -/

/-- A command of a saved cluster on its new cores: it restarts from what has landed, reading its unlanded tiles afresh. -/
def restartCmd (old new : List Nat) (c : Cmd) : Cmd :=
  let at_ := fun k => new.getD ((findIdx (· == k) old).getD 0) k
  let fresh := c.kind == .tcopy || c.kind == .tstore || c.kind == .bload || c.kind == .pcopyR
  { c with core := at_ c.core, tiles := c.tiles.map fun t => (at_ t.1, t.2), saving := false
           parks := [], data := if fresh then [] else c.data, bad := if fresh then [] else c.bad, sent := if fresh then [] else c.sent }

/-- A warp of a saved cluster on its new core. -/
def restartWarp (old new : List Nat) (s : State) (w : Warp) : State :=
  let at_ := fun k => new.getD ((findIdx (· == k) old).getD 0) k
  seatWarp s { w with core := at_ w.core, yielded := false
                      olog := w.olog.map fun e => { e with tiles := e.tiles.map fun t => (at_ t.1, t.2) } }

/-- The WAITP lanes of a warp are judged against the restored objects (R244). -/
def wakeRestored (s : State) (uid : Nat) : State :=
  match findWarp s uid with
  | none => s
  | some w =>
    putWarp s ((List.range 32).foldl (fun w' l =>
      match nget none w.park l with
      | some p =>
        (match p.wait with
         | .token a tok =>
           let o := poolLoc s w a.toNat 16
           let phase := barPhase (barRead s o.1 o.2).1
           if tokenDone phase tok.toNat then
             unpark (sigsView p.scope (laneSig w l) (phaseSigs s o.1 o.2 tok.toNat)) w' l (some (w32 (phase * 2 ^ 16)))
           else w'
         | _ => w')
      | none => w') w)

/-- Answers held for a warp are delivered (R249). -/
def deliverHeld (s : State) (uid : Nat) : State :=
  (s.watches.filter fun x => x.st == 3 && x.warp == uid).foldl (fun s x =>
    match findWarp s uid with
    | none => s
    | some w => deliverAnswer s x w) s

/-- Restoring a saved cluster on the cores of a placement. -/
def restore (s : State) (v : Saved) (p : Placed) : State :=
  let h := ((findCtx s v.ctx).map (·.khdr)).getD []
  let v := fromRegion h (readRegion s (ctxTenant s v.ctx) v.places v.image) v
  let old := v.cluster.cores
  let new := p.cores
  let at_ := fun k => new.getD ((findIdx (· == k) old).getD 0) k
  let c := { v.cluster with cores := new }
  let bs := v.blocks.map fun b => { b with cores := b.cores.map at_, since := s.clk }
  let s := freshCache s v.ctx new
  let s := { s with
    saved := s.saved.filter fun x => !(x.ctx == v.ctx && x.num == v.num)
    clusters := s.clusters ++ [c]
    blocks := s.blocks ++ bs
    pool := giveMembers 0 s.pool v.pool (2 ^ 19) new fun _ off => inWindow c off
    tiles := giveMembers 0 s.tiles v.tiles 512 new fun _ t => inWindow c (1024 * t)
    cstore := giveMembers 0 s.cstore v.cstore (2 ^ 22) new (inColumns c bs)
    poolPoison := giveMembers false s.poolPoison v.poolPoison (2 ^ 16) new fun _ k => inWindow c (8 * k)
    csPoison := giveMembers false s.csPoison v.csPoison (2 ^ 19) new fun i k => inColumns c bs i (8 * k)
    tileSigs := giveMembers [] s.tileSigs v.tileSigs 512 new fun _ t => inWindow c (1024 * t)
    barSigs := giveMembers [] s.barSigs v.barSigs (2 ^ 35) new fun _ k => inWindow c (k / 2 ^ 16)
    cmds := s.cmds ++ v.cmds.map (restartCmd old new) }
  let s := { s with
    watches := s.watches.map fun x => if v.warps.any fun w => w.uid == x.warp then { x with core := at_ x.core } else x
    ctxs := s.ctxs.map fun x => if x.id == v.ctx then { x with runnable := false, cores := (x.cores ++ new).eraseDups } else x }
  let s := v.warps.foldl (restartWarp old new) s
  v.warps.foldl (fun s w => deliverHeld (wakeRestored s w.uid) w.uid) s

/-- Resuming saved clusters of a launch, all of them or none. -/
def resumeAll (s : State) (c : Ctx) : List Saved → Option State
  | [] => some s
  | v :: t =>
    match choosePlace s (resumeAsk c v) (t.map (resumeAsk c)) with
    | none => none
    | some (p, s) => resumeAll (restore s v p) c t

/-- CONTEXT_RESUME: the `n`-th saved cluster, or its whole cooperative launch, at its launch's priority. -/
def contextResume (n : Nat) (s : State) : State :=
  match s.saved[n]? with
  | none => s
  | some v =>
    match findCtx s v.ctx with
    | none => s
    | some c =>
      let vs := resumeUnit s c v
      let above := ([3, 2, 1, 0] : List Nat).any fun l => (decide (effPrio s c ≤ l) && coopBlocks s l) || (decide (effPrio s c < l) && !(levelQueues s l).isEmpty)
      if !s.boot.ready || s.boot.tripped || above || !(vs.any (savedWaits s)) || suspended s c.tenant then s
      else (resumeAll s c vs).getD s

/-- PREEMPT_PRIORITY (R286). -/
def execPreemptPriority (s : State) : Out := .next (preempt s)

/-- TCTL_SUSP_WRITE (R286). -/
def execTctlSuspWrite (t : Nat) (v : DWord) (s : State) : Out := .next (suspWrite t v s)

/-- CONTEXT_SAVE_COMPLETE (R287). -/
def execContextSaveComplete (n : Nat) (s : State) : Out := .next (saveComplete n s)

/-- SAVE_HELD_TIMEOUT (R393). -/
def execSaveHeldTimeout (n : Nat) (s : State) : Out := .next (saveTimeout n s)

/-- CONTEXT_RESUME (R289). -/
def execContextResume (n : Nat) (s : State) : Out := .next (contextResume n s)

end Sys2Proof.Machine
end

