-- ==== Sys2Proof/Machine/Bringup.lean ====
section
/-! DEFINITION. Bring-up, its failures, and power (R327 to R333, R397 to R400). -/

namespace Sys2Proof.Machine

/-! Bring-up (R327 to R330, R397 to R400). -/

/-- Changing the boot registers. -/
def onBoot (s : State) (f : Boot → Boot) : State := { s with boot := f s.boot }

/-- Every context is lost and issue stops on every die (R400): warps, blocks, clusters, saves, launches and the work in flight. -/
def loseContexts (s : State) : State :=
  { s with
    cur := {}, warps := [], ctxs := [], clusters := [], blocks := [], saved := [], staging := [], reqs := [], cmds := []
    credits := [], products := [], watches := [], migrs := [], remotes := [], held := [], wants := [] }

/-- BDIAG (Table 25.2). -/
def diagWord (d : Diag) : DWord := dw (d.unit.toNat * 2 ^ 40 + d.die.toNat * 2 ^ 36 + d.detail.toNat)

/-- A bring-up failure (R397): READY clears, ERRC, STAGE and BDIAG are set; a failure at stage 7 loses every context (R400). -/
def bringFail (s : State) (d : Diag) : State :=
  let stage := if 0x08 ≤ d.errc.toNat ∧ d.errc.toNat ≤ 0x0B then 8 else 9
  let s := if s.boot.stage = 7 then onBoot (loseContexts s) fun b => { b with tripped := true } else s
  onBoot s fun b => { b with ready := false, errc := d.errc, stage := stage, bdiag := diagWord d, stageClk := s.clk }

/-- Entering a stage; ERRC is kept until stage 3 is entered, where the election begins afresh (R397, R399). -/
def enterStage (s : State) (n : Nat) : State :=
  if n = 3 then onBoot s fun b => { b with stage := 3, stageClk := s.clk, errc := 0, ids := [] }
  else onBoot s fun b => { b with stage := n, stageClk := s.clk }

/-- Whether a failure of a stage fits Table 25.2: a die as HSTAT.HEAD codes it, a unit of those that its code may name or none, DETAIL 0
but for a failing connection or frame (DEDUCED, log entry 37). -/
def diagFits (d : Diag) : Bool :=
  let n := d.unit.toNat
  let unit := n == 0xFF || (match d.errc.toNat with
    | 0x02 => decide (n < 4)
    | 0x04 | 0x05 | 0x0D | 0x0E => decide (n < 8)
    | _ => false)
  let detail := match d.errc.toNat with
    | 0x03 => true
    | 0x0D => paKind (d.detail.toNat * 65536) == .fast
    | 0x0E => paKind (d.detail.toNat * 65536) == .capacity
    | _ => d.detail == 0
  unit && detail && decide (d.die.toNat < 6)

/-- A stage that ends well or with a failure of one of its own codes (Table 25.1). -/
def stageEnd (s : State) (codes : List Nat) (fail : Option Diag) (ok : State → State) : State :=
  match fail with
  | none => ok s
  | some d => if codes.contains d.errc.toNat && diagFits d then bringFail s d else s

/-- MODULE_RESET: everything is as after reset, but what stands outside the module, its flash, and the model's own counters
(DEDUCED, log entry 36). -/
def moduleReset (s : State) : State :=
  { State.reset with
    agenda := s.agenda, free := s.free, fresh := s.fresh, flash := s.flash, host := s.host, peer := s.peer }

/-- ROM_AND_FUSES: stage 1 begins, and then ends (DEDUCED, log entry 37). -/
def romAndFuses (fail : Option Diag) (s : State) : State :=
  match s.boot.stage with
  | 0 => enterStage s 1
  | 1 => stageEnd s [0x01] fail fun s => enterStage s 2
  | _ => s

/-- Buffers that a receiver keeps for a channel, for channel 3 at least 64 (R322). -/
def buffersOf (v : Nat) : BitVec 14 :=
  if v = 3 ∧ (Config.linkBuffers v).toNat < 64 then 64 else Config.linkBuffers v

/-- A link end that has come up, or begins its training: nothing is outstanding and both histories are clear (R324). -/
def freshLink (st : Nat) : Link :=
  { st := st, freed := (List.range 4).foldl (fun m v => nset 0 m v (buffersOf v)) [] }

/-- CALIBRATION: PLLs, bonds, the far seam and the memory PHYs; the far seam is up afterwards. -/
def calibration (fail : Option Diag) (s : State) : State :=
  if s.boot.stage ≠ 2 then s
  else stageEnd s [0x02, 0x03, 0x04, 0x05] fail fun s =>
    enterStage { s with links := nset {} (nset {} s.links 16 (freshLink 2)) 17 (freshLink 2) } 3

/-- A report about a die, with no unit. -/
def dieDiag (errc : BitVec 8) (die : Nat) : Diag := { errc := errc, unit := 0xFF, die := BitVec.ofNat 4 die, detail := 0 }

/-- Identifiers that a die has received from the five others. -/
def received (s : State) (die : Nat) : List DWord :=
  (List.range 6).filterMap fun k => if k = die then none else nget none s.boot.ids (8 * die + k)

/-- ELECTION_IDENTIFIER: die `die` receives the identifier of `src`, which is its own, within 50 ms. Two equal identifiers fail the
module (R398); a die that has the five others and the lowest of all is the headland (R328). -/
def electionIdentifier (die src : Nat) (id : DWord) (s : State) : State :=
  if s.boot.stage ≠ 3 ∨ die = src ∨ 6 ≤ die ∨ 6 ≤ src ∨ id ≠ Config.dieId src ∨ s.boot.stageClk + 50000 * Config.clkPerUs < s.clk then s
  else
    let own := Config.dieId die
    let s := onBoot s fun b => { b with ids := nset none b.ids (8 * die + src) (some id) }
    let got := received s die
    if (own :: got).countP (· == id) ≠ 1 then bringFail s (dieDiag 0x07 die)
    else if got.length = 5 ∧ got.all fun x => decide (own.toNat < x.toNat) then
      enterStage (onBoot s fun b => { b with head := die }) 4
    else s

/-- ELECTION_TIMEOUT: a die is missing after 50 ms. -/
def electionTimeout (die : Nat) (s : State) : State :=
  if s.boot.stage = 3 ∧ s.boot.stageClk + 50000 * Config.clkPerUs ≤ s.clk ∧
      (List.range 6).any fun k => k != die && nget none s.boot.ids (8 * k + die) == none
  then bringFail s (dieDiag 0x06 die) else s

/-- Offset of an image's body: header, public key, signature (Table 16.9). -/
def bodyAt : Nat := 5325

/-- `n` bytes of an image from offset `a`, as a number. -/
def imgNat (m : NMap Byte) (a n : Nat) : Nat := ofBytes (ngetRange 0 m a n)

/-- The checks of R329 in their order: the code of the first that fails. -/
def imageCheck (m : NMap Byte) : Option (BitVec 8) :=
  let len := imgNat m 8 8
  let key := ngetRange 0 m 64 1952
  if imgNat m 0 4 ≠ 0x5A484657 ∨ Config.flashBytes < bodyAt + len then some 0x08
  else if Config.shake256 key 32 ≠ Config.keyDigest then some 0x09
  else if imgNat m 4 1 < Config.minSvn.toNat then some 0x0A
  else if Config.mlDsaVerify key (Config.shake256 (ngetRange 0 m 0 64 ++ ngetRange 0 m bodyAt len) 64) (ngetRange 0 m 2016 3309)
  then none else some 0x0B

/-- Security version of an image. -/
def imgSvn (m : NMap Byte) : Byte := nget 0 m 4

/-- VERIFICATION: the headland checks the image in flash. -/
def verification (s : State) : State :=
  if s.boot.stage ≠ 4 then s
  else
    match imageCheck s.flash with
    | some c => bringFail s (dieDiag c s.boot.head)
    | none => enterStage (onBoot s fun b => { b with fwsv := imgSvn s.flash }) 5

/-- FIRMWARE_START: firmware reaches stage 6, within 1 s (R397). -/
def firmwareStart (s : State) : State :=
  if s.boot.stage = 5 ∧ s.clk ≤ s.boot.stageClk + 1000000 * Config.clkPerUs then enterStage s 6 else s

/-- FIRMWARE_START_TIMEOUT: stage 6 was not reached within 1 s. -/
def firmwareTimeout (s : State) : State :=
  if s.boot.stage = 5 ∧ s.boot.stageClk + 1000000 * Config.clkPerUs ≤ s.clk then bringFail s (dieDiag 0x0C s.boot.head) else s

/-- The fw fields (R330, Tables 16.3, 16.11) (DESIGN CHOICE, log entry 8). -/
def fwFields (s : State) : State :=
  let s := (List.range 4).foldl (fun s d => mput s (mnum (d / 2) 0x05 d) (dw (Config.fwTok d).toNat)) s
  let s := (List.range 16).foldl (fun s p => mput s (mnum (p / 8) 0x06 p) (dw ((if Config.fwPortEn p then 1 else 0) + 2))) s
  let s := mput (mput s (mnum 0 0x06 16) 3) (mnum 1 0x06 16) 3
  pkgPut s 0x2C 0 Config.fwPwrStat

/-- A port begins its training where it is enabled (R327). -/
def trainEnabled (s : State) : State :=
  (List.range 16).foldl (fun s p =>
    if fbit (mget s (mnum (p / 8) 0x06 p)) 0 then { s with links := nset {} s.links p (freshLink 1) } else s) s

/-- MEMORY_INITIALISATION: memory is zero, frames are plain, none is retired, no port is up, registers are at their reset values and fw
fields set, then READY. Where firmware keeps the in-memory TLB and the spill lists is not said (DEDUCED, log entry 36). -/
def memoryInit (fail : Option Diag) (s : State) : State :=
  if s.boot.stage ≠ 6 then s
  else stageEnd s [0x0D, 0x0E] fail fun s =>
    let s := { s with
      dram := [], l2b := [], l2 := [], poison := [], under := [], fmeta := [], hist := [], mreg := [], readyClk := s.clk
      retired := [], failing := [], rowErrs := [], shots := [], ring := []
      links := s.links.filter fun e => decide (16 ≤ e.1) }
    let s := enterStage (trainEnabled (fwFields s)) 7
    onBoot s fun b => { b with ready := true, bdiag := 0 }

/-! Power and heat (R331 to R333). -/

/-- THERMAL_TRIP: a die at 105 °C; `die` as HSTAT.HEAD codes it. -/
def thermalTrip (die : Nat) (s : State) : State := if s.boot.stage = 7 then bringFail s (dieDiag 0x10 die) else s

/-- POWER_TOKEN_PASS (R332): the passes of a die that its clock has brought about, where they have not been made (log entry 44). -/
def powerPass (die : Nat) (s : State) : State := catchUp s die

/-- Whether cooling is no better than PWRSTAT last showed: flow, inlet, hottest die. -/
def coolsLess (s : State) (flow tin tmax : Nat) : Bool :=
  let x := pkgReg s 0x2C 0
  decide (flow % 2 ^ 16 ≤ fld x 47 32) && decide (fld x 31 16 ≤ tin % 2 ^ 16) && decide (fld x 15 0 ≤ tmax % 2 ^ 16)

/-- TOK of a die at full power and below it (R332, R333): what firmware set where flow and inlet allow it, in proportion to a lower flow.
With a warmer inlet, or near the limit, it is lower by an amount the spec does not state: a free value below, nor above the old where
cooling is no better (DEDUCED, log entry 44). -/
def coolTok (s : State) (flow tin tmax d v : Nat) : Nat :=
  let full := (Config.fwTok d).toNat * min flow 400 / 400
  if decide (tin ≤ 350) && !Config.nearLimit tmax then full
  else
    let low := v % max 1 full
    if coolsLess s flow tin tmax then min low (dieTok s d) else low

/-- A die's new TOK: no context with a cluster on it keeps more than 64·TOK (R332). -/
def setTok (s : State) (d tok : Nat) : State :=
  let s := mput s (mnum (d / 2) 0x05 d) (dw tok)
  (ctxsOn s d).foldl (fun s c => putCtx s { c with budget := min c.budget (64 * tok) }) s

/-- COOLANT_OR_DIE_TEMPERATURE_CHANGE: PWRSTAT shows what firmware sees and each die's TOK follows; at 105 °C the dies stop (R333). Which
die is the hottest is free. -/
def coolantChange (flow tin tmax : Nat) (s : State) : State :=
  if !s.boot.ready then s
  else
    let (flow, tin, tmax) := (flow % 65536, tin % 65536, tmax % 65536)
    let old := s
    let s := pkgPut s 0x2C 0 (putFld (putFld (putFld (pkgReg s 0x2C 0) 47 32 flow) 31 16 tin) 15 0 tmax)
    let s := (List.range 4).foldl (fun s d =>
      let (v, s) := draw s
      setTok s d (coolTok old flow tin tmax d v.toNat)) s
    if tmax < 1050 then s
    else
      let (v, s) := draw s
      thermalTrip (v.toNat % 6) s

/-- MODULE_RESET (R327). -/
def execModuleReset (s : State) : Out := .next (moduleReset s)

/-- ROM_AND_FUSES (R327). -/
def execRomAndFuses (fail : Option Diag) (s : State) : Out := .next (romAndFuses fail s)

/-- CALIBRATION (R327). -/
def execCalibration (fail : Option Diag) (s : State) : Out := .next (calibration fail s)

/-- ELECTION_IDENTIFIER (R328, R398). -/
def execElectionIdentifier (die : Nat) (src : Nat) (id : DWord) (s : State) : Out := .next (electionIdentifier die src id s)

/-- ELECTION_TIMEOUT (R328). -/
def execElectionTimeout (die : Nat) (s : State) : Out := .next (electionTimeout die s)

/-- VERIFICATION (R329). -/
def execVerification (s : State) : Out := .next (verification s)

/-- FIRMWARE_START (R327). -/
def execFirmwareStart (s : State) : Out := .next (firmwareStart s)

/-- FIRMWARE_START_TIMEOUT (R397). -/
def execFirmwareStartTimeout (s : State) : Out := .next (firmwareTimeout s)

/-- MEMORY_INITIALISATION (R330). -/
def execMemoryInitialisation (fail : Option Diag) (s : State) : Out := .next (memoryInit fail s)

/-- THERMAL_TRIP (R333). -/
def execThermalTrip (die : Nat) (s : State) : Out := .next (thermalTrip die s)

/-- POWER_TOKEN_PASS (R332). -/
def execPowerTokenPass (die : Nat) (s : State) : Out := .next (powerPass die s)

/-- COOLANT_OR_DIE_TEMPERATURE_CHANGE (R333). -/
def execCoolantOrDieTemperatureChange (flow : Nat) (tin : Nat) (tmax : Nat) (s : State) : Out := .next (coolantChange flow tin tmax s)

end Sys2Proof.Machine
end

