-- ==== Sys2Proof/Machine/Integer.lean ====
section
/-! DEFINITION. The integer vector instructions (R148 to R152). -/

namespace Sys2Proof.Machine

/-- IADD3 of Table 7.8. -/
def add3Op (it : Item) : State → Out :=
  let t := it.ty
  aluOp false it [vtOf t, vtOf t, vtOf t] (vtOf t).pair (commonBads it intTypes 1) fun s w r l =>
    putInt t (opx0 it) (getI s w r it t .a l + getI s w r it t .b l + getI s w r it t .c l)

/-- IMULH of Table 7.8. -/
def mulHighOp (it : Item) : State → Out :=
  let t := it.ty
  aluOp false it [vtOf t, vtOf t] false (commonBads it [2, 6] 0) fun s w r l =>
    wrapInt 32 (getI s w r it t .a l * getI s w r it t .b l / (2 ^ 32 : Nat))

/-- IMAD of Table 7.8. -/
def madOp (it : Item) : State → Out :=
  let t := it.ty
  aluOp false it [vtOf t, vtOf t, vtOf t] false (commonBads it [2, 6] 0) fun s w r l =>
    putInt t false (getI s w r it t .a l * getI s w r it t .b l + getI s w r it t .c l)

/-- The 64-bit type of IMADW's c: .i64 for .i32, .n64 for .n32. -/
def wideOf (t : Nat) : Nat := if tySigned t then 3 else 7

/-- IMADW of Table 7.8. -/
def madWideOp (it : Item) : State → Out :=
  let t := it.ty
  aluOp false it [vtOf t, vtOf t, vtOf (wideOf t)] true (commonBads it [2, 6] 0) fun s w r l =>
    wrapInt 64 (getI s w r it t .a l * getI s w r it t .b l + getI s w r it (wideOf t) .c l)

/-- IMIN and IMAX of Table 7.8. -/
def minMaxOp (least : Bool) (it : Item) : State → Out :=
  let t := it.ty
  aluOp false it [vtOf t, vtOf t] (vtOf t).pair (commonBads it intTypes 0) fun s w r l =>
    let x := getI s w r it t .a l
    let y := getI s w r it t .b l
    putInt t false (if least then min x y else max x y)

/-- IABS of Table 7.8. -/
def absOp (it : Item) : State → Out :=
  let t := it.ty
  aluOp false it [vtOf t] (vtOf t).pair (commonBads it [2, 3] 1) fun s w r l =>
    putInt t (opx0 it) ((getI s w r it t .a l).natAbs : Nat)

/-- ISAD of Table 7.8. -/
def sadOp (it : Item) : State → Out :=
  let t := it.ty
  aluOp false it [vtOf t, vtOf t, vtOf t] false (commonBads it [2, 6] 0) fun s w r l =>
    putInt t false (((getI s w r it t .a l - getI s w r it t .b l).natAbs : Nat) + getI s w r it t .c l)

/-- SHF of Table 7.10: OPX[0] .l, OPX[1] .wrap. -/
def funnelOp (it : Item) : State → Out :=
  aluOp false it [.bits 32, .bits 32, vtCount] false (commonBads it [8] 3) fun s w r l =>
    funnel (it.mb 52) (it.mb 53) (operand s w r it (.bits 32) .a l) (operand s w r it (.bits 32) .b l)
      (operand s w r it vtCount .c l)

/-- Width and type of LOP3: MOD[60] (Table 7.1). -/
def logicVT (it : Item) : VT := .bits (if it.mb 60 then 64 else 32)

/-- LOP3 of R150. -/
def logicOp (it : Item) : State → Out :=
  let t := logicVT it
  aluOp false it [t, t, t] t.pair (encBad (it.m 63 61 ≠ 0) 7 61) fun s w r l =>
    lop3 (it.m 59 52) t.width (operand s w r it t .a l) (operand s w r it t .b l) (operand s w r it t .c l)

/-- The short forms of LOP3: operand c reads zero. -/
def logicShort (it : Item) : State → Out :=
  aluOp false it [.bits 32, .bits 32] false [] fun s w r l =>
    lop3 (it.m 59 52) 32 (operand s w r it (.bits 32) .a l) (operand s w r it (.bits 32) .b l) 0

/-- POPC and CLZ: a single register (R136, R150). -/
def countOp (g : Nat → Nat → Nat) (it : Item) : State → Out :=
  let t := it.ty
  aluOp false it [vtOf t] false (commonBads it [8, 9] 0) fun s w r l => g (tyWidth t) (getB s w r it t .a l)

/-- BREV. -/
def reverseOp (it : Item) : State → Out :=
  let t := it.ty
  aluOp false it [vtOf t] (vtOf t).pair (commonBads it [8, 9] 0) fun s w r l => brevN (tyWidth t) (getB s w r it t .a l)

/-- BFE. -/
def bfeOp (it : Item) : State → Out :=
  let t := it.ty
  aluOp false it [vtOf t, vtCount] (vtOf t).pair (commonBads it intTypes 0) fun s w r l =>
    bfeVal t (getI s w r it t .a l) (operand s w r it vtCount .b l)

/-- BFI. -/
def bfiOp (it : Item) : State → Out :=
  let t := it.ty
  aluOp false it [vtOf t, vtOf t, vtCount] (vtOf t).pair (commonBads it [8, 9] 0) fun s w r l =>
    bfiVal (tyWidth t) (getB s w r it t .a l) (getB s w r it t .b l) (operand s w r it vtCount .c l)

/-- IADD (R148). -/
def execIadd (f : Long) (s : State) : Out := arith2 false true (longItem 0x040 false f) (· + ·) s

/-- IADD.i32, short. -/
def execIaddShort (f : Short) (s : State) : Out := arith2 false true (shortItem 0x02 false 0x100 f) (· + ·) s

/-- IADD3 (R148). -/
def execIadd3 (f : Long) (s : State) : Out := add3Op (longItem 0x041 false f) s

/-- ISUB (R148). -/
def execIsub (f : Long) (s : State) : Out := arith2 false true (longItem 0x042 false f) (· - ·) s

/-- ISUB.i32, short. -/
def execIsubShort (f : Short) (s : State) : Out := arith2 false true (shortItem 0x03 false 0x100 f) (· - ·) s

/-- IMUL (R148): the low part. -/
def execImul (f : Long) (s : State) : Out := arith2 false false (longItem 0x043 false f) (· * ·) s

/-- IMUL.i32, short. -/
def execImulShort (f : Short) (s : State) : Out := arith2 false false (shortItem 0x04 false 0x100 f) (· * ·) s

/-- IMULH (R148): the high half of the exact product. -/
def execImulh (f : Long) (s : State) : Out := mulHighOp (longItem 0x044 false f) s

/-- IMULH.i32, short. -/
def execImulhI32Short (f : Short) (s : State) : Out := mulHighOp (shortItem 0x05 false 0x100 f) s

/-- IMULH.n32, short. -/
def execImulhN32Short (f : Short) (s : State) : Out := mulHighOp (shortItem 0x06 false 0x300 f) s

/-- IMAD (R148). -/
def execImad (f : Long) (s : State) : Out := madOp (longItem 0x045 false f) s

/-- IMADW (R148): 32-bit factors, c and d pairs. -/
def execImadw (f : Long) (s : State) : Out := madWideOp (longItem 0x046 false f) s

/-- IMIN (R148). -/
def execImin (f : Long) (s : State) : Out := minMaxOp true (longItem 0x047 false f) s

/-- IMIN.i32, short. -/
def execIminI32Short (f : Short) (s : State) : Out := minMaxOp true (shortItem 0x07 false 0x100 f) s

/-- IMIN.n32, short. -/
def execIminN32Short (f : Short) (s : State) : Out := minMaxOp true (shortItem 0x09 false 0x300 f) s

/-- IMAX (R148). -/
def execImax (f : Long) (s : State) : Out := minMaxOp false (longItem 0x048 false f) s

/-- IMAX.i32, short. -/
def execImaxI32Short (f : Short) (s : State) : Out := minMaxOp false (shortItem 0x08 false 0x100 f) s

/-- IMAX.n32, short. -/
def execImaxN32Short (f : Short) (s : State) : Out := minMaxOp false (shortItem 0x0A false 0x300 f) s

/-- IABS (R148). -/
def execIabs (f : Long) (s : State) : Out := absOp (longItem 0x049 false f) s

/-- IABS.i32, short. -/
def execIabsShort (f : Short) (s : State) : Out := absOp (shortItem 0x0B false 0x100 f) s

/-- ISAD (R148): the difference is taken exactly. -/
def execIsad (f : Long) (s : State) : Out := sadOp (longItem 0x04A false f) s

/-- SHL (R149). -/
def execShl (f : Long) (s : State) : Out := shiftOp false (longItem 0x04B false f) 0 [8, 9] s

/-- SHL.b32, short. -/
def execShlShort (f : Short) (s : State) : Out := shiftOp false (shortItem 0x0C false 0x400 f) 0 [8, 9] s

/-- SHR (R149). -/
def execShr (f : Long) (s : State) : Out := shiftOp false (longItem 0x04C false f) 1 [6, 7] s

/-- SHR.n32, short. -/
def execShrShort (f : Short) (s : State) : Out := shiftOp false (shortItem 0x0D false 0x300 f) 1 [6, 7] s

/-- SHA (R149). -/
def execSha (f : Long) (s : State) : Out := shiftOp false (longItem 0x04D false f) 2 [2, 3] s

/-- SHA.i32, short. -/
def execShaShort (f : Short) (s : State) : Out := shiftOp false (shortItem 0x0E false 0x100 f) 2 [2, 3] s

/-- SHF (R149). -/
def execShf (f : Long) (s : State) : Out := funnelOp (longItem 0x04E false f) s

/-- LOP3 (R150). -/
def execLop3 (f : Long) (s : State) : Out := logicOp (longItem 0x04F false f) s

/-- LOP3.b32 with table 0x88, short; operand c reads zero (R150). -/
def execLop3AndShort (f : Short) (s : State) : Out := logicShort (shortItem 0x0F false 0x88 f) s

/-- LOP3.b32 with table 0xEE, short; operand c reads zero (R150). -/
def execLop3OrShort (f : Short) (s : State) : Out := logicShort (shortItem 0x10 false 0xEE f) s

/-- LOP3.b32 with table 0x66, short; operand c reads zero (R150). -/
def execLop3XorShort (f : Short) (s : State) : Out := logicShort (shortItem 0x11 false 0x66 f) s

/-- POPC (R150). -/
def execPopc (f : Long) (s : State) : Out := countOp popcN (longItem 0x050 false f) s

/-- POPC.b32, short. -/
def execPopcShort (f : Short) (s : State) : Out := countOp popcN (shortItem 0x12 false 0x400 f) s

/-- CLZ (R150). -/
def execClz (f : Long) (s : State) : Out := countOp clzN (longItem 0x051 false f) s

/-- CLZ.b32, short. -/
def execClzShort (f : Short) (s : State) : Out := countOp clzN (shortItem 0x13 false 0x400 f) s

/-- BREV (R150). -/
def execBrev (f : Long) (s : State) : Out := reverseOp (longItem 0x052 false f) s

/-- BREV.b32, short. -/
def execBrevShort (f : Short) (s : State) : Out := reverseOp (shortItem 0x14 false 0x400 f) s

/-- BFE (R151). -/
def execBfe (f : Long) (s : State) : Out := bfeOp (longItem 0x053 false f) s

/-- BFI (R151). -/
def execBfi (f : Long) (s : State) : Out := bfiOp (longItem 0x054 false f) s

/-- ICMP (R152). -/
def execIcmp (f : Long) (s : State) : Out := compareOp false (longItem 0x055 false f) s

/-- ISEL (R152). -/
def execIsel (f : Long) (s : State) : Out := selectOp false (longItem 0x056 false f) s

end Sys2Proof.Machine
end

