-- ==== Sys2Proof/Machine/Links.lean ====
section
/-! DEFINITION. Tarsor Links: cells, replay, deduplication, retraining and failure (R321 to R325, R385). -/

namespace Sys2Proof.Machine

/-! Link ends and their registers (Table 16.3). -/

/-- A link end. -/
def linkAt (s : State) (l : Nat) : Link := nget {} s.links l
/-- Replacing it. -/
def putLink (s : State) (l : Nat) (k : Link) : State := { s with links := nset {} s.links l k }
/-- Number of its port: 16 at both ends of the far seam. -/
def linkPort (l : Nat) : Nat := min l 16
/-- Its shelf. -/
def linkShelf (l : Nat) : Nat := if 16 ≤ l then l - 16 else l / 8
/-- Number of its register of a family. -/
def linkReg (l fam : Nat) : Nat := mnum (linkShelf l) fam (linkPort l)
/-- A counter of TLSTS, [hi:lo]. -/
def linkCount (s : State) (l hi lo : Nat) : Nat := fld (mget s (linkReg l 0x07)) hi lo
/-- Setting it. -/
def setCount (s : State) (l hi lo v : Nat) : State := mput s (linkReg l 0x07) (putFld (mget s (linkReg l 0x07)) hi lo v)
/-- Counting CRCE or RPLY, which saturate. -/
def bumpCount (s : State) (l hi lo : Nat) : State := setCount s l hi lo (min 0xFFFF (linkCount s l hi lo + 1))
/-- TLSTS as it reads: the counters and the link's state. -/
def tlsts (s : State) (l : Nat) : DWord := putFld (mget s (linkReg l 0x07)) 3 0 (linkAt s l).st

/-! Cells (R321). -/

/-- Header and payload, bytes 0 to 59. -/
def cellBody (c : Cell) : List Byte :=
  bytesOf 8 (c.seq ++ c.aseq ++ c.vc ++ c.kind ++ c.fvc ++ c.free ++ (0 : BitVec 16)).toNat ++ c.payload

/-- Whether a cell's CRC is correct. -/
def cellGood (c : Cell) : Bool := c.crc == crc32 (cellBody c)

/-- Buffers of channel `v` that the sender may still fill: the latest FREE less the cells sent, modulo 2^14, and whether that
is positive (R322). -/
def allowed (k : Link) (v : Nat) : Bool :=
  let d := (nget 0 k.allow v - nget 0 k.sent v).toNat
  decide (1 ≤ d) && decide (d < 2 ^ 13)

/-- The latest block of a history whose place is `i` modulo 4096 (R324). -/
def historyEntry (cells : List (Nat × List Byte)) (i : Nat) : Option (List Byte) :=
  let bs := Config.linkBlocks cells
  (((List.range bs.length).filter fun j => j % 4096 == i).getLast?).bind fun j => bs[j]?

/-- The entry that a reference's payload names, where its hash matches the reference's 112 bits. -/
def refBlock (cells : List (Nat × List Byte)) (payload : List Byte) : Option (List Byte) :=
  let x := ofBytes (payload.take 2)
  if bitsN x 15 12 ≠ 0 then none
  else (historyEntry cells (bitsN x 11 0)).filter fun b => (Config.shake256 b 32).take 14 == (payload.drop 2).take 14

/-- Kind and payload of cells of channels 0 and 1. -/
def blockCellsOf (cs : List Cell) : List (Nat × List Byte) :=
  (cs.filter fun c => c.vc.toNat ≤ 1).map fun c => (c.kind.toNat, c.payload)

/-- A cell holds 52 payload bytes (R321). -/
def isCell (c : Cell) : Bool := c.payload.length == 52

/-- A cell as it is sent: its header says what this end expects and has freed, and its CRC covers bytes 0 to 59 (R321). -/
def sealCell (k : Link) (c : Cell) : Cell :=
  let c := { c with aseq := k.expect, free := nget 0 k.freed c.fvc.toNat }
  { c with crc := crc32 (cellBody c) }

/-- Replays of a cell that has not been acknowledged. -/
def Link.replaysOf (k : Link) (c : Cell) : Nat := nget 0 k.replays c.seq.toNat

/-- The first cell that is to be sent again, sent where its channel's allowance is positive: under a fresh header and CRC, counted on its
channel as every transmission is (R322, R323). -/
def resendNext (k : Link) : Link :=
  match k.redo with
  | [] => k
  | q :: t =>
    match k.unacked.find? fun c => c.seq == q with
    | none => { k with redo := t }
    | some c =>
      let v := c.vc.toNat
      if !allowed k v then k
      else
        { k with
          redo := t
          unacked := k.unacked.map fun x => if x.seq == q then sealCell k x else x
          sent := nset 0 k.sent v (nget 0 k.sent v + 1) }

/-- A cell leaves for the other end: numbered, kept until it is acknowledged, counted on its channel. -/
def pushCell (now : Nat) (k : Link) (c : Cell) : Link :=
  let v := c.vc.toNat
  { k with
    next := k.next + 1
    unacked := k.unacked ++ [sealCell k { c with seq := k.next }]
    sent := nset 0 k.sent v (nget 0 k.sent v + 1)
    ackClk := if k.unacked.isEmpty then now else k.ackClk }

/-- Whether a link has room for a new cell on a channel: at most 2048 are unacknowledged (R323). -/
def roomFor (k : Link) (c : Cell) : Bool := allowed k c.vc.toNat && decide (k.unacked.length < 2048)

/-- Whether cells wait to be sent again, or for room. -/
def sendsAgain (k : Link) : Bool := !(k.redo.isEmpty && k.backlog.isEmpty)

/-- The first of them goes, where its channel's allowance lets it. -/
def sendAgain (l : Nat) (s : State) : State :=
  let k := linkAt s l
  if !k.redo.isEmpty then putLink s l (resendNext k)
  else
    match k.backlog with
    | x :: t => if roomFor k x then putLink s l { pushCell s.clk k x with backlog := t } else s
    | [] => s

/-- TARSOR_CELL_SEND: first what is to be sent again, then what waited for room, then the cell: a data or reference cell while its
channel's allowance is positive. A replay request that is due names what this end expects; it and idle cells take no buffer and no SEQ
(R322, R323, DEDUCED, log entry 35). -/
def cellSend (l : Nat) (c : Cell) (s : State) : State :=
  let k := linkAt s l
  if k.st ≠ 2 || !isCell c then s
  else
    match c.kind.toNat with
    | 2 => if k.wantReplay then putLink s l { k with wantReplay := false, ctl := some (sealCell k c) } else s
    | 0 | 1 =>
      if sendsAgain k then sendAgain l s
      else if !roomFor k c then s
      else if c.kind = 0 then putLink s l (pushCell s.clk k c)
      else if decide (c.vc.toNat ≤ 1) && fbit (mget s (linkReg l 0x06)) 1 then
        match refBlock k.tx c.payload with
        | some b => putLink s l { pushCell s.clk k c with refs := nset [] k.refs k.next.toNat b }
        | none => s
      else s
    | _ => if c.kind = 3 then putLink s l { k with ctl := some (sealCell k c) } else s

/-- What an accepted header says: cells before ASEQ are acknowledged, FVC's count is known. -/
def takeHeader (now : Nat) (k : Link) (c : Cell) : Link :=
  let n := (c.aseq - (k.unacked.head?.map (·.seq)).getD k.next).toNat
  let acked := if n ≤ k.unacked.length then n else 0
  { k with
    unacked := k.unacked.drop acked
    tx := k.tx ++ blockCellsOf (k.unacked.take acked)
    refs := (k.unacked.take acked).foldl (fun m x => nset [] m x.seq.toNat []) k.refs
    replays := (k.unacked.take acked).foldl (fun m x => nset 0 m x.seq.toNat 0) k.replays
    redo := k.redo.filter fun q => !(k.unacked.take acked).any fun x => x.seq == q
    ackClk := if acked = 0 then k.ackClk else now
    allow := nset 0 k.allow c.fvc.toNat c.free }

/-- A buffer of a channel is freed. -/
def freeBuffer (k : Link) (v : Nat) : Link := { k with freed := nset 0 k.freed v (nget 0 k.freed v + 1) }

/-- A discarded cell (R323): its buffer is freed and a replay request is due; a bad CRC is counted. -/
def discardCell (s : State) (l : Nat) (c : Cell) : State :=
  let s := if cellGood c then s else bumpCount s l 63 48
  putLink s l { freeBuffer (linkAt s l) c.vc.toNat with wantReplay := true }

/-- An accepted cell's payload is passed on: once, in SEQ order (R323, R385). -/
def acceptCell (k : Link) (c : Cell) (payload : List Byte) : Link :=
  let k := freeBuffer k c.vc.toNat
  { k with
    expect := k.expect + 1
    out := k.out ++ [(c.vc, payload)]
    rx := if c.vc.toNat ≤ 1 then k.rx ++ [(c.kind.toNat, c.payload)] else k.rx }

/-- TARSOR_DATA_CELL. -/
def dataCell (l : Nat) (c : Cell) (s : State) : State :=
  let k := linkAt s l
  if k.st ≠ 2 || c.kind ≠ 0 || !isCell c then s
  else if cellGood c && c.seq == k.expect then putLink s l (acceptCell (takeHeader s.clk k c) c c.payload)
  else discardCell s l c

/-- TARSOR_DEDUP_REFERENCE: the entry is delivered where its hash matches, else a replay is asked from this cell (R324). -/
def dedupCell (l : Nat) (c : Cell) (s : State) : State :=
  let k := linkAt s l
  if k.st ≠ 2 || c.kind ≠ 1 || !isCell c then s
  else if cellGood c && c.seq == k.expect then
    match refBlock k.rx c.payload with
    | some b => setCount (putLink s l (acceptCell (takeHeader s.clk k c) c b)) l 31 16 (linkCount s l 31 16 + 1)
    | none => discardCell s l c
  else discardCell s l c

/-- A reference cell in full: data cells of its channel that carry its block (R324). -/
def fullCells (k : Link) (c : Cell) : List Cell :=
  if c.kind = 1 then (Config.blockCells (nget [] k.refs c.seq.toNat)).map fun p => { c with kind := 0, payload := (p ++ List.replicate 52 0).take 52 } else [c]

/-- Cells numbered from a SEQ on. -/
def renumber (q : BitVec 12) : List Cell → List Cell
  | [] => []
  | c :: t => { c with seq := q } :: renumber (q + 1) t

/-- Every unacknowledged cell is to be sent again, in order. -/
def resend (k : Link) : Link := { k with redo := k.unacked.map (·.seq) }

/-- A replay request answered: where the cell it names is a reference, its block goes in full, and the cells after it take the
numbers that follow (R324; none of them has been accepted); what then finds no room waits. Each cell that has been replayed so far is
counted once more. -/
def replayFrom (k : Link) : Link :=
  match k.unacked with
  | [] => k
  | c :: t =>
    let all := renumber c.seq (fullCells k c ++ t)
    let cs := all.take 2048
    let shift := BitVec.ofNat 12 all.length - BitVec.ofNat 12 k.unacked.length
    let moved := fun (x : Cell) => (x.seq + shift).toNat
    let count := t.foldl (fun m x => nset 0 m (moved x) (k.replaysOf x + 1)) []
    resend { k with
      unacked := cs
      next := c.seq + BitVec.ofNat 12 cs.length
      backlog := (all.drop 2048).flatMap (fun x => fullCells { k with refs := nset [] k.refs x.seq.toNat (nget [] k.refs (x.seq - shift).toNat) } x) ++
        k.backlog
      refs := t.foldl (fun m x => nset [] m (moved x) (nget [] k.refs x.seq.toNat)) []
      replays := nset 0 count c.seq.toNat (k.replaysOf c + 1) }

/-- TARSOR_REPLAY_REQUEST. -/
def replayRequest (l : Nat) (c : Cell) (s : State) : State :=
  let k := linkAt s l
  if k.st ≠ 2 || c.kind ≠ 2 || !isCell c then s
  else if cellGood c then bumpCount (putLink s l (replayFrom (takeHeader s.clk k c))) l 47 32
  else putLink (bumpCount s l 63 48) l { k with wantReplay := true }

/-- TARSOR_IDLE_CELL. -/
def idleCell (l : Nat) (c : Cell) (s : State) : State :=
  let k := linkAt s l
  if k.st ≠ 2 || c.kind ≠ 3 || !isCell c then s
  else if cellGood c then putLink s l (takeHeader s.clk k c)
  else putLink (bumpCount s l 63 48) l { k with wantReplay := true }

/-! Retraining and failure (R385). -/

/-- The ends of a link that the module holds: both, of the far seam. -/
def linkEnds (l : Nat) : List Nat := if l < 16 then [l] else [16, 17]

/-- A link end that trains: its histories clear, its unacknowledged cells are kept. -/
def trainEnd (k : Link) : Link := { k with st := 1, rx := [], tx := [], replays := [], redo := [], wantReplay := false, fails := 0 }

/-- Retraining, of both ends that the module holds, with cause 0x88. -/
def retrain (s : State) (l : Nat) : State :=
  let s := (linkEnds l).foldl (fun s e => putLink s e (trainEnd (linkAt s e))) s
  reportModule s { cause := 0x88, info0 := linkPort l, info1 := linkCount s l 47 32, src := 4, sev := 0 }

/-- LINK_REPLAY_LIMIT: one SEQ has been replayed 16 times. -/
def replayLimit (l : Nat) (s : State) : State :=
  let k := linkAt s l
  if k.st = 2 ∧ k.unacked.any (fun c => decide (16 ≤ k.replaysOf c)) then retrain s l else s

/-- LINK_ACK_TIMEOUT: no acknowledgement for 100 µs. -/
def ackTimeout (l : Nat) (s : State) : State :=
  let k := linkAt s l
  if k.st = 2 ∧ !k.unacked.isEmpty ∧ k.ackClk + 100 * Config.clkPerUs ≤ s.clk then retrain s l else s

/-- Whether a link carries a request from a shelf to a line: a port to a peer line, were it up (R325); the far seam to a home of the other
shelf. -/
def carries (s : State) (l shelf pa : Nat) : Bool :=
  if l < 16 then paKind pa == .peer && peerPort (putLink s l { linkAt s l with st := 2 }) shelf pa == some l
  else paLocal pa && homeSlice s shelf pa / 64 != shelf

/-- Staged stores and atomic groups that a failing link carried: tenants, once a request. -/
def linkRequests (s : State) (l : Nat) : List Nat × State :=
  let lost := fun (e : Stage) => e.going.isSome && !e.applied && carries s l (coreShelf e.core) e.pa
  let groups := s.reqs.flatMap fun q => (q.groups.filter fun g => carries s l (coreShelf q.core) g.pa).map fun g => (q, g)
  let tens := ((s.staging.filter lost).map (·.tenant)) ++ groups.map fun e => e.1.tenant
  let s := { s with staging := s.staging.filter fun e => !lost e }
  (tens, groups.foldl (fun s e => dropLost s e.1 e.2) s)

/-- A failed link: its cells fail, its requests are lost, and the failure is reported; the far seam's fails the module. -/
def linkFailed (s : State) (l : Nat) : State :=
  let (tens, s) := linkRequests s l
  let dead := fun (s : State) (l : Nat) =>
    putLink s l { linkAt s l with st := 3, unacked := [], refs := [], redo := [], backlog := [], replays := [] }
  let s := (linkEnds l).foldl dead { s with lostTold := s.lostTold.filter fun e => e.1 != linkPort l }
  let s := reportModule s { cause := 0x89, info0 := linkPort l, info1 := tens.length, src := 4, sev := if l < 16 then 2 else 3 }
  let s := (List.range Config.tenants).foldl (fun s t =>
    if tens.contains t then lostReport s t (linkPort l) (tens.count t) else s) s
  if l < 16 then s
  else if s.boot.stage = 7 then bringFail s { errc := 0x11, unit := 0xFF, die := BitVec.ofNat 4 (linkShelf l), detail := 0 }
  else s

/-- LINK_TRAINING_DONE: the link is up, its counts begin afresh and it resends; or three failures in a row fail it. -/
def trainingDone (l : Nat) (ok : Bool) (s : State) : State :=
  let k := linkAt s l
  if k.st ≠ 1 then s
  else if ok then
    let s := { s with lostTold := s.lostTold.filter fun e => e.1 != linkPort l }
    (linkEnds l).foldl (fun s e =>
      putLink s e (resend { linkAt s e with st := 2, sent := [], allow := [], freed := (freshLink 2).freed, fails := 0, ackClk := s.clk })) s
  else if k.fails + 1 < 3 then putLink s l { k with fails := k.fails + 1 }
  else linkFailed s l

/-- TLCTL_RETRAIN: a link that is up or failed trains again. -/
def tlctlRetrain (l : Nat) (s : State) : State :=
  match (linkAt s l).st with
  | 2 => retrain s l
  | 3 => retrain s l
  | _ => s

/-- A write to TLCTL: EN (fixed at 1 for the far seam) and DDUP are kept; enabling a port starts its training, once READY is set (R327),
disabling it takes it down with its unacknowledged cells kept (R325); then RETRAIN. -/
def tlctlWrite (l : Nat) (v : DWord) (s : State) : State :=
  let en := fbit v 0 || decide (16 ≤ l)
  let was := fbit (mget s (linkReg l 0x06)) 0 || decide (16 ≤ l)
  let s := mput s (linkReg l 0x06) (dw (fld v 1 1 * 2 + en.toNat))
  let s := if en && !was then (if s.boot.ready then putLink s l (trainEnd (linkAt s l)) else s)
    else if !en && was then putLink s l { linkAt s l with st := 0 } else s
  if fbit v 2 then tlctlRetrain l s else s

/-- TARSOR_CELL_SEND (R322). -/
def execTarsorCellSend (link : Nat) (cell : Cell) (s : State) : Out := .next (cellSend link cell s)

/-- TARSOR_DATA_CELL (R323). -/
def execTarsorDataCell (link : Nat) (cell : Cell) (s : State) : Out := .next (dataCell link cell s)

/-- TARSOR_DEDUP_REFERENCE (R324). -/
def execTarsorDedupReference (link : Nat) (cell : Cell) (s : State) : Out := .next (dedupCell link cell s)

/-- TARSOR_REPLAY_REQUEST (R323). -/
def execTarsorReplayRequest (link : Nat) (cell : Cell) (s : State) : Out := .next (replayRequest link cell s)

/-- TARSOR_IDLE_CELL (R322). -/
def execTarsorIdleCell (link : Nat) (cell : Cell) (s : State) : Out := .next (idleCell link cell s)

/-- LINK_REPLAY_LIMIT (R385). -/
def execLinkReplayLimit (link : Nat) (s : State) : Out := .next (replayLimit link s)

/-- LINK_ACK_TIMEOUT (R385). -/
def execLinkAckTimeout (link : Nat) (s : State) : Out := .next (ackTimeout link s)

/-- LINK_TRAINING_DONE (R385). -/
def execLinkTrainingDone (link : Nat) (ok : Bool) (s : State) : Out := .next (trainingDone link ok s)

/-- TLCTL_RETRAIN (R385). -/
def execTlctlRetrain (link : Nat) (s : State) : Out := .next (tlctlRetrain link s)

/-- TLCTL_EN_WRITE (R327, Table 16.3). -/
def execTlctlEnWrite (link : Nat) (v : DWord) (s : State) : Out := .next (tlctlWrite link v s)

end Sys2Proof.Machine
end

