-- ==== Sys2Proof/Machine/TenantReset.lean ====
section
/-! DEFINITION. Tenant reset (R378, R379). -/

namespace Sys2Proof.Machine

/-! The two moments of a tenant's reset (R378, Table 22.4). -/

/-- Whether a warp of a tenant is inside a clause, which it ends before it stops. -/
def inClause (w : Warp) : Bool := w.run.isSome && w.trap.isNone && !w.handler

/-- Changing or removing every warp of a tenant; what a removed one has held at issue goes with it. -/
def tenantWarps (s : State) (t : Nat) (f : Warp → Option Warp) : State :=
  let g := fun (w : Warp) => if w.uid != 0 && tenantOf s w == t then f w else some w
  let gone := fun uid => s.allWarps.any fun w => w.uid == uid && (g w).isNone
  { s with
    cur := (g s.cur).getD {}
    warps := s.warps.filterMap g
    held := s.held.filter fun h => !gone h.warp
    wants := s.wants.filter fun x => !gone x.warp }

/-- Step 1 for one queue: EN clears, the unread records are skipped. -/
def closeQueue (s : State) (i : Nat) : State :=
  let x := pkgReg s 0x21 i
  pkgPut (pkgPut s 0x22 i (putFld (pkgReg s 0x22 i) 63 63 0)) 0x21 i (putFld x 15 0 (fld x 47 32))

/-- A warp that is still to end its clause: its parked lanes stop and its log entries are dropped (steps 2 and 5). -/
def stopParks (w : Warp) : Warp :=
  { w with olog := [], park := [], pend := w.pend.filter fun p => !w.olog.any fun e => e.src == p.src }

/-- The tenant's staged stores are discarded; only those of an open transaction that a warp inside a clause may still end stay, as
an XEND completes or fails whole (step 4). -/
def dropStaged (s : State) (t : Nat) : State :=
  let ends := (s.allWarps.filter inClause).map (·.uid)
  { s with
    staging := s.staging.filter fun e => e.tenant != t || (e.txn != 0 && ends.contains e.txn)
    credits := s.credits.filter fun c => !(s.ctxs.any fun x => x.id == c.ctx && x.tenant == t) }

/-- Steps 1 to 4 of R378 as they begin: the queues close, every warp of the tenant that is not inside a clause stops at once,
no engine command of it goes on, and what is staged is discarded (DEDUCED, log entry 46). -/
def resetBegin (s : State) (t : Nat) : State :=
  let is := (List.range Config.queues).map (8 * t + ·)
  let n := (is.map (queueCount s)).sum
  let s := is.foldl closeQueue { s with discarded := nset 0 s.discarded t n }
  let s := pkgPut s 0x26 t (putFld (pkgReg s 0x26 t) 1 1 1)
  dropStaged (tenantWarps s t fun w => if inClause w then some (stopParks w) else none) t

/-- A write to TRST: ERR is write-one-to-clear; GO starts the reset, or sets ERR while one is in progress. -/
def trstWrite (t : Nat) (v : DWord) (s : State) : State :=
  let s := if fbit v 2 then pkgPut s 0x26 t (putFld (pkgReg s 0x26 t) 2 2 0) else s
  if !fbit v 0 then s
  else if resetting s t then pkgPut s 0x26 t (putFld (pkgReg s 0x26 t) 2 2 1)
  else resetBegin s t

/-- Tile counts without those of a cluster's window. -/
def freeTiles (s : State) (c : Cluster) : State :=
  { s with tiles := s.tiles.filter fun e => !(c.cores.contains (e.1 / 512) && inWindow c (e.1 % 512 * 1024)) }

/-- A command that has a row operation in a stack stays until the stack has done it (step 3). -/
def inStack (c : Cmd) : Bool := (c.kind == .rowzf || c.kind == .rowcp) && c.sent.contains 1

/-- Steps 3 to 8 of R378: what is left of the tenant's work goes. -/
def resetFinish (s : State) (t : Nat) : State :=
  let mine := fun (id : Nat) => s.ctxs.any fun c => c.id == id && c.tenant == t
  let uids := ((s.allWarps.filter fun w => tenantOf s w == t).map (·.uid))
  let s1 := tenantWarps s t fun _ => none
  let s1 := (s.clusters.filter fun c => mine c.ctx).foldl freeTiles s1
  let s1 := (s.blocks.filter fun b => mine b.ctx).foldl clearColumns s1
  let s1 := { s1 with
    ctxs := s.ctxs.filter fun c => c.tenant != t
    clusters := s.clusters.filter fun c => !mine c.ctx
    blocks := s.blocks.filter fun b => !mine b.ctx
    saved := s.saved.filter fun v => !mine v.ctx
    cmds := s.cmds.filter fun c => !mine c.ctx || inStack c
    reqs := (s.reqs.map fun q => if mine q.ctx then { q with groups := [] } else q).filter fun q => !q.groups.isEmpty || q.away.isSome
    products := s.products.filter fun p => !uids.contains p.warp
    credits := s.credits.filter fun c => !mine c.ctx
    staging := s.staging.filter fun e => e.tenant != t
    watches := s.watches.filter fun x => x.tenant != t
    replicas := s.replicas.filter fun r => !mine r.ctx
    migrs := s.migrs.filter fun m => m.tenant != t
    remotes := s.remotes.filter fun r => r.tenant != t
    discarded := nset 0 s.discarded t 0 }
  let s1 := dropLeaves s1 t 3 0
  reportBare (pkgPut s1 0x26 t (putFld (pkgReg s1 0x26 t) 1 1 0)) t 0
    { cause := 0x4A, info0 := nget 0 s.discarded t, src := 3, sev := 2 }

/-- TENANT_RESET_COMPLETE: once no warp of the tenant is inside a clause and no move of its pages is under way. -/
def resetComplete (t : Nat) (s : State) : State :=
  if !resetting s t || (s.allWarps.any fun w => tenantOf s w == t && w.uid != 0 && inClause w) || tenantMoving s t then s
  else resetFinish s t

/-- TENANT_RESET (R378). -/
def execTenantReset (t : Nat) (s : State) : Out := .next (trstWrite t 1 s)

/-- TENANT_RESET_COMPLETE (R378). -/
def execTenantResetComplete (t : Nat) (s : State) : Out := .next (resetComplete t s)

end Sys2Proof.Machine
end

