-- ==== Sys2Proof/Machine/Registers.lean ====
section
/-! DEFINITION. Management registers by number (R5, R351, R408, R409). -/

namespace Sys2Proof.Machine

/-! Register numbers (R408, Table 16.13). -/

/-- DOM, FAM and IDX of a register number. -/
def numDom (n : Nat) : Nat := bitsN n 31 28
/-- FAM. -/
def numFam (n : Nat) : Nat := bitsN n 27 20
/-- IDX. -/
def numIdx (n : Nat) : Nat := bitsN n 19 0

/-- Whether an instance of a per-core family exists. -/
def coreFamOk (fam idx : Nat) : Bool :=
  match fam with
  | 0x40 => idx == 0
  | 0x41 => decide (idx < 8)
  | 0x42 => decide (idx < 4)
  | 0x43 => decide (idx < 4)
  | 0x44 => idx == 0
  | 0x45 => decide (idx < 64)
  | _ => false

/-- Whether an instance of a family exists in DOM 0, 1 or 2. -/
def shelfFamOk (dom fam idx : Nat) : Bool :=
  match fam with
  | 0x01 => decide (idx < 64)
  | 0x02 => idx == 0
  | 0x03 => decide (dom ≤ 1) && idx == 0
  | 0x04 => decide (dom ≤ 1) && decide (idx < 64)
  | 0x05 => decide (dom ≤ 1) && (idx == 2 * dom || idx == 2 * dom + 1)
  | 0x06 => decide (dom ≤ 1) && (idx / 8 == dom || idx == 16)
  | 0x07 => decide (dom ≤ 1) && (idx / 8 == dom || idx == 16)
  | 0x08 => decide (idx < 64)
  | 0x09 => decide (idx < 64)
  | 0x0A => decide (idx < 64)
  | 0x10 => decide (idx < 16)
  | 0x11 => decide (idx < 16)
  | 0x12 => decide (idx < 16)
  | 0x13 => decide (idx < 16)
  | 0x14 => decide (idx < 16)
  | 0x15 => decide (idx < 64)
  | 0x20 => dom == 0 && decide (idx < 128)
  | 0x21 => dom == 0 && decide (idx < 128)
  | 0x22 => dom == 0 && decide (idx < 128)
  | 0x23 => dom == 0 && decide (idx < 128)
  | 0x24 => dom == 0 && decide (idx < 16)
  | 0x25 => dom == 0 && decide (idx < 16)
  | 0x26 => dom == 0 && decide (idx < 16)
  | 0x27 => dom == 0 && decide (idx < 16)
  | 0x28 => dom == 0 && decide (idx < 17)
  | 0x29 => dom == 0 && decide (idx < 17)
  | 0x2A => dom == 0 && decide (idx < 17)
  | 0x2B => dom == 0 && idx == 0
  | 0x2C => dom == 0 && idx == 0
  | 0x2D => dom == 0 && idx == 0
  | _ => false

/-- Whether a register number names a register. -/
def regOk (n : Nat) : Bool :=
  decide (n < 2 ^ 32) &&
    match numDom n with
    | 0 | 1 | 2 => shelfFamOk (numDom n) (numFam n) (numIdx n)
    | 3 => decide (bitsN n 19 11 < Config.cores) && coreFamOk (numFam n) (bitsN n 10 0)
    | _ => false

/-! Reading. -/

/-- MEMCFG (Table 3.9); its final value at all times, before READY too (DESIGN CHOICE, log entry 132). -/
def memcfg : DWord := dw (0xC00000 * 2 ^ 32 + 0x100000)

/-- TIDESTS of a slice (Table 24.3); SMAX has its final value at all times, before READY too (DESIGN CHOICE, log entry 132). -/
def tidests (s : State) (slice : Nat) : DWord :=
  dw (Config.spillEntries * 2 ^ 32 + watchCount s slice 2 * 2 ^ 16 + watchCount s slice 1)

/-- Link end of a port's register on a shelf. -/
def linkOf (shelf idx : Nat) : Nat := if idx = 16 then 16 + shelf else idx

/-- A register's value; DOM 2 reads shelf 0's copy (R409). -/
def regRead (s : State) (n : Nat) : Option DWord :=
  if !regOk n then none
  else
    let dom := if numDom n = 2 then 0 else numDom n
    let idx := numIdx n
    some <| match numFam n with
      | 0x03 => memcfg
      | 0x04 => tidests s (64 * dom + idx)
      | 0x07 => tlsts s (linkOf dom idx)
      | 0x2D => s.boot.bdiag
      | 0x45 => wstatRead s (bitsN n 19 11) (bitsN n 10 0)
      | fam => mget s (mnum dom fam idx)

/-! Writing. -/

/-- Bits [hi:lo]. -/
def maskBits (hi lo : Nat) : DWord := dw (2 ^ (hi + 1) - 2 ^ lo)

/-- RW bits of a register whose writes do no more than store (R5). -/
def rwMask (fam : Nat) : DWord :=
  match fam with
  | 0x01 => maskBits 63 58 ||| maskBits 43 0
  | 0x08 => maskBits 63 63 ||| maskBits 47 32 ||| maskBits 15 0
  | 0x09 => maskBits 59 21
  | 0x0A => maskBits 63 63 ||| maskBits 59 21 ||| maskBits 19 0
  | 0x10 => maskBits 59 13 ||| maskBits 0 0
  | 0x11 => maskBits 51 14 ||| maskBits 0 0
  | 0x12 => maskBits 59 9 ||| maskBits 0 0
  | 0x13 => maskBits 59 0
  | 0x14 => maskBits 7 0
  | 0x15 => maskBits 59 8
  | 0x20 => maskBits 59 8 ||| maskBits 3 0
  | 0x22 => maskBits 63 63 ||| maskBits 57 56 ||| maskBits 31 0
  | 0x24 => maskBits 59 0
  | 0x27 => maskBits 59 17
  | 0x28 => maskBits 51 12 ||| maskBits 3 0
  | 0x40 => maskBits 3 0
  | 0x41 => maskBits 63 63 ||| maskBits 59 2
  | 0x42 => maskBits 59 0
  | 0x43 => maskBits 63 0
  | _ => 0

/-- A write to EQIDX: CIDX, unless the ring would hold more than its slots (R351). -/
def cidxWrite (n : Nat) (v : DWord) (s : State) : State :=
  let x := pkgReg s 0x29 n
  let c := fld v 47 32
  if 2 ^ (fld (pkgReg s 0x28 n) 3 0 + 6) < (fld x 15 0 + 2 ^ 16 - c) % 2 ^ 16 then s
  else pkgPut s 0x29 n (putFld x 47 32 c)

/-- A write to EQCTL: IE, ARM by a one, LCNT cleared by CLR (Table 19.3). -/
def eqctlWrite (n : Nat) (v : DWord) (s : State) : State :=
  let x := pkgReg s 0x2A n
  let x := putFld x 0 0 (fld v 0 0)
  let x := if fbit v 1 then putFld x 1 1 1 else x
  pkgPut s 0x2A n (if fbit v 2 then putFld x 63 48 0 else x)

/-- Whether a plain write is ignored: PAYPOOL while an entry of the tenant holds a slot (R376), QBASE while the queue is enabled
(R275). -/
def writeIgnored (s : State) (fam idx : Nat) : Bool :=
  match fam with
  | 0x13 => !(usedSlots s idx).isEmpty
  | 0x20 => fbit (pkgReg s 0x22 idx) 63
  | _ => false

/-- Writing one shelf's copy, a register that exists once, or a core's (`dom` 0, 1 or 3). A write to an entry of the active bank takes
effect at once (DESIGN CHOICE, log entry 133). -/
def writeOne (dom fam idx : Nat) (v : DWord) (s : State) : State :=
  match fam with
  | 0x02 => actWrite v s
  | 0x03 => s
  | 0x04 => s
  | 0x05 => s
  | 0x06 => tlctlWrite (linkOf dom idx) v s
  | 0x07 => s
  | 0x21 => widxWrite (idx / 8) (idx % 8) v s
  | 0x23 => s
  | 0x25 => suspWrite idx v s
  | 0x26 => trstWrite idx v s
  | 0x29 => cidxWrite idx v s
  | 0x2A => eqctlWrite idx v s
  | 0x2B => tlbinvWrite v s
  | 0x2C => s
  | 0x2D => s
  | 0x44 => wctlWrite (idx / 2 ^ 11) v s
  | 0x45 => s
  | _ => if writeIgnored s fam idx then s else mput s (mnum dom fam idx) (v &&& rwMask fam)

/-- A write to a register number: none where it names no register; DOM 2 writes both copies (R409). One that names an entry of the
active bank takes effect at once (DESIGN CHOICE, log entry 133). -/
def regWrite (s : State) (n : Nat) (v : DWord) : Option State :=
  if !regOk n then none
  else if numDom n = 2 then
    (if numFam n = 0x02 then some (actWrite v s)
     else some (writeOne 1 (numFam n) (numIdx n) v (writeOne 0 (numFam n) (numIdx n) v s)))
  else some (writeOne (numDom n) (numFam n) (numIdx n) v s)

/-- REGISTER_WRITE: a management register by its number, or MBQBASE and MBCBASE of BAR0 by 2^30 plus their offset (DESIGN CHOICE,
log entry 32). -/
def registerWrite (n : Nat) (v : DWord) (s : State) : State :=
  if n = 2 ^ 30 then onBoot s fun b => { b with mbqbase := v &&& (maskBits 63 6 ||| maskBits 3 0) }
  else if n = 2 ^ 30 + 8 then onBoot s fun b => { b with mbcbase := v &&& maskBits 63 4 }
  else (regWrite s n v).getD s

/-- EQIDX_CIDX_WRITE (R351). -/
def execEqidxCidxWrite (n : Nat) (v : DWord) (s : State) : Out := .next (cidxWrite n v s)

/-- EQCTL_CLR (R351): IE is written as it stands. -/
def execEqctlClr (n : Nat) (s : State) : Out := .next (eqctlWrite n (dw (fld (pkgReg s 0x2A n) 0 0 + 4)) s)

/-- REGISTER_WRITE (R5, R408, R409). -/
def execRegisterWrite (num : Nat) (v : DWord) (s : State) : Out := .next (registerWrite num v s)

end Sys2Proof.Machine
end

