-- ==== Sys2Proof/Machine/Mailbox.lean ====
section
/-! DEFINITION. The host mailbox (R82, R326, R399, R400). -/

namespace Sys2Proof.Machine

/-! The rings (R326, Table 16.5). -/

/-- Slots of both rings; none while LSZ is reserved or a base is zero, so that nothing is fetched. -/
def mbSlots (s : State) : Option Nat :=
  let lsz := fld s.boot.mbqbase 3 0
  if 13 ≤ lsz ∨ s.boot.mbqbase = 0 ∨ s.boot.mbcbase = 0 then none else some (2 ^ (lsz + 4))

/-- MBHEAD_WRITE: commands are announced, or the write is ignored; one that would overrun the ring sets MBOVR. -/
def mbheadWrite (v : DWord) (s : State) : State :=
  match mbSlots s with
  | none => s
  | some n =>
    let h := v.setWidth 16
    if n < (h - s.boot.mbtail).toNat then onBoot s fun b => { b with mbovr := true }
    else onBoot s fun b => { b with mbhead := h, mbovr := false }

/-- HSTAT (Table 16.8). -/
def hstat (s : State) : DWord :=
  dw (s.boot.errc.toNat * 2 ^ 24 + s.boot.fwsv.toNat * 2 ^ 16 + s.boot.head % 16 * 2 ^ 8 + s.boot.stage % 16 * 2 ^ 4 +
    s.boot.mbovr.toNat * 2 + s.boot.ready.toNat)

/-- The 64 bytes of the next command in its slot. -/
def mbBytes (s : State) (n : Nat) : List Byte :=
  ngetRange 0 s.host (fld s.boot.mbqbase 63 6 * 64 + 64 * (s.boot.mbtail.toNat % n)) 64

/-- A command from its bytes (Table 16.6). -/
def mbParse (bs : List Byte) : MbCmd :=
  { w0 := dw (ofBytes (bs.take 8)), w1 := dw (ofBytes ((bs.drop 8).take 8)), w2 := dw (ofBytes ((bs.drop 16).take 8))
    restZero := (bs.drop 24).all (· == 0) }

/-- The command of the ring's next slot, if one is announced. -/
def mbNext (s : State) : Option MbCmd :=
  match mbSlots s with
  | none => none
  | some n => if s.boot.mbhead = s.boot.mbtail then none else some (mbParse (mbBytes s n))

/-- OP. -/
def mbOp (c : MbCmd) : Nat := fld c.w0 7 0
/-- Bytes: LEN + 1. -/
def mbLen (c : MbCmd) : Nat := fld c.w0 19 8 + 1

/-- The completion (R326): TAG, status and phase, and MBTAIL passes the command. -/
def mbComplete (s : State) (c : MbCmd) (status : Nat) : State :=
  let n := (mbSlots s).getD 16
  let slot := s.boot.mbtail.toNat % n
  let ph := s.boot.mbFlip != Config.mbPhase
  let x := fld c.w0 47 32 + status * 2 ^ 16 + ph.toNat * 2 ^ 24
  let s := { s with host := nsetRange 0 s.host (fld s.boot.mbcbase 63 4 * 16 + 16 * slot) (bytesOf 16 x) }
  onBoot s fun b => { b with mbtail := b.mbtail + 1, mbFlip := if slot + 1 = n then !b.mbFlip else b.mbFlip }

/-- A command that breaks Table 16.6: a reserved OP or a nonzero zero field; a misaligned address of a WRITE. -/
def mbMalformed (c : MbCmd) : Bool :=
  decide (mbOp c = 0) || decide (7 < mbOp c) || decide (fld c.w0 31 20 ≠ 0) || decide (fld c.w0 63 48 ≠ 0) || !c.restZero ||
    (decide (mbOp c = 1) && decide (fld c.w1 2 0 ≠ 0))

/-- Whether a command is refused with status 1 (R400). -/
def mbRefused (s : State) (c : MbCmd) : Bool :=
  !s.boot.ready && mbOp c != 4 && !(mbOp c == 7 && s.boot.stage == 8)

/-- The mailbox engine takes the next command, whose OP is `op` or reserved: refused, malformed, or done by `f`
(DEDUCED, log entry 45). -/
def mbStep (op : Nat) (c : MbCmd) (s : State) (f : State → State) : State :=
  if mbNext s ≠ some c || (mbOp c != op && decide (1 ≤ mbOp c) && decide (mbOp c ≤ 7)) then s
  else if mbRefused s c then mbComplete s c 1
  else if mbMalformed c then mbComplete s c 3
  else f s

/-! The operations (Table 16.7). -/

/-- Whether `n` bytes at a device address all stand in populated memory. -/
def mbRange (pa n : Nat) : Bool := (List.range n).all fun i => paLocal (pa + i)

/-- The addresses of `n` bytes. -/
def addrsOf (pa n : Nat) : List Nat := (List.range n).map (pa + ·)

/-- WRITE: each aligned 8 bytes is one write at its home (R82); a tail of fewer bytes is one shorter write. It waits while a
line is held. -/
def mbWriteDo (c : MbCmd) (s : State) : State :=
  let pa := c.w1.toNat
  let n := mbLen c
  if !mbRange pa n then mbComplete s c 2
  else if anyLocked s (addrsOf pa n) || anyHeld s (addrsOf pa n) then s
  else
    let bs := ngetRange 0 s.host c.w2.toNat n
    let s := (List.range ((n + 7) / 8)).foldl (fun s k => applyWrite s (atAddr (pa + 8 * k) ((bs.drop (8 * k)).take 8))) s
    mbComplete s c 0

/-- READ: bytes at their home, to the host; status 4 where one is poisoned. -/
def mbReadDo (c : MbCmd) (s : State) : State :=
  let pa := c.w1.toNat
  let n := mbLen c
  if !mbRange pa n then mbComplete s c 2
  else if anyLocked s (addrsOf pa n) then s
  else if poisonedAt s pa n then mbComplete s c 4
  else mbComplete { fillBytes s pa n with host := nsetRange 0 s.host c.w2.toNat (homeBytes s pa n) } c 0

/-- REGWR. -/
def mbRegwrDo (c : MbCmd) (s : State) : State :=
  match regWrite s c.w1.toNat c.w2 with
  | some s => mbComplete s c 0
  | none => mbComplete s c 3

/-- REGRD. -/
def mbRegrdDo (c : MbCmd) (s : State) : State :=
  match regRead s c.w1.toNat with
  | some v => mbComplete { s with host := nsetRange 0 s.host c.w2.toNat (bytesOf 8 v.toNat) } c 0
  | none => mbComplete s c 3

/-- Kind of the move that a MIGRATE asks for. -/
def mbKind (c : MbCmd) : Nat := if fbit c.w2 8 then (if fbit c.w2 9 then 2 else 1) else 0

/-- Whether a leaf lies in the tier that the command asks for. -/
def inTier (c : MbCmd) (e : DWord) : Bool := leafTIER e == fbit c.w2 8

/-- What a page's leaf decides for MIGRATE: refused, nothing to move, or a move that starts. -/
def mbMove (c : MbCmd) (s : State) (start : State → DWord → State) (e : DWord) (gig : Bool) : State :=
  if gig || leafSTATE e = 2 || leafSTATE e = 3 then mbComplete s c 3
  else if inTier c e then mbComplete s c 0
  else start s e

/-- MIGRATE (R302): the command's own move goes on; a failed one answers status 7; an earlier failed one is tried again as the
command says, by the leaf as it stands, or as it stood where the failed move has left it invalid; otherwise the leaf decides. -/
def mbMigrateDo (c : MbCmd) (s : State) : State :=
  let t := fld c.w2 3 0
  let va := c.w1.toNat
  let page := va / 65536
  let start := fun (s : State) (e : DWord) => migrStart s { tenant := t, page := page, kind := mbKind c, leaf := e, failed := false, mb := true }
  match findMigr s t page with
  | some m =>
    if !m.failed then s
    else if m.mb then mbComplete (putMigr s t page (some { m with mb := false })) c 7
    else
      match homeWalk s t va with
      | .leaf e g => mbMove c s start e g
      | _ => mbMove c s start m.leaf false
  | none =>
    match homeWalk s t va with
    | .leaf e g => mbMove c s start e g
    | _ => mbComplete s c 3

/-- Clusters of a tenant's queue. -/
def queueClusters (s : State) (t q : Nat) : List Cluster :=
  s.clusters.filter fun k => (clusterCtx s k).any fun x => x.tenant == t && x.queue == q

/-- SAVE (R286): the whole context where the save region holds it; it completes when the saves have. -/
def mbSaveDo (c : MbCmd) (s : State) : State :=
  let t := fld c.w2 3 0
  let cs := queueClusters s t (fld c.w2 6 4)
  let new := cs.filter fun k => k.saving.isNone
  if s.boot.mbSave then
    (if cs.any fun k => k.saving.isSome then s else mbComplete (onBoot s fun b => { b with mbSave := false }) c 0)
  else if cs.isEmpty then mbComplete s c 0
  else if !saveFits s t new then mbComplete s c 6
  else onBoot (startSave s new) fun b => { b with mbSave := true }

/-- IMAGE (R329, R399): the chunk is placed; the last one is checked, and an image that passes is written to flash, where the
write itself may fail. The host address is word 2 without the flag in bit 0. -/
def mbImageDo (c : MbCmd) (s : State) : State :=
  let off := c.w1.toNat
  let n := mbLen c
  if s.boot.stage ≠ 8 ∨ Config.recoveryBytes < off + n then mbComplete s c 3
  else
    let s := { s with sram := nsetRange 0 s.sram off (ngetRange 0 s.host (c.w2.toNat / 2 * 2) n) }
    if !fbit c.w2 0 then mbComplete s c 0
    else
      match imageCheck s.sram with
      | some e => mbComplete (onBoot s fun b => { b with errc := e, bdiag := diagWord (dieDiag e b.head) }) c 5
      | none =>
        let (k, s) := choose s 2
        if k = 1 then mbComplete { s with flash := [] } c 5
        else enterStage (mbComplete { s with flash := s.sram } c 0) 3

/-- MBHEAD_WRITE (R326). -/
def execMbheadWrite (v : DWord) (s : State) : Out := .next (mbheadWrite v s)

/-- MB_WRITE (R326, R400, Table 16.7). -/
def execMbWrite (cmd : MbCmd) (s : State) : Out := .next (mbStep 1 cmd s (mbWriteDo cmd))

/-- MB_READ (R326, R400, Table 16.7). -/
def execMbRead (cmd : MbCmd) (s : State) : Out := .next (mbStep 2 cmd s (mbReadDo cmd))

/-- MB_REGWR (R326, R400, Table 16.7). -/
def execMbRegwr (cmd : MbCmd) (s : State) : Out := .next (mbStep 3 cmd s (mbRegwrDo cmd))

/-- MB_REGRD (R326, R400, Table 16.7). -/
def execMbRegrd (cmd : MbCmd) (s : State) : Out := .next (mbStep 4 cmd s (mbRegrdDo cmd))

/-- MB_MIGRATE (R326, R400, Table 16.7). -/
def execMbMigrate (cmd : MbCmd) (s : State) : Out := .next (mbStep 5 cmd s (mbMigrateDo cmd))

/-- MB_SAVE (R326, R400, Table 16.7). -/
def execMbSave (cmd : MbCmd) (s : State) : Out := .next (mbStep 6 cmd s (mbSaveDo cmd))

/-- MB_IMAGE (R326, R400, Table 16.7). -/
def execMbImage (cmd : MbCmd) (s : State) : Out := .next (mbStep 7 cmd s (mbImageDo cmd))

end Sys2Proof.Machine
end

