-- ==== Sys2Proof/Machine/Uniform.lean ====
section
/-! DEFINITION. The uniform instructions (R146, R147): one result for the warp, in s registers. -/

namespace Sys2Proof.Machine

/-- SMAD of R146, with 64-bit types. -/
def uniformMad (it : Item) : State → Out :=
  let t := it.ty
  aluOp true it [vtOf t, vtOf t, vtOf t] (vtOf t).pair (commonBads it intTypes 0) fun s w r l =>
    putInt t false (getI s w r it t .a l * getI s w r it t .b l + getI s w r it t .c l)

/-- The operands of SLDP that R147 lists: a an s register or constant, b also the literal. -/
def accParam (lit : Bool) : Accept := { accUni with latch := false, sr := false, lit := lit }

/-- Bytes of the parameter window: zero at and beyond its size (R47, R147). -/
def paramBytes (c : Option Ctx) (off n : Nat) : List Byte :=
  (List.range n).map fun j =>
    match c with
    | some c => if off + j < c.psize then nget 0 c.param (off + j) else 0
    | none => 0

/-- SLDP of R147: types .b32 .b64 .i8 .i16 .n8 .n16 (DEDUCED, log entry 51). -/
def paramLoad (it : Item) (s : State) : Out :=
  let t := it.ty
  let pair := t = 9
  let spec : Spec :=
    { uses := [.src .a vtCount (accParam false), .src .b vtCount (accParam true), .unused .c, .dstS (if pair then 2 else 1)],
      bads := commonBads it [0, 1, 4, 5, 8, 9] 0, capt := true }
  issue it (fun _ _ _ => spec) s fun s w r =>
    let off := (operand s w r it vtCount .a 0 + operand s w r it vtCount .b 0) % 2 ^ 32
    let n := tyWidth t / 8
    if guardU w it && off % n ≠ 0 then
      preciseFault s r { cause := 0x06, addr := dw off, asp := 0, info0 := Nat.log2 n, aux := it.raw }
    else
      let x := ofBytes (paramBytes (ctxOf s w) off n)
      uniResult s r it pair (if t < 2 then wrapInt 32 (signedOf (8 * n) x) else x)

/-- SMOV (R146): d := a. -/
def execSmov (f : Long) (s : State) : Out := moveOp true (longItem 0x020 true f) s

/-- SMOV.b32, short. -/
def execSmovShort (f : Short) (s : State) : Out := moveOp true (shortItem 0x33 true 0x400 f) s

/-- SADD (R146, R148). -/
def execSadd (f : Long) (s : State) : Out := arith2 true true (longItem 0x021 true f) (· + ·) s

/-- SADD.i32, short. -/
def execSaddShort (f : Short) (s : State) : Out := arith2 true true (shortItem 0x34 true 0x100 f) (· + ·) s

/-- SSUB (R146, R148). -/
def execSsub (f : Long) (s : State) : Out := arith2 true true (longItem 0x022 true f) (· - ·) s

/-- SSUB.i32, short. -/
def execSsubShort (f : Short) (s : State) : Out := arith2 true true (shortItem 0x35 true 0x100 f) (· - ·) s

/-- SMUL (R146, R148). -/
def execSmul (f : Long) (s : State) : Out := arith2 true false (longItem 0x023 true f) (· * ·) s

/-- SMUL.i32, short. -/
def execSmulShort (f : Short) (s : State) : Out := arith2 true false (shortItem 0x36 true 0x100 f) (· * ·) s

/-- SMAD (R146). -/
def execSmad (f : Long) (s : State) : Out := uniformMad (longItem 0x024 true f) s

/-- SAND (R146). -/
def execSand (f : Long) (s : State) : Out := bit2 true (longItem 0x025 true f) (· &&& ·) s

/-- SAND.b32, short. -/
def execSandShort (f : Short) (s : State) : Out := bit2 true (shortItem 0x37 true 0x400 f) (· &&& ·) s

/-- SOR (R146). -/
def execSor (f : Long) (s : State) : Out := bit2 true (longItem 0x026 true f) (· ||| ·) s

/-- SOR.b32, short. -/
def execSorShort (f : Short) (s : State) : Out := bit2 true (shortItem 0x38 true 0x400 f) (· ||| ·) s

/-- SXOR (R146). -/
def execSxor (f : Long) (s : State) : Out := bit2 true (longItem 0x027 true f) (· ^^^ ·) s

/-- SXOR.b32, short. -/
def execSxorShort (f : Short) (s : State) : Out := bit2 true (shortItem 0x39 true 0x400 f) (· ^^^ ·) s

/-- SSHL (R146, R149). -/
def execSshl (f : Long) (s : State) : Out := shiftOp true (longItem 0x028 true f) 0 [8, 9] s

/-- SSHL.b32, short. -/
def execSshlShort (f : Short) (s : State) : Out := shiftOp true (shortItem 0x3A true 0x400 f) 0 [8, 9] s

/-- SSHR (R146, R149). -/
def execSshr (f : Long) (s : State) : Out := shiftOp true (longItem 0x029 true f) 1 [6, 7] s

/-- SSHR.n32, short. -/
def execSshrShort (f : Short) (s : State) : Out := shiftOp true (shortItem 0x3B true 0x300 f) 1 [6, 7] s

/-- SSHA (R146, R149). -/
def execSsha (f : Long) (s : State) : Out := shiftOp true (longItem 0x02A true f) 2 [2, 3] s

/-- SCMP (R146, R152): the compare written to a uniform predicate. -/
def execScmp (f : Long) (s : State) : Out := compareOp true (longItem 0x02B true f) s

/-- SSEL (R146, R152). -/
def execSsel (f : Long) (s : State) : Out := selectOp true (longItem 0x02C true f) s

/-- SLDP (R147). -/
def execSldp (f : Long) (s : State) : Out := paramLoad (longItem 0x02D true f) s

/-- SLDP.b32, short: [a + b] (R125). -/
def execSldpShort (f : Short) (s : State) : Out := paramLoad (shortItem 0x3C true 0x400 f) s

end Sys2Proof.Machine
end

