-- ==== Sys2Proof/Machine/Dispatch.lean ====
section
/-! DEFINITION. One arm for each constructor of Instr: a direct call of its meaning. -/

namespace Sys2Proof.Machine

def exec (i : Instr) (s : State) : Host.Outcome State Fault Refusal :=
  match i with
  | .bra f => Sys2Proof.Machine.execBra f s
  | .brx f => Sys2Proof.Machine.execBrx f s
  | .call f => Sys2Proof.Machine.execCall f s
  | .callx f => Sys2Proof.Machine.execCallx f s
  | .ret f => Sys2Proof.Machine.execRet f s
  | .exit f => Sys2Proof.Machine.execExit f s
  | .exitShort f => Sys2Proof.Machine.execExitShort f s
  | .rcv f => Sys2Proof.Machine.execRcv f s
  | .yield f => Sys2Proof.Machine.execYield f s
  | .yieldShort f => Sys2Proof.Machine.execYieldShort f s
  | .nop f => Sys2Proof.Machine.execNop f s
  | .nopShort f => Sys2Proof.Machine.execNopShort f s
  | .launch f => Sys2Proof.Machine.execLaunch f s
  | .smov f => Sys2Proof.Machine.execSmov f s
  | .smovShort f => Sys2Proof.Machine.execSmovShort f s
  | .sadd f => Sys2Proof.Machine.execSadd f s
  | .saddShort f => Sys2Proof.Machine.execSaddShort f s
  | .ssub f => Sys2Proof.Machine.execSsub f s
  | .ssubShort f => Sys2Proof.Machine.execSsubShort f s
  | .smul f => Sys2Proof.Machine.execSmul f s
  | .smulShort f => Sys2Proof.Machine.execSmulShort f s
  | .smad f => Sys2Proof.Machine.execSmad f s
  | .sand f => Sys2Proof.Machine.execSand f s
  | .sandShort f => Sys2Proof.Machine.execSandShort f s
  | .sor f => Sys2Proof.Machine.execSor f s
  | .sorShort f => Sys2Proof.Machine.execSorShort f s
  | .sxor f => Sys2Proof.Machine.execSxor f s
  | .sxorShort f => Sys2Proof.Machine.execSxorShort f s
  | .sshl f => Sys2Proof.Machine.execSshl f s
  | .sshlShort f => Sys2Proof.Machine.execSshlShort f s
  | .sshr f => Sys2Proof.Machine.execSshr f s
  | .sshrShort f => Sys2Proof.Machine.execSshrShort f s
  | .ssha f => Sys2Proof.Machine.execSsha f s
  | .scmp f => Sys2Proof.Machine.execScmp f s
  | .ssel f => Sys2Proof.Machine.execSsel f s
  | .sldp f => Sys2Proof.Machine.execSldp f s
  | .sldpShort f => Sys2Proof.Machine.execSldpShort f s
  | .iadd f => Sys2Proof.Machine.execIadd f s
  | .iaddShort f => Sys2Proof.Machine.execIaddShort f s
  | .iadd3 f => Sys2Proof.Machine.execIadd3 f s
  | .isub f => Sys2Proof.Machine.execIsub f s
  | .isubShort f => Sys2Proof.Machine.execIsubShort f s
  | .imul f => Sys2Proof.Machine.execImul f s
  | .imulShort f => Sys2Proof.Machine.execImulShort f s
  | .imulh f => Sys2Proof.Machine.execImulh f s
  | .imulhI32Short f => Sys2Proof.Machine.execImulhI32Short f s
  | .imulhN32Short f => Sys2Proof.Machine.execImulhN32Short f s
  | .imad f => Sys2Proof.Machine.execImad f s
  | .imadw f => Sys2Proof.Machine.execImadw f s
  | .imin f => Sys2Proof.Machine.execImin f s
  | .iminI32Short f => Sys2Proof.Machine.execIminI32Short f s
  | .iminN32Short f => Sys2Proof.Machine.execIminN32Short f s
  | .imax f => Sys2Proof.Machine.execImax f s
  | .imaxI32Short f => Sys2Proof.Machine.execImaxI32Short f s
  | .imaxN32Short f => Sys2Proof.Machine.execImaxN32Short f s
  | .iabs f => Sys2Proof.Machine.execIabs f s
  | .iabsShort f => Sys2Proof.Machine.execIabsShort f s
  | .isad f => Sys2Proof.Machine.execIsad f s
  | .shl f => Sys2Proof.Machine.execShl f s
  | .shlShort f => Sys2Proof.Machine.execShlShort f s
  | .shr f => Sys2Proof.Machine.execShr f s
  | .shrShort f => Sys2Proof.Machine.execShrShort f s
  | .sha f => Sys2Proof.Machine.execSha f s
  | .shaShort f => Sys2Proof.Machine.execShaShort f s
  | .shf f => Sys2Proof.Machine.execShf f s
  | .lop3 f => Sys2Proof.Machine.execLop3 f s
  | .lop3AndShort f => Sys2Proof.Machine.execLop3AndShort f s
  | .lop3OrShort f => Sys2Proof.Machine.execLop3OrShort f s
  | .lop3XorShort f => Sys2Proof.Machine.execLop3XorShort f s
  | .popc f => Sys2Proof.Machine.execPopc f s
  | .popcShort f => Sys2Proof.Machine.execPopcShort f s
  | .clz f => Sys2Proof.Machine.execClz f s
  | .clzShort f => Sys2Proof.Machine.execClzShort f s
  | .brev f => Sys2Proof.Machine.execBrev f s
  | .brevShort f => Sys2Proof.Machine.execBrevShort f s
  | .bfe f => Sys2Proof.Machine.execBfe f s
  | .bfi f => Sys2Proof.Machine.execBfi f s
  | .icmp f => Sys2Proof.Machine.execIcmp f s
  | .isel f => Sys2Proof.Machine.execIsel f s
  | .lea f => Sys2Proof.Machine.execLea f s
  | .lea64 f => Sys2Proof.Machine.execLea64 f s
  | .pset f => Sys2Proof.Machine.execPset f s
  | .plop f => Sys2Proof.Machine.execPlop f s
  | .pmov f => Sys2Proof.Machine.execPmov f s
  | .fadd f => Sys2Proof.Machine.execFadd f s
  | .faddShort f => Sys2Proof.Machine.execFaddShort f s
  | .fmul f => Sys2Proof.Machine.execFmul f s
  | .fmulShort f => Sys2Proof.Machine.execFmulShort f s
  | .ffma f => Sys2Proof.Machine.execFfma f s
  | .fmin f => Sys2Proof.Machine.execFmin f s
  | .fminShort f => Sys2Proof.Machine.execFminShort f s
  | .fmax f => Sys2Proof.Machine.execFmax f s
  | .fmaxShort f => Sys2Proof.Machine.execFmaxShort f s
  | .fcmp f => Sys2Proof.Machine.execFcmp f s
  | .fclass f => Sys2Proof.Machine.execFclass f s
  | .frnd f => Sys2Proof.Machine.execFrnd f s
  | .fscale f => Sys2Proof.Machine.execFscale f s
  | .hadd2 f => Sys2Proof.Machine.execHadd2 f s
  | .hadd2F16Short f => Sys2Proof.Machine.execHadd2F16Short f s
  | .hadd2Bf16Short f => Sys2Proof.Machine.execHadd2Bf16Short f s
  | .hmul2 f => Sys2Proof.Machine.execHmul2 f s
  | .hmul2F16Short f => Sys2Proof.Machine.execHmul2F16Short f s
  | .hmul2Bf16Short f => Sys2Proof.Machine.execHmul2Bf16Short f s
  | .hfma2 f => Sys2Proof.Machine.execHfma2 f s
  | .hmnmx2 f => Sys2Proof.Machine.execHmnmx2 f s
  | .dadd f => Sys2Proof.Machine.execDadd f s
  | .daddShort f => Sys2Proof.Machine.execDaddShort f s
  | .dmul f => Sys2Proof.Machine.execDmul f s
  | .dmulShort f => Sys2Proof.Machine.execDmulShort f s
  | .dfma f => Sys2Proof.Machine.execDfma f s
  | .dcmp f => Sys2Proof.Machine.execDcmp f s
  | .dmnmx f => Sys2Proof.Machine.execDmnmx f s
  | .cvt f => Sys2Proof.Machine.execCvt f s
  | .cvtF32I32Short f => Sys2Proof.Machine.execCvtF32I32Short f s
  | .cvtI32F32Short f => Sys2Proof.Machine.execCvtI32F32Short f s
  | .cvtBf16F32Short f => Sys2Proof.Machine.execCvtBf16F32Short f s
  | .cvtF32Bf16Short f => Sys2Proof.Machine.execCvtF32Bf16Short f s
  | .cvtp f => Sys2Proof.Machine.execCvtp f s
  | .cvtq f => Sys2Proof.Machine.execCvtq f s
  | .rcp f => Sys2Proof.Machine.execRcp f s
  | .rcpShort f => Sys2Proof.Machine.execRcpShort f s
  | .rsq f => Sys2Proof.Machine.execRsq f s
  | .rsqShort f => Sys2Proof.Machine.execRsqShort f s
  | .sqrt f => Sys2Proof.Machine.execSqrt f s
  | .sqrtShort f => Sys2Proof.Machine.execSqrtShort f s
  | .ex2 f => Sys2Proof.Machine.execEx2 f s
  | .ex2Short f => Sys2Proof.Machine.execEx2Short f s
  | .lg2 f => Sys2Proof.Machine.execLg2 f s
  | .lg2Short f => Sys2Proof.Machine.execLg2Short f s
  | .sin f => Sys2Proof.Machine.execSin f s
  | .cos f => Sys2Proof.Machine.execCos f s
  | .tanh f => Sys2Proof.Machine.execTanh f s
  | .tanhShort f => Sys2Proof.Machine.execTanhShort f s
  | .mov f => Sys2Proof.Machine.execMov f s
  | .movShort f => Sys2Proof.Machine.execMovShort f s
  | .movi f => Sys2Proof.Machine.execMovi f s
  | .prmt f => Sys2Proof.Machine.execPrmt f s
  | .shfl f => Sys2Proof.Machine.execShfl f s
  | .shflIdxShort f => Sys2Proof.Machine.execShflIdxShort f s
  | .shflUpShort f => Sys2Proof.Machine.execShflUpShort f s
  | .shflDownShort f => Sys2Proof.Machine.execShflDownShort f s
  | .shflXorShort f => Sys2Proof.Machine.execShflXorShort f s
  | .vote f => Sys2Proof.Machine.execVote f s
  | .matchLanes f => Sys2Proof.Machine.execMatchLanes f s
  | .redux f => Sys2Proof.Machine.execRedux f s
  | .reduxAddShort f => Sys2Proof.Machine.execReduxAddShort f s
  | .reduxMaxShort f => Sys2Proof.Machine.execReduxMaxShort f s
  | .scan f => Sys2Proof.Machine.execScan f s
  | .compress f => Sys2Proof.Machine.execCompress f s
  | .expand f => Sys2Proof.Machine.execExpand f s
  | .part f => Sys2Proof.Machine.execPart f s
  | .lds f => Sys2Proof.Machine.execLds f s
  | .ldsB32Short f => Sys2Proof.Machine.execLdsB32Short f s
  | .ldsB64Short f => Sys2Proof.Machine.execLdsB64Short f s
  | .ldsm f => Sys2Proof.Machine.execLdsm f s
  | .sts f => Sys2Proof.Machine.execSts f s
  | .stsB32Short f => Sys2Proof.Machine.execStsB32Short f s
  | .stsB64Short f => Sys2Proof.Machine.execStsB64Short f s
  | .atoms f => Sys2Proof.Machine.execAtoms f s
  | .reds f => Sys2Proof.Machine.execReds f s
  | .stg f => Sys2Proof.Machine.execStg f s
  | .atomg f => Sys2Proof.Machine.execAtomg f s
  | .redg f => Sys2Proof.Machine.execRedg f s
  | .gather f => Sys2Proof.Machine.execGather f s
  | .tcopy f => Sys2Proof.Machine.execTcopy f s
  | .tstore f => Sys2Proof.Machine.execTstore f s
  | .pcopy f => Sys2Proof.Machine.execPcopy f s
  | .pcopyR f => Sys2Proof.Machine.execPcopyR f s
  | .bload f => Sys2Proof.Machine.execBload f s
  | .preft f => Sys2Proof.Machine.execPreft f s
  | .town f => Sys2Proof.Machine.execTown f s
  | .rowzf f => Sys2Proof.Machine.execRowzf f s
  | .rowcp f => Sys2Proof.Machine.execRowcp f s
  | .qpost f => Sys2Proof.Machine.execQpost f s
  | .qmerge f => Sys2Proof.Machine.execQmerge f s
  | .mma f => Sys2Proof.Machine.execMma f s
  | .mmas f => Sys2Proof.Machine.execMmas f s
  | .kset f => Sys2Proof.Machine.execKset f s
  | .sign f => Sys2Proof.Machine.execSign f s
  | .chld f => Sys2Proof.Machine.execChld f s
  | .chrun f => Sys2Proof.Machine.execChrun f s
  | .chrunTile f => Sys2Proof.Machine.execChrunTile f s
  | .itset f => Sys2Proof.Machine.execItset f s
  | .binit f => Sys2Proof.Machine.execBinit f s
  | .arrive f => Sys2Proof.Machine.execArrive f s
  | .expect f => Sys2Proof.Machine.execExpect f s
  | .waitp f => Sys2Proof.Machine.execWaitp f s
  | .btest f => Sys2Proof.Machine.execBtest f s
  | .fence f => Sys2Proof.Machine.execFence f s
  | .csync f => Sys2Proof.Machine.execCsync f s
  | .dsync f => Sys2Proof.Machine.execDsync f s
  | .gsync f => Sys2Proof.Machine.execGsync f s
  | .twait f => Sys2Proof.Machine.execTwait f s
  | .xbegin f => Sys2Proof.Machine.execXbegin f s
  | .xend f => Sys2Proof.Machine.execXend f s
  | .xabort f => Sys2Proof.Machine.execXabort f s
  | .rdsr f => Sys2Proof.Machine.execRdsr f s
  | .rdsrShort f => Sys2Proof.Machine.execRdsrShort f s
  | .wrsr f => Sys2Proof.Machine.execWrsr f s
  | .trap f => Sys2Proof.Machine.execTrap f s
  | .bpt f => Sys2Proof.Machine.execBpt f s
  | .tret f => Sys2Proof.Machine.execTret f s
  | .rdtr f => Sys2Proof.Machine.execRdtr f s
  | .wrtr f => Sys2Proof.Machine.execWrtr f s
  | .baredit f => Sys2Proof.Machine.execBaredit f s
  | .clauseIssue c q n => Sys2Proof.Machine.execClauseIssue c q n s
  | .rcvHoldExpiry c q n => Sys2Proof.Machine.execRcvHoldExpiry c q n s
  | .ageSwap c q => Sys2Proof.Machine.execAgeSwap c q s
  | .congestionLevel c src lvl => Sys2Proof.Machine.execCongestionLevel c src lvl s
  | .congestionLevelExpiry c src => Sys2Proof.Machine.execCongestionLevelExpiry c src s
  | .poolAccessAtTarget c q n => Sys2Proof.Machine.execPoolAccessAtTarget c q n s
  | .stagingEarlyPublish n => Sys2Proof.Machine.execStagingEarlyPublish n s
  | .homeApplyPublication n => Sys2Proof.Machine.execHomeApplyPublication n s
  | .publicationAck n => Sys2Proof.Machine.execPublicationAck n s
  | .boundaryReleaseComplete c q n => Sys2Proof.Machine.execBoundaryReleaseComplete c q n s
  | .l2Writeback line => Sys2Proof.Machine.execL2Writeback line s
  | .atomicGroupApply n atStack => Sys2Proof.Machine.execAtomicGroupApply n atStack s
  | .hostAtomicop n => Sys2Proof.Machine.execHostAtomicop n s
  | .stackRead n => Sys2Proof.Machine.execStackRead n s
  | .stackWrite n => Sys2Proof.Machine.execStackWrite n s
  | .stackAtomic n => Sys2Proof.Machine.execStackAtomic n s
  | .stackQuery n => Sys2Proof.Machine.execStackQuery n s
  | .stackRowop n => Sys2Proof.Machine.execStackRowop n s
  | .stackCtrl frame md => Sys2Proof.Machine.execStackCtrl frame md s
  | .stackReply n => Sys2Proof.Machine.execStackReply n s
  | .queryChunk n => Sys2Proof.Machine.execQueryChunk n s
  | .stackRefresh st mult temp => Sys2Proof.Machine.execStackRefresh st mult temp s
  | .queryTripleReturn n => Sys2Proof.Machine.execQueryTripleReturn n s
  | .rowopComplete n => Sys2Proof.Machine.execRowopComplete n s
  | .irtctlActWrite v => Sys2Proof.Machine.execIrtctlActWrite v s
  | .drainClear => Sys2Proof.Machine.execDrainClear s
  | .engineTileLand n => Sys2Proof.Machine.execEngineTileLand n s
  | .barrierCredit n => Sys2Proof.Machine.execBarrierCredit n s
  | .mmaResultWrite n => Sys2Proof.Machine.execMmaResultWrite n s
  | .mmasStep n => Sys2Proof.Machine.execMmasStep n s
  | .chrunTileRow n => Sys2Proof.Machine.execChrunTileRow n s
  | .hwBarrierComplete n => Sys2Proof.Machine.execHwBarrierComplete n s
  | .watchRegister n => Sys2Proof.Machine.execWatchRegister n s
  | .watchAnswer n => Sys2Proof.Machine.execWatchAnswer n s
  | .twaitTimeout n => Sys2Proof.Machine.execTwaitTimeout n s
  | .watchCancel n => Sys2Proof.Machine.execWatchCancel n s
  | .launchRecordRead t q => Sys2Proof.Machine.execLaunchRecordRead t q s
  | .launchStart n => Sys2Proof.Machine.execLaunchStart n s
  | .dependenceWatchRetry n => Sys2Proof.Machine.execDependenceWatchRetry n s
  | .clusterGrant => Sys2Proof.Machine.execClusterGrant s
  | .starvationBoost t q => Sys2Proof.Machine.execStarvationBoost t q s
  | .warpRetire c q n => Sys2Proof.Machine.execWarpRetire c q n s
  | .launchComplete n => Sys2Proof.Machine.execLaunchComplete n s
  | .preemptPriority => Sys2Proof.Machine.execPreemptPriority s
  | .tctlSuspWrite t v => Sys2Proof.Machine.execTctlSuspWrite t v s
  | .contextSaveComplete n => Sys2Proof.Machine.execContextSaveComplete n s
  | .saveHeldTimeout n => Sys2Proof.Machine.execSaveHeldTimeout n s
  | .contextResume n => Sys2Proof.Machine.execContextResume n s
  | .qidxWidxWrite t q v => Sys2Proof.Machine.execQidxWidxWrite t q v s
  | .tlbinvGo v => Sys2Proof.Machine.execTlbinvGo v s
  | .tlbinvComplete => Sys2Proof.Machine.execTlbinvComplete s
  | .operandLogReplay c q n => Sys2Proof.Machine.execOperandLogReplay c q n s
  | .faultUnitMigrate t va => Sys2Proof.Machine.execFaultUnitMigrate t va s
  | .pageRevive t va => Sys2Proof.Machine.execPageRevive t va s
  | .remoteHomeRequest t va => Sys2Proof.Machine.execRemoteHomeRequest t va s
  | .remoteHomeReply t va ok leaf => Sys2Proof.Machine.execRemoteHomeReply t va ok leaf s
  | .remoteHomeTimeout t va => Sys2Proof.Machine.execRemoteHomeTimeout t va s
  | .frameRetire pfn => Sys2Proof.Machine.execFrameRetire pfn s
  | .handlerStart c q => Sys2Proof.Machine.execHandlerStart c q s
  | .wctlResume c => Sys2Proof.Machine.execWctlResume c s
  | .wctlKill c => Sys2Proof.Machine.execWctlKill c s
  | .wctlHalt c => Sys2Proof.Machine.execWctlHalt c s
  | .wctlStepOn c => Sys2Proof.Machine.execWctlStepOn c s
  | .wctlStepOff c => Sys2Proof.Machine.execWctlStepOff c s
  | .tarsorCellSend link cell => Sys2Proof.Machine.execTarsorCellSend link cell s
  | .tarsorDataCell link cell => Sys2Proof.Machine.execTarsorDataCell link cell s
  | .tarsorDedupReference link cell => Sys2Proof.Machine.execTarsorDedupReference link cell s
  | .tarsorReplayRequest link cell => Sys2Proof.Machine.execTarsorReplayRequest link cell s
  | .tarsorIdleCell link cell => Sys2Proof.Machine.execTarsorIdleCell link cell s
  | .linkReplayLimit link => Sys2Proof.Machine.execLinkReplayLimit link s
  | .linkAckTimeout link => Sys2Proof.Machine.execLinkAckTimeout link s
  | .linkTrainingDone link ok => Sys2Proof.Machine.execLinkTrainingDone link ok s
  | .tlctlRetrain link => Sys2Proof.Machine.execTlctlRetrain link s
  | .tlctlEnWrite link v => Sys2Proof.Machine.execTlctlEnWrite link v s
  | .mbheadWrite v => Sys2Proof.Machine.execMbheadWrite v s
  | .mbWrite cmd => Sys2Proof.Machine.execMbWrite cmd s
  | .mbRead cmd => Sys2Proof.Machine.execMbRead cmd s
  | .mbRegwr cmd => Sys2Proof.Machine.execMbRegwr cmd s
  | .mbRegrd cmd => Sys2Proof.Machine.execMbRegrd cmd s
  | .mbMigrate cmd => Sys2Proof.Machine.execMbMigrate cmd s
  | .mbSave cmd => Sys2Proof.Machine.execMbSave cmd s
  | .mbImage cmd => Sys2Proof.Machine.execMbImage cmd s
  | .moduleReset => Sys2Proof.Machine.execModuleReset s
  | .romAndFuses fail => Sys2Proof.Machine.execRomAndFuses fail s
  | .calibration fail => Sys2Proof.Machine.execCalibration fail s
  | .electionIdentifier die src id => Sys2Proof.Machine.execElectionIdentifier die src id s
  | .electionTimeout die => Sys2Proof.Machine.execElectionTimeout die s
  | .verification => Sys2Proof.Machine.execVerification s
  | .firmwareStart => Sys2Proof.Machine.execFirmwareStart s
  | .firmwareStartTimeout => Sys2Proof.Machine.execFirmwareStartTimeout s
  | .memoryInitialisation fail => Sys2Proof.Machine.execMemoryInitialisation fail s
  | .thermalTrip die => Sys2Proof.Machine.execThermalTrip die s
  | .powerTokenPass die => Sys2Proof.Machine.execPowerTokenPass die s
  | .eqidxCidxWrite n v => Sys2Proof.Machine.execEqidxCidxWrite n v s
  | .eqctlClr n => Sys2Proof.Machine.execEqctlClr n s
  | .tenantReset t => Sys2Proof.Machine.execTenantReset t s
  | .tenantResetComplete t => Sys2Proof.Machine.execTenantResetComplete t s
  | .registerWrite num v => Sys2Proof.Machine.execRegisterWrite num v s
  | .coolantOrDieTemperatureChange flow tin tmax => Sys2Proof.Machine.execCoolantOrDieTemperatureChange flow tin tmax s

end Sys2Proof.Machine
end

