-- ==== Sys2Proof/Machine/Schedule.lean ====
section
/-! DEFINITION. What the module does of itself while nothing is said about what happens next (DESIGN CHOICE, log entry 1): the work that stands
in its state, taken in turn as the clock counts. -/

namespace Sys2Proof.Machine

/-- A step whose result has reached a home that holds it until DRAIN clears (R57): it waits. -/
def heldBack (s : State) (o : Out) : Out :=
  match o with
  | .next t => if t.early = s.early then o else .next s
  | _ => o

/-- A piece of work. -/
abbrev Work := State → Out

/-- The first identifier of the election still on its way: receiving die and source. -/
def missingId (s : State) : Option (Nat × Nat) :=
  (((List.range 36).map fun k => (k / 6, k % 6)).filter fun e =>
    e.1 != e.2 && (nget none s.boot.ids (8 * e.1 + e.2)).isNone).head?

/-- Bring-up's next step (R327). -/
def bootWork (s : State) : List Work :=
  match s.boot.stage with
  | 0 => [execRomAndFuses none]
  | 1 => [execRomAndFuses none]
  | 2 => [execCalibration none]
  | 3 =>
    match missingId s with
    | some (d, k) => [execElectionIdentifier d k (Config.dieId k)]
    | none => []
  | 4 => [execVerification]
  | 5 => [execFirmwareStart]
  | 6 => [execMemoryInitialisation none]
  | _ => []

/-- The mailbox engine's next command (R326). -/
def mailWork (s : State) : List Work :=
  match mbNext s with
  | none => []
  | some c =>
    match mbOp c with
    | 2 => [execMbRead c]
    | 3 => [execMbRegwr c]
    | 4 => [execMbRegrd c]
    | 5 => [execMbMigrate c]
    | 6 => [execMbSave c]
    | 7 => [execMbImage c]
    | _ => [execMbWrite c]

/-- What a warp may do: its next instruction, or a clause, a replay, its retirement. -/
def warpWork (turn : Nat → Nat → Nat → Work) (w : Warp) : List Work :=
  let replay := if w.olog.isEmpty then [] else [execOperandLogReplay w.core w.quad w.slot]
  match w.run with
  | some r =>
    turn w.core w.quad w.slot ::
      ((if r.transit then [execPoolAccessAtTarget w.core w.quad w.slot] else []) ++
        (if r.bnd.isSome then [execBoundaryReleaseComplete w.core w.quad w.slot] else []) ++ replay)
  | none =>
    [execClauseIssue w.core w.quad w.slot, execRcvHoldExpiry w.core w.quad w.slot] ++ replay ++
      (if w.live = 0 then [execWarpRetire w.core w.quad w.slot] else []) ++
      (if w.trap.isSome then [execHandlerStart w.core w.quad] else []) ++ (if w.active then [] else [execAgeSwap w.core w.quad])

/-- Events with a place number, for each of `n` places. -/
def eachPlace (n : Nat) (fs : List (Nat → Work)) : List Work := (List.range n).flatMap fun i => fs.map fun f => f i

/-- Parked pages: the fault unit's work. -/
def parkWork (s : State) : List Work :=
  let of := fun (t va : Nat) => [execFaultUnitMigrate t va, execPageRevive t va]
  (s.allWarps.flatMap fun w => w.olog.flatMap fun e => if e.st = 2 then [] else of (tenantOf s w) e.va.toNat) ++
    (s.cmds.flatMap fun c => (c.parks.filter fun p => !p.reported).flatMap fun p => of (ctxTenant s c.ctx) (p.page * 65536)) ++
    (s.wants.flatMap fun x => if x.reported then [] else of x.tenant (x.page * 65536)) ++
    (s.migrs.flatMap fun m => of m.tenant (m.page * 65536)) ++
    s.remotes.map fun r => execRemoteHomeTimeout r.tenant (r.page * 65536)

/-- The memory side: publications, atomics, packets, engines. -/
def memoryWork (s : State) : List Work :=
  eachPlace s.staging.length [execHomeApplyPublication, execPublicationAck, execStagingEarlyPublish] ++
    eachPlace (s.reqs.flatMap (·.groups)).length [fun n => execAtomicGroupApply n false, execHostAtomicop] ++
    eachPlace s.packets.length
      [execStackRead, execStackWrite, execStackAtomic, execStackQuery, execQueryChunk, execQueryTripleReturn, execStackRowop, execStackReply] ++
    eachPlace s.cmds.length [execEngineTileLand, execMmasStep, execChrunTileRow, execRowopComplete] ++
    eachPlace s.credits.length [execBarrierCredit] ++ eachPlace s.products.length [execMmaResultWrite] ++
    (if draining s then [execDrainClear] else []) ++ (if s.shoot.isSome then [execTlbinvComplete] else [])

/-- Waits: barriers of blocks, watches. -/
def waitWork (s : State) : List Work :=
  eachPlace (s.allWarps.length + s.saved.length) [execHwBarrierComplete] ++
    eachPlace s.watches.length [execWatchRegister, execWatchAnswer, execTwaitTimeout, execWatchCancel, execDependenceWatchRetry]

/-- The scheduler: queues, launches, clusters, saves, resets. -/
def schedulerWork (s : State) : List Work :=
  let is := (List.range (Config.tenants * Config.queues)).filter fun i => queueOn s i && queueCount s i != 0
  let busy := (List.range (Config.tenants * Config.queues)).filter fun i => nget 0 s.placeable i != 0
  (is.map fun i => execLaunchRecordRead (i / 8) (i % 8)) ++ eachPlace s.ctxs.length [execLaunchStart, execLaunchComplete] ++
    (if s.ctxs.isEmpty then [] else [execClusterGrant, execPreemptPriority]) ++ (busy.map fun i => execStarvationBoost (i / 8) (i % 8)) ++
    eachPlace s.clusters.length [execContextSaveComplete, execSaveHeldTimeout] ++ eachPlace s.saved.length [execContextResume] ++
    ((List.range Config.tenants).filter (resetting s)).map execTenantResetComplete

/-- Timed work: links that train, or have cells to send again. No duration is modelled: the clocks advance by what the agenda
lets pass (DESIGN CHOICE, log entry 117). -/
def timedWork (s : State) : List Work :=
  (List.range Config.links).flatMap fun l =>
    let k := nget {} s.links l
    if k.st = 1 then [execLinkTrainingDone l true]
    else if k.st = 2 && sendsAgain k then [fun s => .next (sendAgain l s)] else []

/-- All that may happen next of itself. -/
def ownWork (turn : Nat → Nat → Nat → Work) (s : State) : List Work :=
  if s.boot.stage ≠ 7 then (bootWork s ++ mailWork s)
  else
    (s.allWarps.filter fun w => w.uid != 0).flatMap (warpWork turn) ++
      (s.wctl.map fun e => if e.2 / 2 ^ 24 = 1 then execWctlResume e.1 else execWctlKill e.1) ++
      (memoryWork s ++ waitWork s ++ parkWork s ++ schedulerWork s ++ timedWork s ++ mailWork s)

/-- What happens next while nothing is said: the module's own work in turn; a clk passes with each. -/
def nextWork (turn : Nat → Nat → Nat → Work) (s : State) : Out :=
  let ws := ownWork turn s
  match ws[s.clk % max 1 ws.length]? with
  | some w => heldBack (passTime 1 s) (w (passTime 1 s))
  | none => .next (passTime 1 s)

end Sys2Proof.Machine
end

