-- ==== Sys2Proof/Machine/SoftError.lean ====
section
/-! DEFINITION. Soft errors (R381 to R384): what an error that strikes the module leaves behind, and its report. When and where
one strikes is not the module's doing: the agenda says so. -/

namespace Sys2Proof.Machine

/-- An error of a stack in a frame for which the fault unit retires it (R377). -/
def markFailing (s : State) (pa : Nat) : State := { s with failing := (pa / 65536 :: s.failing).eraseDups }

/-- A corrected error of a stack counts for its row (R377). -/
def countRow (s : State) (pa : Nat) : State :=
  let k := Config.stackRow pa
  let n := nget 0 s.rowErrs k + 1
  let s := { s with rowErrs := nset 0 s.rowErrs k n }
  if Config.rowThreshold < n then markFailing s pa else s

/-- A corrected error (cause 0x80): the data are as before; a unit's records are at least 1 ms of sr.time apart. -/
def correctedError (unit inst : Nat) (addr : DWord) (asp : Nat) (s : State) : State :=
  let s := if (unit = 1 ∨ unit = 2) && paKind addr.toNat == .fast then countRow s addr.toNat else s
  let key := 65536 * unit + inst
  let old := nget (0, 0) s.corr key
  let now := (timeOf s).toNat
  let n := old.1 + 1
  if old.2 ≠ 0 && now < old.2 - 1 + 1000 then { s with corr := nset (0, 0) s.corr key (n, old.2) }
  else
    reportModule { s with corr := nset (0, 0) s.corr key (0, now + 1) }
      { cause := 0x80, addr := addr, asp := asp, info0 := unit, info1 := n, sev := 0 }

/-- An uncorrected error in storage (cause 0x84): unit, address, space; to the tenant it concerns, else to the module's queue. -/
def storageError (unit : Nat) (ten : Option Nat) (addr : DWord) (asp : Nat) (s : State) : State :=
  let rep : Report := { cause := 0x84, addr := addr, asp := asp, info0 := unit, sev := 2 }
  match ten with
  | some t => reportBare s t 0 rep
  | none => reportModule s rep

/-- The migrations under way that copy a physical address (R302). -/
def Migr.copies (s : State) (m : Migr) (pa : Nat) : Bool :=
  !m.failed && match leavesAt s m with
    | some a => (List.range (pageCount m.leaf)).any fun i => leafPFN (dw (homeNat s (a + 8 * i) 8)) == pa / 65536
    | none => false

/-- A sector is poisoned as its home gives it; a migration that copies it meets the error (R302). -/
def poisonSector (s : State) (pa : Nat) : State :=
  { s with poison := nset false s.poison (pa / 32) true
           migrs := s.migrs.map fun m => if m.copies s pa then { m with err := true } else m }

/-- An uncorrected error in a sector: in its slice with cause 0x84; where it is stored, silently, for the fault unit to retire its frame,
beneath a slice that holds the sector (R377, R381). -/
def sectorError (pa : Nat) (l2 : Bool) (s : State) : State :=
  if l2 then (if sectorValid s pa then storageError 3 none (dw pa) 3 (poisonSector s pa) else s)
  else
    let s := if paKind pa == .fast then markFailing s pa else s
    if paLocal pa && sectorValid s pa then { s with under := nset false s.under (pa / 32) true } else poisonSector s pa

/-- A half of a staging entry is poisoned. -/
def stagedError (n : Nat) (upper : Bool) (s : State) : State :=
  match s.staging[n]? with
  | none => s
  | some e =>
    let k := if upper then 1 else 0
    storageError 3 (some e.tenant) (dw (e.pa + 32 * k)) 3
      { s with staging := s.staging.modify n fun e => { e with bad := e.bad ||| BitVec.ofNat 2 (2 ^ k) } }

/-- A pool word is poisoned. -/
def poolError (core off : Nat) (s : State) : State :=
  if Config.cores ≤ core || Config.poolBytes ≤ off then s
  else
    let hit := poisonPool s core (off / 8 * 8) 1
    match s.clusters.find? fun k => k.cores.contains core && decide (k.pbase ≤ off) && decide (off < k.plim) with
    | some k => storageError 5 ((findCtx s k.ctx).map (·.tenant)) (memberAddr s ⟨k.ctx, k.num⟩ core off) 2 hit
    | none => storageError 5 none (dw off) 2 hit

/-- A column-store word is poisoned; the store has no address space of its own in a record. -/
def storeError (core column off : Nat) (s : State) : State :=
  if Config.cores ≤ core || 64 ≤ column || 65536 ≤ off then s
  else
    storageError 6 none (dw (65536 * column + off)) 0 { s with csPoison := nset false s.csPoison (csKey core column off / 8) true }

/-- A register's parity fails from now on, until it is written. A latch has no lane where its result is the warp's. -/
def parityError (uid cls num lane : Nat) (s : State) : State :=
  match findWarp s uid with
  | none => s
  | some w =>
    if cls = 3 then
      let strike := fun (r : Run) =>
        match latchOf r (num / 2) with
        | none => r
        | some x =>
          { r with lat := nset none r.lat (num / 2) (some { x with bad := (2 * (if x.uni then 0 else lane) + num % 2) :: x.bad }) }
      putWarp s { w with run := w.run.map strike, paused := w.paused.map strike, trap := w.trap.map fun t => { t with run := t.run.map strike } }
    else putWarp s { w with parity := (cls, num, if cls = 0 ∨ cls = 2 then lane else 0) :: w.parity }

/-- The banks of a QUERY that is lost are scanned no more, and every one has failed (R264). -/
def queryFailed (p : Packet) : Packet :=
  match p.args with
  | u0 :: u1 :: tb :: mask :: n :: _ :: _ =>
    { p with args := u0 :: u1 :: tb :: mask :: n :: 1 :: (List.range 64 ++ (List.range 64).map (64 + ·)) }
  | _ => p

/-- A row operation that is lost: its lines are released and its command ends; nothing is credited. -/
def rowLost (s : State) (p : Packet) : State :=
  let s := mapLines s p.pa fun l => { l with locked := false }
  let s := p.args.foldl (fun s pb => mapLines s pb fun l => { l with holdWr := false }) s
  { s with cmds := s.cmds.filter fun c => c.id != p.src }

/-- A packet whose retries are exhausted (cause 0x85, R384): a read's sectors arrive poisoned; a write is lost, an atomic too,
whose destination is never written. A query's banks fail, a row operation is lost (DESIGN CHOICE, log entry 145). -/
def packetError (n : Nat) (s : State) : State :=
  match s.packets[n]? with
  | none => s
  | some p =>
    let rep : Report := { cause := 0x85, addr := dw (p.pa / 256 * 256), asp := 3, info0 := p.stack, info1 := p.kind, src := 5, sev := 2 }
    let ofCmd := fun (s : State) =>
      match (s.cmds.find? fun c => c.id == p.src).bind fun c => findCtx s c.ctx with
      | some x => reportBare s x.tenant x.queue rep
      | none => reportModule s rep
    let lost := { s with packets := s.packets.eraseIdx n }
    if p.reply then s
    else
      match p.kind with
      | 0 =>
        let ks := (p.sectorList.map (p.pa / 256 * 8 + ·)).filter fun k => !sectorValid s (32 * k)
        let s := ks.foldl (fun s k => poisonSector (fillSector s (32 * k)) (32 * k)) s
        reportModule { s with packets := s.packets.set n { p with reply := true } } rep
      | 1 => reportModule lost rep
      | 2 =>
        (match s.reqs.find? fun q => q.id == p.src with
         | none => reportModule (atomicBack lost p dropLost) rep
         | some q => reportBare (atomicBack lost p dropLost) q.tenant 0 rep)
      | 3 => ofCmd (putPacket s n (queryFailed p))
      | 4 => rowLost (ofCmd lost) p
      | _ => s

/-- An uncorrected error on the request network: an operand of an atomic group that its home has not applied (R382). -/
def requestError (n : Nat) (s : State) : State :=
  match (s.reqs.flatMap fun q => q.groups.map fun g => (q, g))[n]? with
  | some (q, g) => if q.away == some g then s else poisonGroup s q g
  | none => s

/-- A soft error strikes. -/
def strike (u : Upset) (s : State) : State :=
  match u with
  | .corrected unit inst addr asp => correctedError unit inst addr asp s
  | .sector pa l2 => sectorError pa l2 s
  | .staged n upper => stagedError n upper s
  | .poolWord core off => poolError core off s
  | .storeWord core column off => storeError core column off s
  | .parity uid cls num lane => parityError uid cls num lane s
  | .packetLost n => packetError n s
  | .published n upper =>
    { s with staging := s.staging.modify n fun e =>
        if e.going.isSome && !e.applied then { e with bad := e.bad ||| BitVec.ofNat 2 (if upper then 2 else 1) } else e }
  | .requested n => requestError n s
  | .travelling uid =>
    (match findWarp s uid with
     | some w => putWarp s { w with run := w.run.map fun r => { r with struck := r.transit } }
     | none => s)
  | .fetched id => { s with cmds := s.cmds.map fun c => if c.id == id then { c with struck := true } else c }

end Sys2Proof.Machine
end

