-- ==== Sys2Proof/Machine/Step.lean ====
section
/-! DEFINITION. One step of the module: what the agenda says, or the device's own work (DESIGN CHOICE, log entry 1); and placing an
instruction where the next step fetches it. -/

namespace Sys2Proof.Machine

/-- The next instruction of the focused warp's running clause. -/
def runItem (s : State) : Host.Outcome State Fault Refusal :=
  match s.cur.run with
  | none => .next (passTime 1 s)
  | some r =>
    match decodeParcels r.body with
    | .ok (i, _) => exec i s
    | .error _ => badOpcode s

/-- A quadrant is granted the next instruction of a slot's running clause. -/
def turn (c q n : Nat) (s : State) : Host.Outcome State Fault Refusal :=
  match warpAt s c q n with
  | none => .next s
  | some w => runItem (focus s w.uid)

/-- One step: what the agenda says, or what the module does of itself (DESIGN CHOICE, log entry 1); an access that a home holds until
DRAIN clears waits with its step (R57). -/
def step (s : State) : Host.Outcome State Fault Refusal :=
  match s.agenda with
  | .event i :: t => heldBack { s with agenda := t } (exec i { s with agenda := t })
  | .upset u :: t => .next (strike u { s with agenda := t })
  | .turn c q n :: t => heldBack { s with agenda := t } (turn c q n { s with agenda := t })
  | .pass n :: t => .next (passTime n { s with agenda := t })
  | [] => nextWork turn s

/-- Launch of the placed instruction: one block of one warp, all registers, every role (DESIGN CHOICE, log entry 11). -/
def fetchCtx : Ctx :=
  { id := 0, tenant := 0, queue := 0,
    record := [0, 0, dw (31 * 2 ^ 26 + 2), 0, dw 489, dw (32 * 2 ^ 16 + 1)],
    khdr := [dw (7 * 2 ^ 56 + 128 * 2 ^ 48 + 255 * 2 ^ 40 + 2 ^ 32 + 0x314B564F), 0, 0, 0x3F],
    param := [], psize := 0, graphs := [], chains := [], st := 1, deps := [], granted := 1, retired := 0, total := 1,
    dies := [], budget := 65536, runnable := false, slotAddr := 0 }

/-- Its warp: 32 live lanes in slot 0 of quadrant 0 of core 0. -/
def fetchWarp : Warp := { uid := 1, live := allLanes }

/-- The clause that holds just the placed item. -/
def fetchRun (body : List Word) : Run :=
  { hdrAddr := 0, hdr := dw (body.length * 64 + 3), grp := allLanes, tsz := 5, slot := 0, pc := 8, body := body, lat := [],
    transit := false, bnd := none, released := false }

/-- `s` with an instruction placed so that the next step runs it: the word's parcels stand in the clause that a warp of
core 0 is running, and that warp has the turn (DESIGN CHOICE, log entry 11). -/
def State.withFetchWord (s : State) (nbits w : Nat) : State :=
  let ps := natParcels 3 (w % 2 ^ nbits)
  let body := ps.take (itemParcels (ps.getD 0 0))
  { s with
    agenda := .turn 0 0 0 :: s.agenda
    fresh := max s.fresh 2
    cur := { fetchWarp with run := some (fetchRun body) }
    ctxs := [fetchCtx]
    clusters := [{ ctx := 0, num := 0, cores := [0], pbase := 0, plim := 0x80000, blocksLeft := 1, saving := none,
                   heldReported := false }]
    blocks := [{ ctx := 0, clu := 0, bid := 0, conv := [], chains := [], cores := [0], cb := none, cbase := 0, cn := 65536, warpsLeft := 1,
                 since := 0 }]
    boot := { s.boot with ready := true, stage := 7 } }

end Sys2Proof.Machine
end

