-- ==== Sys2Proof/Safety.lean ====
section
/-! DEFINITION. What counts as a safe state and a safe run, in the terms claims use. -/

namespace Sys2Proof.Machine

/-- Every memory of the state is in canonical form. -/
def State.memWf (s : State) : Bool :=
  Memory.wf s.pool && Memory.wf s.cstore && Memory.wf s.dram && Memory.wf s.l2b && Memory.wf s.host && Memory.wf s.peer

/-- A step answers a next state. -/
def State.goesOn (s : State) : Prop := ∃ t, step s = .next t

/-- The focused warp's instruction may issue: its clause runs, none of its accesses is under way over the Causeway (R50), no breakpoint stops it (R315), no register it names is pending
(R120), every check of R355 passes, no register it reads is lost (R383), and no MMA whose results may come early belongs to the warp (R122). -/
def Ready (s : State) (r : Run) (it : Item) (sp : Spec) : Prop :=
  s.cur.run = some r ∧ r.transit = false ∧ breakLanes s s.cur r = 0 ∧ blocked s.cur r sp.wide (specRegs it sp) = false ∧
    specBads s s.cur r it sp = [] ∧ (∀ p ∈ s.products, p.warp ≠ s.cur.uid ∨ p.dcSel = 0) ∧ lostRead s s.cur r it sp = none

/-- No stop of the focused warp is due at its clause boundary or after its instruction (R311, R317, R318), and no breakpoint has stopped
one of its lanes since that lane last issued (R313). -/
def Quiet (s : State) : Prop := s.cur.deferred = [] ∧ s.cur.halt = false ∧ s.cur.step = false ∧ s.cur.skip = []

/-- Steps 1 to 3 of R73 at some scopes have nothing to wait for: no access of the group is under way and no store of the core is
staged below the highest level that they need. -/
def Clear (s : State) (r : Run) (scs : List Nat) : Prop :=
  r.bnd = none ∧ outstanding s s.cur r.grp = false ∧
    ∀ e ∈ s.staging, belowLevel s.cur.core ((scs.map (scopeLevel s s.cur)).foldl max 0) e = false

/-- The release boundary of a group at some scopes has taken effect (R73). -/
def past (s : State) (r : Run) (scs : List Nat) : State := onCur s (released r.grp scs s.order)

/-- Going on past an instruction that transfers nothing: the next slot, or the lanes stand past the clause (R138). -/
def nextSlot (w : Warp) (r : Run) (it : Item) : Warp :=
  let r' := advance r it
  if r'.body.isEmpty then
    { w with
      run := none
      yielded := w.yielded || fbit r'.hdr 21
      pc := (lanesOf (r'.grp &&& w.live)).foldl (fun m l => nset 0 m l (dw (fallThrough r))) w.pc }
  else { w with run := some r' }

/-- An instruction with its fields, its requirements and its effect on a state that may issue it. -/
structure Row where
  i : Instr
  it : Item
  sp : State → Warp → Run → Spec
  eff : State → Warp → Run → State

/-- The instruction completes with its effect wherever it may issue. -/
def Row.Completes (e : Row) : Prop :=
  ∀ s r, Ready s r e.it (e.sp s s.cur r) → exec e.i s = .next (e.eff s s.cur r)

end Sys2Proof.Machine
end

