-- ==== Sys2Proof/Certificates/Slice0/Obligations.lean ====
section
/-! DEFINITION. The statements for the provers. -/

namespace Sys2Proof.Machine

/-! Shapes of rows. -/

/-- A capturing vector instruction: the value of each active lane. -/
def vecRow (i : Instr) (it : Item) (ts : List VT) (pair : Bool) (bads : List Bad) (val : State → Warp → Run → Nat → Nat) : Row :=
  ⟨i, it, fun _ _ _ => aluSpec false ts pair bads, fun s w r => vecResult s r it pair (val s w r)⟩

/-- A capturing uniform instruction: one value for the warp. -/
def uniRow (i : Instr) (it : Item) (ts : List VT) (pair : Bool) (bads : List Bad) (val : State → Warp → Run → Nat) : Row :=
  ⟨i, it, fun _ _ _ => aluSpec true ts pair bads, fun s w r => uniResult s r it pair (val s w r)⟩

/-- An instruction that writes a predicate in each active lane. -/
def predRow (i : Instr) (it : Item) (ts : List VT) (bads : List Bad) (val : State → Warp → Run → Nat → Bool) : Row :=
  ⟨i, it, fun _ _ _ => { uses := srcUses false ts ++ [.dstP false], bads := bads }, fun s w r => predResult s r it (val s w r)⟩

/-- An instruction that writes a uniform predicate where its guard holds. -/
def qRow (i : Instr) (it : Item) (ts : List VT) (bads : List Bad) (val : State → Warp → Run → Bool) : Row :=
  ⟨i, it, fun _ _ _ => { uses := srcUses true ts ++ [.dstP true], bads := bads },
    fun s w r => finish { s with cur := if guardU w it then qset w it.d (val s w r) else w } r it⟩

/-- A floating instruction: under .rs the counters of the active lanes advance (R101). -/
def fltRow (i : Instr) (it : Item) (ts : List VT) (pair : Bool) (bads : List Bad) (val : State → Warp → Run → Nat → Nat) : Row :=
  ⟨i, it, fun _ _ _ => aluSpec false ts pair bads, fun s w r =>
    vecResult (if rndOf it = 4 then { s with cur := bumpRctr w (activeLanes w r it) } else s) r it pair (val s w r)⟩

/-- A lane operation: it waits in every lane of the warp, and may write field C's register after its result (R168). -/
def laneRow (i : Instr) (it : Item) (uses : List Use) (pair : Bool) (bads : List Bad) (more : Warp → Run → Warp → Warp)
    (val : State → Warp → Run → Nat → Nat) : Row :=
  ⟨i, it, fun _ _ _ => { uses := uses ++ [.dstV (if pair then 2 else 1)], bads := bads, capt := true, wide := true },
    fun s w r => vecResultThen s r it pair (val s w r) (more w r)⟩

/-- Operands of the instruction's own type as integers, and as bits. -/
def intA (it : Item) (s : State) (w : Warp) (r : Run) (l : Nat) : Int := operandInt s w r it (vtOf it.ty) .a l
def intB (it : Item) (s : State) (w : Warp) (r : Run) (l : Nat) : Int := operandInt s w r it (vtOf it.ty) .b l
def intC (it : Item) (s : State) (w : Warp) (r : Run) (l : Nat) : Int := operandInt s w r it (vtOf it.ty) .c l
def bitA (it : Item) (s : State) (w : Warp) (r : Run) (l : Nat) : Nat := operand s w r it (vtOf it.ty) .a l % 2 ^ tyWidth it.ty
def bitB (it : Item) (s : State) (w : Warp) (r : Run) (l : Nat) : Nat := operand s w r it (vtOf it.ty) .b l % 2 ^ tyWidth it.ty
def bitC (it : Item) (s : State) (w : Warp) (r : Run) (l : Nat) : Nat := operand s w r it (vtOf it.ty) .c l % 2 ^ tyWidth it.ty
/-- A 32-bit operand. -/
def numOf (it : Item) (x : Fld) (s : State) (w : Warp) (r : Run) (l : Nat) : Nat := operand s w r it vtCount x l

/-! Integer instructions (R148 to R152). -/

def arithRow (i : Instr) (it : Item) (sat : Bool) (g : Int → Int → Int) : Row :=
  vecRow i it [vtOf it.ty, vtOf it.ty] (vtOf it.ty).pair (commonBads it [2, 3, 6, 7] (if sat then 1 else 0)) fun s w r l =>
    putInt it.ty (sat && it.mb 52) (g (intA it s w r l) (intB it s w r l))

def high32Row (i : Instr) (it : Item) : Row :=
  vecRow i it [vtOf it.ty, vtOf it.ty] false (commonBads it [2, 6] 0) fun s w r l =>
    wrapInt 32 (intA it s w r l * intB it s w r l / (2 ^ 32 : Nat))

def triple32Row (i : Instr) (it : Item) (g : Int → Int → Int → Int) : Row :=
  vecRow i it [vtOf it.ty, vtOf it.ty, vtOf it.ty] false (commonBads it [2, 6] 0) fun s w r l =>
    putInt it.ty false (g (intA it s w r l) (intB it s w r l) (intC it s w r l))

def pickRow (i : Instr) (it : Item) (g : Int → Int → Int) : Row :=
  vecRow i it [vtOf it.ty, vtOf it.ty] (vtOf it.ty).pair (commonBads it [2, 3, 6, 7] 0) fun s w r l =>
    putInt it.ty false (g (intA it s w r l) (intB it s w r l))

def absRow (i : Instr) (it : Item) : Row :=
  vecRow i it [vtOf it.ty] (vtOf it.ty).pair (commonBads it [2, 3] 1) fun s w r l =>
    putInt it.ty (it.mb 52) ((intA it s w r l).natAbs : Nat)

/-- IADD to ISAD, with their short forms (Tables 6.11, 7.8). -/
def arithmeticRows (f : Long) (g : Short) : List Row :=
  [arithRow (.iadd f) (longItem 0x040 false f) true (· + ·), arithRow (.iaddShort g) (shortItem 0x02 false 0x100 g) true (· + ·),
   arithRow (.isub f) (longItem 0x042 false f) true (· - ·), arithRow (.isubShort g) (shortItem 0x03 false 0x100 g) true (· - ·),
   arithRow (.imul f) (longItem 0x043 false f) false (· * ·), arithRow (.imulShort g) (shortItem 0x04 false 0x100 g) false (· * ·),
   vecRow (.iadd3 f) (longItem 0x041 false f) [vtOf (longItem 0x041 false f).ty, vtOf (longItem 0x041 false f).ty, vtOf (longItem 0x041 false f).ty]
     (vtOf (longItem 0x041 false f).ty).pair (commonBads (longItem 0x041 false f) [2, 3, 6, 7] 1) (fun s w r l =>
       let it := longItem 0x041 false f
       putInt it.ty (it.mb 52) (intA it s w r l + intB it s w r l + intC it s w r l)),
   high32Row (.imulh f) (longItem 0x044 false f), high32Row (.imulhI32Short g) (shortItem 0x05 false 0x100 g),
   high32Row (.imulhN32Short g) (shortItem 0x06 false 0x300 g),
   triple32Row (.imad f) (longItem 0x045 false f) (fun a b c => a * b + c),
   triple32Row (.isad f) (longItem 0x04A false f) (fun a b c => ((a - b).natAbs : Nat) + c),
   vecRow (.imadw f) (longItem 0x046 false f) [vtOf (longItem 0x046 false f).ty, vtOf (longItem 0x046 false f).ty,
       vtOf (wideOf (longItem 0x046 false f).ty)] true (commonBads (longItem 0x046 false f) [2, 6] 0) (fun s w r l =>
       let it := longItem 0x046 false f
       wrapInt 64 (intA it s w r l * intB it s w r l + operandInt s w r it (vtOf (wideOf it.ty)) .c l)),
   pickRow (.imin f) (longItem 0x047 false f) min, pickRow (.iminI32Short g) (shortItem 0x07 false 0x100 g) min,
   pickRow (.iminN32Short g) (shortItem 0x09 false 0x300 g) min,
   pickRow (.imax f) (longItem 0x048 false f) max, pickRow (.imaxI32Short g) (shortItem 0x08 false 0x100 g) max,
   pickRow (.imaxN32Short g) (shortItem 0x0A false 0x300 g) max,
   absRow (.iabs f) (longItem 0x049 false f), absRow (.iabsShort g) (shortItem 0x0B false 0x100 g)]

def shiftRow (i : Instr) (it : Item) (kind : Nat) (types : List Nat) : Row :=
  vecRow i it [vtOf it.ty, vtCount] (vtOf it.ty).pair (commonBads it types 1) fun s w r l =>
    shiftVal kind (tyWidth it.ty) (bitA it s w r l) (numOf it .b s w r l) (it.mb 52)

def oneRow (i : Instr) (it : Item) (pair : Bool) (g : Nat → Nat → Nat) : Row :=
  vecRow i it [vtOf it.ty] pair (commonBads it [8, 9] 0) fun s w r l => g (tyWidth it.ty) (bitA it s w r l)

def lutRow (i : Instr) (it : Item) : Row :=
  vecRow i it [.bits 32, .bits 32] false [] fun s w r l =>
    lop3 (it.m 59 52) 32 (operand s w r it (.bits 32) .a l) (operand s w r it (.bits 32) .b l) 0

/-- Shifts, logic and bit fields (R149 to R151). -/
def bitRows (f : Long) (g : Short) : List Row :=
  [shiftRow (.shl f) (longItem 0x04B false f) 0 [8, 9], shiftRow (.shlShort g) (shortItem 0x0C false 0x400 g) 0 [8, 9],
   shiftRow (.shr f) (longItem 0x04C false f) 1 [6, 7], shiftRow (.shrShort g) (shortItem 0x0D false 0x300 g) 1 [6, 7],
   shiftRow (.sha f) (longItem 0x04D false f) 2 [2, 3], shiftRow (.shaShort g) (shortItem 0x0E false 0x100 g) 2 [2, 3],
   vecRow (.shf f) (longItem 0x04E false f) [.bits 32, .bits 32, vtCount] false (commonBads (longItem 0x04E false f) [8] 3) (fun s w r l =>
     let it := longItem 0x04E false f
     funnel (it.mb 52) (it.mb 53) (operand s w r it (.bits 32) .a l) (operand s w r it (.bits 32) .b l) (numOf it .c s w r l)),
   (let it := longItem 0x04F false f
    let t := VT.bits (if it.mb 60 then 64 else 32)
    vecRow (.lop3 f) it [t, t, t] t.pair (encBad (it.m 63 61 ≠ 0) 7 61) fun s w r l =>
      lop3 (it.m 59 52) t.width (operand s w r it t .a l) (operand s w r it t .b l) (operand s w r it t .c l)),
   lutRow (.lop3AndShort g) (shortItem 0x0F false 0x88 g), lutRow (.lop3OrShort g) (shortItem 0x10 false 0xEE g),
   lutRow (.lop3XorShort g) (shortItem 0x11 false 0x66 g),
   oneRow (.popc f) (longItem 0x050 false f) false popcN, oneRow (.popcShort g) (shortItem 0x12 false 0x400 g) false popcN,
   oneRow (.clz f) (longItem 0x051 false f) false clzN, oneRow (.clzShort g) (shortItem 0x13 false 0x400 g) false clzN,
   oneRow (.brev f) (longItem 0x052 false f) (vtOf (longItem 0x052 false f).ty).pair brevN,
   oneRow (.brevShort g) (shortItem 0x14 false 0x400 g) (vtOf (shortItem 0x14 false 0x400 g).ty).pair brevN,
   (let it := longItem 0x053 false f
    vecRow (.bfe f) it [vtOf it.ty, vtCount] (vtOf it.ty).pair (commonBads it [2, 3, 6, 7] 0) fun s w r l =>
      bfeVal it.ty (intA it s w r l) (numOf it .b s w r l)),
   (let it := longItem 0x054 false f
    vecRow (.bfi f) it [vtOf it.ty, vtOf it.ty, vtCount] (vtOf it.ty).pair (commonBads it [8, 9] 0) fun s w r l =>
      bfiVal (tyWidth it.ty) (bitA it s w r l) (bitB it s w r l) (numOf it .c s w r l))]

/-- Checks of a compare (R152): types, condition codes. -/
def compareBads (it : Item) : List Bad :=
  opdBad (!([2, 3, 6, 7] ++ [8, 9] : List Nat).contains it.ty) 5 it.ty ++
    opdBad (6 ≤ it.m 58 56 || (8 ≤ it.ty && it.ty ≤ 9 && 2 ≤ it.m 58 56)) 6 (it.m 58 56) ++ encBad (it.m 55 52 ≠ 0) 7 52

/-- Checks of a select. -/
def selectBads (it : Item) : List Bad :=
  opdBad (!([8, 9] : List Nat).contains it.ty) 5 it.ty ++ encBad (it.m 58 56 ≠ 0) 7 56

/-- Compare, select, address and predicate instructions (R152, R154, R155), MOV and MOVI aside. -/
def chooseRows (f : Long) : List Row :=
  [(let it := longItem 0x055 false f
    predRow (.icmp f) it [vtOf it.ty, vtOf it.ty] (compareBads it) fun s w r l =>
      compareInt (it.m 58 56) (intA it s w r l) (intB it s w r l)),
   (let it := longItem 0x056 false f
    vecRow (.isel f) it [vtOf it.ty, vtOf it.ty] (vtOf it.ty).pair (selectBads it) fun s w r l =>
      if it.mb 55 != pget w (it.m 54 52) l then bitA it s w r l else bitB it s w r l),
   (let it := longItem 0x02B true f
    qRow (.scmp f) it [vtOf it.ty, vtOf it.ty] (compareBads it) fun s w r =>
      compareInt (it.m 58 56) (intA it s w r 0) (intB it s w r 0)),
   (let it := longItem 0x02C true f
    uniRow (.ssel f) it [vtOf it.ty, vtOf it.ty] (vtOf it.ty).pair (selectBads it) fun s w r =>
      if it.mb 55 != qget w (it.m 54 52) then bitA it s w r 0 else bitB it s w r 0),
   (let it := longItem 0x060 false f
    vecRow (.lea f) it [vtCount, vtCount] false (encBad (it.m 63 58 ≠ 0) 7 58 ++ encBad (it.mb 57) 7 57) fun s w r l =>
      (numOf it .a s w r l * 2 ^ it.m 56 52 + numOf it .b s w r l) % 2 ^ 32),
   (let it := longItem 0x061 false f
    vecRow (.lea64 f) it [.int 32 (it.mb 57), .int 64 false] true (encBad (it.m 63 58 ≠ 0) 7 58) fun s w r l =>
      wrapInt 64 (operandInt s w r it (.int 32 (it.mb 57)) .a l * (2 ^ it.m 56 52 : Nat) +
        operandInt s w r it (.int 64 false) .b l))]

/-- PSET, PLOP and PMOV, per thread or uniform by their U bit (R155). -/
def predicateRows (f : Long) : List Row :=
  [(let u := f.md.getLsbD 0
    let it := longItem 0x062 u f
    ⟨.pset f, it, fun _ _ _ =>
      { uses := srcUses u [vtOf it.ty] ++ [.dstP u],
        bads := opdBad (!([8, 9] : List Nat).contains it.ty) 5 it.ty ++ encBad (it.m 58 53 ≠ 0) 7 53 },
      fun s w r => if u then finish { s with cur := if guardU w it then qset w it.d (bitA it s w r 0 != 0) else w } r it
        else predResult s r it fun l => bitA it s w r l != 0⟩),
   (let u := f.md.getLsbD 8
    let it := longItem 0x063 u f
    let val := fun (w : Warp) (l : Nat) =>
      lut3 (it.m 59 52) (predCode w u (it.code .a) l) (predCode w u (it.code .b) l) (predCode w u (it.code .c) l)
    ⟨.plop f, it, fun _ _ _ => { uses := [.pred .a u, .pred .b u, .pred .c u, .dstP u], bads := encBad (it.m 63 61 ≠ 0) 7 61 },
      fun s w r => if u then finish { s with cur := if guardU w it then qset w it.d (val w 0) else w } r it
        else predResult s r it (val w)⟩)]

/-! Uniform instructions (R146, R147). -/

def sArithRow (i : Instr) (it : Item) (sat : Bool) (g : Int → Int → Int) : Row :=
  uniRow i it [vtOf it.ty, vtOf it.ty] (vtOf it.ty).pair (commonBads it [2, 3, 6, 7] (if sat then 1 else 0)) fun s w r =>
    putInt it.ty (sat && it.mb 52) (g (intA it s w r 0) (intB it s w r 0))

def sBitRow (i : Instr) (it : Item) (g : Nat → Nat → Nat) : Row :=
  uniRow i it [vtOf it.ty, vtOf it.ty] (vtOf it.ty).pair (commonBads it [8, 9] 0) fun s w r =>
    g (bitA it s w r 0) (bitB it s w r 0)

def sShiftRow (i : Instr) (it : Item) (kind : Nat) (types : List Nat) : Row :=
  uniRow i it [vtOf it.ty, vtCount] (vtOf it.ty).pair (commonBads it types 1) fun s w r =>
    shiftVal kind (tyWidth it.ty) (bitA it s w r 0) (numOf it .b s w r 0) (it.mb 52)

def sMoveRow (i : Instr) (it : Item) : Row :=
  uniRow i it [vtOf it.ty] (vtOf it.ty).pair (commonBads it [8, 9] 0) fun s w r => bitA it s w r 0

/-- SMOV to SSHA with their short forms. -/
def uniformRows (f : Long) (g : Short) : List Row :=
  [sMoveRow (.smov f) (longItem 0x020 true f), sMoveRow (.smovShort g) (shortItem 0x33 true 0x400 g),
   sArithRow (.sadd f) (longItem 0x021 true f) true (· + ·), sArithRow (.saddShort g) (shortItem 0x34 true 0x100 g) true (· + ·),
   sArithRow (.ssub f) (longItem 0x022 true f) true (· - ·), sArithRow (.ssubShort g) (shortItem 0x35 true 0x100 g) true (· - ·),
   sArithRow (.smul f) (longItem 0x023 true f) false (· * ·), sArithRow (.smulShort g) (shortItem 0x36 true 0x100 g) false (· * ·),
   (let it := longItem 0x024 true f
    uniRow (.smad f) it [vtOf it.ty, vtOf it.ty, vtOf it.ty] (vtOf it.ty).pair (commonBads it [2, 3, 6, 7] 0) fun s w r =>
      putInt it.ty false (intA it s w r 0 * intB it s w r 0 + intC it s w r 0)),
   sBitRow (.sand f) (longItem 0x025 true f) (· &&& ·), sBitRow (.sandShort g) (shortItem 0x37 true 0x400 g) (· &&& ·),
   sBitRow (.sor f) (longItem 0x026 true f) (· ||| ·), sBitRow (.sorShort g) (shortItem 0x38 true 0x400 g) (· ||| ·),
   sBitRow (.sxor f) (longItem 0x027 true f) (· ^^^ ·), sBitRow (.sxorShort g) (shortItem 0x39 true 0x400 g) (· ^^^ ·),
   sShiftRow (.sshl f) (longItem 0x028 true f) 0 [8, 9], sShiftRow (.sshlShort g) (shortItem 0x3A true 0x400 g) 0 [8, 9],
   sShiftRow (.sshr f) (longItem 0x029 true f) 1 [6, 7], sShiftRow (.sshrShort g) (shortItem 0x3B true 0x300 g) 1 [6, 7],
   sShiftRow (.ssha f) (longItem 0x02A true f) 2 [2, 3]]

/-! Floating point (R156 to R162). -/

/-- A floating operand of the instruction's format, flushed under FTZ (R88). -/
def fltAt (it : Item) (x : Fld) (s : State) (w : Warp) (r : Run) (l : Nat) : FV := operandF s w r it (fmtOf it) (ftzOf it) x l

/-- The exact value `g` of up to three operands, rounded once (R157). -/
def roundRow (i : Instr) (it : Item) (types : List Nat) (n : Nat) (g : Nat → FV → FV → FV → FV) : Row :=
  fltRow i it (List.replicate n (vtOf it.ty)) (vtOf it.ty).pair (fltBads it types 4 true 0) fun s w r l =>
    roundF (fmtOf it) (rndOf it) (laneRandom s w l 0) false (ftzOf it)
      (g (rndOf it) (fltAt it .a s w r l) (fltAt it .b s w r l) (if n = 3 then fltAt it .c s w r l else .nan))

/-- The least or greatest encoding (R159). -/
def fltPickRow (i : Instr) (it : Item) (types : List Nat) (opx : Nat) (least : Bool) : Row :=
  fltRow i it [vtOf it.ty, vtOf it.ty] (vtOf it.ty).pair (fltBads it types 0 true opx) fun s w r l =>
    minMaxEnc (fmtOf it) least (ftzOf it) (operand s w r it (vtOf it.ty) .a l) (operand s w r it (vtOf it.ty) .b l)

/-- A float compare (R160). -/
def fltCmpRow (i : Instr) (it : Item) (types : List Nat) (ftz : Bool) : Row :=
  predRow i it [vtOf it.ty, vtOf it.ty]
    (opdBad (!types.contains it.ty) 5 it.ty ++ opdBad (it.mb 55 && !ftz) 6 1 ++ encBad (it.m 54 52 ≠ 0) 7 52) fun s w r l =>
    compareF (it.m 58 56) (fltAt it .a s w r l) (fltAt it .b s w r l)

/-- FADD to FSCALE with their short forms (R158 to R161). -/
def fp32Rows (f : Long) (g : Short) : List Row :=
  [roundRow (.fadd f) (longItem 0x080 false f) [0x0B] 2 (fun m a b _ => addFV m a b),
   roundRow (.faddShort g) (shortItem 0x15 false 0x580 g) [0x0B] 2 (fun m a b _ => addFV m a b),
   roundRow (.fmul f) (longItem 0x081 false f) [0x0B] 2 (fun _ a b _ => mulFV a b),
   roundRow (.fmulShort g) (shortItem 0x16 false 0x580 g) [0x0B] 2 (fun _ a b _ => mulFV a b),
   roundRow (.ffma f) (longItem 0x082 false f) [0x0B] 3 (fun m a b c => addFV m (mulFV a b) c),
   fltPickRow (.fmin f) (longItem 0x083 false f) [0x0B] 0 true, fltPickRow (.fminShort g) (shortItem 0x17 false 0x580 g) [0x0B] 0 true,
   fltPickRow (.fmax f) (longItem 0x084 false f) [0x0B] 0 false, fltPickRow (.fmaxShort g) (shortItem 0x18 false 0x580 g) [0x0B] 0 false,
   fltCmpRow (.fcmp f) (longItem 0x085 false f) [0x0B] true,
   (let it := longItem 0x086 false f
    predRow (.fclass f) it [vtOf it.ty, vtCount]
      (opdBad (!([0x0A, 0x0B, 0x0C, 0x0D] : List Nat).contains it.ty) 5 it.ty ++ encBad (it.m 58 52 ≠ 0) 7 52) fun s w r l =>
      (numOf it .b s w r l).testBit (classBit (fmtOf it) (operand s w r it (vtOf it.ty) .a l))),
   (let it := longItem 0x087 false f
    fltRow (.frnd f) it [vtOf it.ty] (vtOf it.ty).pair (fltBads it [0x0A, 0x0B] 3 true 0) fun s w r l =>
      match fltAt it .a s w r l with
      | .num sg m e => roundF (fmtOf it) 0 0 false (ftzOf it) (ofInt (roundInt (rndOf it) sg m e) 0 sg)
      | x => roundF (fmtOf it) 0 0 false false x),
   (let it := longItem 0x088 false f
    fltRow (.fscale f) it [vtOf it.ty, .int 32 true] (vtOf it.ty).pair (fltBads it [0x0A, 0x0B] 3 true 0) fun s w r l =>
      roundF (fmtOf it) (rndOf it) 0 false (ftzOf it)
        (scaleFV (max (-8000) (min 8000 (operandInt s w r it (.int 32 true) .b l))) (fltAt it .a s w r l)))]

/-- Each half of a packed instruction on its own (R162). -/
def halfRow (i : Instr) (it : Item) (n : Nat) (g : Nat → FV → FV → FV → FV) : Row :=
  fltRow i it (List.replicate n (VT.packed (fmtOf it))) false (fltBads it [0x0C, 0x0D] 4 false 0) fun s w r l =>
    let v := fun (x : Fld) (j : Nat) => decodeF (fmtOf it) (half (operand s w r it (VT.packed (fmtOf it)) x l) j)
    let e := fun (j : Nat) => roundF (fmtOf it) (rndOf it) (laneRandom s w l j) false false
      (g (rndOf it) (v .a j) (v .b j) (if n = 3 then v .c j else .nan))
    e 0 + e 1 * 2 ^ 16

/-- HADD2 to DMNMX with their short forms (R158 to R162). -/
def packedRows (f : Long) (g : Short) : List Row :=
  [halfRow (.hadd2 f) (longItem 0x0A0 false f) 2 (fun m a b _ => addFV m a b),
   halfRow (.hadd2F16Short g) (shortItem 0x1F false 0x600 g) 2 (fun m a b _ => addFV m a b),
   halfRow (.hadd2Bf16Short g) (shortItem 0x21 false 0x680 g) 2 (fun m a b _ => addFV m a b),
   halfRow (.hmul2 f) (longItem 0x0A1 false f) 2 (fun _ a b _ => mulFV a b),
   halfRow (.hmul2F16Short g) (shortItem 0x20 false 0x600 g) 2 (fun _ a b _ => mulFV a b),
   halfRow (.hmul2Bf16Short g) (shortItem 0x22 false 0x680 g) 2 (fun _ a b _ => mulFV a b),
   halfRow (.hfma2 f) (longItem 0x0A2 false f) 3 (fun m a b c => addFV m (mulFV a b) c),
   (let it := longItem 0x0A3 false f
    fltRow (.hmnmx2 f) it [VT.packed (fmtOf it), VT.packed (fmtOf it)] false (fltBads it [0x0C, 0x0D] 0 false 1) fun s w r l =>
      let e := fun j => minMaxEnc (fmtOf it) (!it.mb 52) false (half (operand s w r it (VT.packed (fmtOf it)) .a l) j)
        (half (operand s w r it (VT.packed (fmtOf it)) .b l) j)
      e 0 + e 1 * 2 ^ 16),
   roundRow (.dadd f) (longItem 0x0A4 false f) [0x0A] 2 (fun m a b _ => addFV m a b),
   roundRow (.daddShort g) (shortItem 0x23 false 0x500 g) [0x0A] 2 (fun m a b _ => addFV m a b),
   roundRow (.dmul f) (longItem 0x0A5 false f) [0x0A] 2 (fun _ a b _ => mulFV a b),
   roundRow (.dmulShort g) (shortItem 0x24 false 0x500 g) [0x0A] 2 (fun _ a b _ => mulFV a b),
   roundRow (.dfma f) (longItem 0x0A6 false f) [0x0A] 3 (fun m a b c => addFV m (mulFV a b) c),
   fltCmpRow (.dcmp f) (longItem 0x0A7 false f) [0x0A] false,
   fltPickRow (.dmnmx f) (longItem 0x0A8 false f) [0x0A] 1 (!(longItem 0x0A8 false f).mb 52)]

/-! Conversions and special functions (R163 to R167). -/

/-- Checks of a conversion from type `src` (Table 8.6). -/
def convertSpec (it : Item) (src : Nat) (bUse : List Use) (more : List Bad) : Spec :=
  { uses := [.src .a (vtOf src) accAny] ++ bUse ++ [.unused .c, .dstV (if (vtOf it.ty).pair then 2 else 1)]
    bads := more ++ opdBad (!(isIntTy it.ty || isFltTy it.ty)) 5 it.ty ++ opdBad (!(isIntTy src || isFltTy src)) 5 src ++
      opdBad ((cvtLimits it.ty src).1 < rndOf it) 6 (rndOf it) ++ opdBad (it.mb 54 && !(cvtLimits it.ty src).2.1) 6 1 ++
      opdBad (ftzOf it && !(cvtLimits it.ty src).2.2) 6 1 ++ encBad (it.m 53 52 ≠ 0) 7 52
    capt := true }

/-- A conversion of one operand. -/
def convertRow (i : Instr) (it : Item) (src : Nat) (bUse : List Use) (more : List Bad) : Row :=
  ⟨i, it, fun _ _ _ => convertSpec it src bUse more, fun s w r =>
    vecResult (if rndOf it = 4 then { s with cur := bumpRctr w (activeLanes w r it) } else s) r it (vtOf it.ty).pair fun l =>
      cvtVal it.ty src (rndOf it) (laneRandom s w l 0) ((cvtLimits it.ty src).2.1 && !it.mb 54) (ftzOf it)
        (operand s w r it (vtOf src) .a l)⟩

/-- CVT and its short forms (R163). -/
def convertRows (f : Long) (g : Short) : List Row :=
  [convertRow (.cvt f) (longItem 0x0C0 false f) ((longItem 0x0C0 false f).code .b % 32) []
     (encBad ((longItem 0x0C0 false f).code .b / 32 ≠ 0) 7 35),
   convertRow (.cvtF32I32Short g) (shortItem 0x25 false 0x580 g) 0x02 [.unused .b] [],
   convertRow (.cvtI32F32Short g) (shortItem 0x26 false 0x110 g) 0x0B [.unused .b] [],
   convertRow (.cvtBf16F32Short g) (shortItem 0x27 false 0x680 g) 0x0B [.unused .b] [],
   convertRow (.cvtF32Bf16Short g) (shortItem 0x28 false 0x580 g) 0x0D [.unused .b] []]

/-- A special function of one operand (R166). -/
def sfuRow (i : Instr) (it : Item) (types : List Nat) (rnd : Nat) (g : Fmt → Nat → Bool → Nat → FV → Nat) : Row :=
  fltRow i it [vtOf it.ty] (vtOf it.ty).pair (fltBads it types rnd true 0) fun s w r l =>
    let x := ftzIn (ftzOf it) (operand s w r it (vtOf it.ty) .a l)
    g (fmtOf it) (rndOf it) (ftzOf it) x (decodeF (fmtOf it) x)

/-- RCP to TANH with their short forms. -/
def sfuRows (f : Long) (g : Short) : List Row :=
  [sfuRow (.rcp f) (longItem 0x0C3 false f) [0x0A, 0x0B] 3 (fun F m z _ x => rcpF F m z x),
   sfuRow (.rcpShort g) (shortItem 0x19 false 0x580 g) [0x0A, 0x0B] 3 (fun F m z _ x => rcpF F m z x),
   sfuRow (.rsq f) (longItem 0x0C4 false f) [0x0A, 0x0B] 0 (fun F _ z b x => rsqF F z b x),
   sfuRow (.rsqShort g) (shortItem 0x1A false 0x580 g) [0x0A, 0x0B] 0 (fun F _ z b x => rsqF F z b x),
   sfuRow (.sqrt f) (longItem 0x0C5 false f) [0x0A, 0x0B] 3 (fun F m z _ x => sqrtF F m z x),
   sfuRow (.sqrtShort g) (shortItem 0x1B false 0x580 g) [0x0A, 0x0B] 3 (fun F m z _ x => sqrtF F m z x),
   sfuRow (.ex2 f) (longItem 0x0C6 false f) [0x0B] 0 (fun _ _ z b x => ex2F z b x),
   sfuRow (.ex2Short g) (shortItem 0x1C false 0x580 g) [0x0B] 0 (fun _ _ z b x => ex2F z b x),
   sfuRow (.lg2 f) (longItem 0x0C7 false f) [0x0B] 0 (fun _ _ z b x => lg2F z b x),
   sfuRow (.lg2Short g) (shortItem 0x1D false 0x580 g) [0x0B] 0 (fun _ _ z b x => lg2F z b x),
   sfuRow (.sin f) (longItem 0x0C8 false f) [0x0B] 0 (fun _ _ z b x => trigF false z b x),
   sfuRow (.cos f) (longItem 0x0C9 false f) [0x0B] 0 (fun _ _ z b x => trigF true z b x),
   sfuRow (.tanh f) (longItem 0x0CA false f) [0x0B] 0 (fun _ _ z b x => tanhF z b x),
   sfuRow (.tanhShort g) (shortItem 0x1E false 0x580 g) [0x0B] 0 (fun _ _ z b x => tanhF z b x)]

/-! Lane operations (R168 to R174). -/

/-- Nothing is written after the result. -/
def keepWarp : Warp → Run → Warp → Warp := fun _ _ w => w

def moveRow (i : Instr) (it : Item) : Row :=
  laneRow i it (srcUses false [vtOf it.ty]) (vtOf it.ty).pair (commonBads it [8, 9] 0) keepWarp fun s w r l => bitA it s w r l

/-- SHFL: the source lane's operand; out of the tile or inactive, operand c under .e, else the lane's own (R170). -/
def shuffleRow (i : Instr) (it : Item) : Row :=
  laneRow i it ([.src .a (vtOf it.ty) accAny, .src .b vtCount accAny] ++ (if it.mb 55 then [.src .c (vtOf it.ty) accAny] else [.unused .c]))
    (vtOf it.ty).pair
    (opdBad (!([8, 9] : List Nat).contains it.ty) 5 it.ty ++ encBad (it.m 58 56 ≠ 0) 7 56 ++ encBad (it.mb 54) 7 54) keepWarp
    fun s w r l =>
      let p := shflSrc (it.m 53 52) (2 ^ r.tsz.toNat) (l - tileBase r l) (numOf it .b s w r l)
      let src := tileBase r l + p.1
      if it.mb 55 && (p.2 || !lon (activeLanes w r it) src) then operand s w r it (vtOf it.ty) .c l
      else if !lon (activeLanes w r it) src then operand s w r it (vtOf it.ty) .a l
      else operand s w r it (vtOf it.ty) .a src

/-- REDUX, and SCAN inclusive or exclusive (R172). -/
def foldRow (scan : Bool) (i : Instr) (it : Item) : Row :=
  laneRow i it (srcUses false [vtOf it.ty]) false
    (opdBad (!(([2, 6, 0x0B, 8] : List Nat).contains it.ty)) 5 it.ty ++ opdBad (6 ≤ it.m 58 56) 6 (it.m 58 56) ++
      opdBad (it.m 58 56 < 6 && !(if it.m 58 56 ≤ 2 then ([2, 6, 0x0B] : List Nat).contains it.ty else it.ty == 8)) 5 it.ty ++
      opdBad (it.mb 55 && !scan) 6 1 ++ encBad (it.m 54 52 ≠ 0) 7 52) keepWarp fun s w r l =>
    foldVal (it.m 58 56) it.ty
      ((if !scan then tileActive w r it l else (tileActive w r it l).filter fun j => decide (j < l) || (j == l && !it.mb 55)).map
        fun j => operand s w r it (vtOf it.ty) .a j)

/-- MOV, PRMT, SHFL, MATCH, REDUX, SCAN, COMPRESS and EXPAND with their short forms. -/
def laneRows (f : Long) (g : Short) : List Row :=
  [moveRow (.mov f) (longItem 0x0E0 false f), moveRow (.movShort g) (shortItem 0x01 false 0x400 g),
   (let it := longItem 0x0E2 false f
    laneRow (.prmt f) it (srcUses false [.bits 32, .bits 32, .bits 32]) false (commonBads it [8] 0) keepWarp fun s w r l =>
      prmtVal (operand s w r it (.bits 32) .a l) (operand s w r it (.bits 32) .b l) (operand s w r it (.bits 32) .c l)),
   shuffleRow (.shfl f) (longItem 0x0E3 false f), shuffleRow (.shflIdxShort g) (shortItem 0x2D false 0x400 g),
   shuffleRow (.shflUpShort g) (shortItem 0x2E false 0x401 g), shuffleRow (.shflDownShort g) (shortItem 0x2F false 0x402 g),
   shuffleRow (.shflXorShort g) (shortItem 0x30 false 0x403 g),
   (let it := longItem 0x0E7 false f
    laneRow (.matchLanes f) it (srcUses false [vtOf it.ty]) false (commonBads it [8, 9] 1) keepWarp fun s w r l =>
      let same := (tileActive w r it l).filter fun j =>
        operand s w r it (vtOf it.ty) .a j == operand s w r it (vtOf it.ty) .a l
      if it.mb 52 && same.length != (tileActive w r it l).length then 0
      else (lanesFrom (same.map (· % 2 ^ r.tsz.toNat))).toNat),
   foldRow false (.redux f) (longItem 0x0E5 false f), foldRow false (.reduxAddShort g) (shortItem 0x31 false 0x100 g),
   foldRow false (.reduxMaxShort g) (shortItem 0x32 false 0x120 g), foldRow true (.scan f) (longItem 0x0E6 false f),
   (let it := longItem 0x0E8 false f
    laneRow (.compress f) it ([.src .a (vtOf it.ty) accAny, .pred .b false] ++ optV it) (vtOf it.ty).pair (packBads it)
      (fun w r w' => putOptV w' (activeLanes w r it) it fun l => (selected w r it l).length) fun s w r l =>
      match (selected w r it l)[l - tileBase r l]? with
      | some src => operand s w r it (vtOf it.ty) .a src
      | none => if it.mb 52 then 0 else oldDest w it (vtOf it.ty).pair l),
   (let it := longItem 0x0E9 false f
    laneRow (.expand f) it [.src .a (vtOf it.ty) accAny, .pred .b false, .unused .c] (vtOf it.ty).pair (packBads it) keepWarp
      fun s w r l =>
      let keep := if it.mb 52 then 0 else oldDest w it (vtOf it.ty).pair l
      match findIdx (· == l) (selected w r it l) with
      | some k =>
        if lon (activeLanes w r it) (tileBase r l + k) then operand s w r it (vtOf it.ty) .a (tileBase r l + k) else keep
      | none => keep)]

/-! The lane instructions of another shape. -/

/-- Requirements of MOVI: the registers that its index may reach are named too (R169). -/
def moviNeeds (it : Item) (s : State) : Spec :=
  { uses := [.vgrp .a 1 1, .src .b (.bits 32) accAny, .unused .c] ++ [.dstV 1], bads := commonBads it [8] 0, capt := true, wide := true
    extra := ((List.range 32).filter fun n => decide (it.code .a + n < vlim s s.cur)).map fun n => (0, it.code .a + n) }

/-- Requirements of a narrow conversion of a tile: field C takes the scale under .mx (R164). -/
def cvtpNeeds (it : Item) (r : Run) : Spec :=
  { uses := [.src .a (.flt f32) accAny, .unused .b, .dstV 1] ++ (if it.mb 52 then [.vgrp .c 1 1] else [])
    bads := opdBad (!(it.ty == 0x0C || it.ty == 0x0D || (0x0E ≤ it.ty && it.ty ≤ 0x12))) 5 it.ty ++
      opdBad (it.mb 52 && (it.ty == 0x0C || it.ty == 0x0D)) 5 it.ty ++ opdBad (4 < rndOf it) 6 (rndOf it) ++
      opdBad (ftzOf it) 6 1 ++ encBad (it.mb 53) 7 53 ++ opdBad (!it.mb 52 && it.code .c ≠ 0) 1 (it.code .c) ++
      opdBad (it.mb 52 && r.tsz ≠ 5) 8 (2 ^ r.tsz.toNat)
    capt := true }

/-- Requirements of CVTQ: field B names the eight registers of the codebook (R165). -/
def cvtqNeeds (it : Item) (s : State) (w : Warp) : Spec :=
  { uses := [.src .a (.flt f32) accAny, .unused .c, .dstV 1] ++ (if cvtqS (it.code .b) then [] else [.vgrp .b 8 8])
    bads := opdBad (it.ty ≠ 0x13) 5 it.ty ++ opdBad (rndOf it ≠ 0) 6 (rndOf it) ++ opdBad (ftzOf it) 6 1 ++
      opdBad (it.mb 54) 6 1 ++ encBad (it.mb 53) 7 53 ++
      (if cvtqS (it.code .b) then regBads (it.code .b - 0x100) 8 8 (slim s w) (it.code .b) else [])
    extra := if cvtqS (it.code .b) then (List.range 8).map fun j => (1, it.code .b - 0x100 + j) else []
    capt := true }

/-- Requirements of VOTE: a mask in DST in mode 3, else a predicate (R171). -/
def voteNeeds (it : Item) : Spec :=
  if it.m 53 52 = 3 then
    { uses := ([.pred .a false, .unused .b] ++ optV it) ++ [.dstV 1], bads := encBad (it.m 63 54 ≠ 0) 7 54, capt := true, wide := true }
  else { uses := ([.pred .a false, .unused .b] ++ optV it) ++ [.dstP false], bads := encBad (it.m 63 54 ≠ 0) 7 54, wide := true }

/-- The active lanes of a lane's tile whose predicate holds. -/
def voters (w : Warp) (r : Run) (it : Item) (l : Nat) : List Nat :=
  (tileActive w r it l).filter fun i => predCode w false (it.code .a) i

/-- What VOTE's predicate says: all, any, or uniform. -/
def voteHolds (mode yes all : Nat) : Bool :=
  match mode with
  | 0 => decide (yes = all)
  | 1 => decide (0 < yes)
  | _ => decide (yes = 0) || decide (yes = all)

/-- Requirements of PART: a constant tile size, no guard (R26). -/
def partNeeds (it : Item) (s : State) (w : Warp) (r : Run) : Spec :=
  { uses := [.src .a vtCount { v := false, latch := false, sr := false, uni := true }, .unused .b, .unused .c, .dstNone]
    bads := encBad (it.m 63 52 ≠ 0) 7 52 ++ encBad (it.f.gn || it.f.gp != 7) 6 48 ++
      opdBad (!([2, 4, 8, 16, 32] : List Nat).contains (numOf it .a s w r 0)) 8 (numOf it .a s w r 0) }

/-- Requirements of PMOV: from a register under DIR, else to one (R155). -/
def pmovNeeds (it : Item) (u : Bool) : Spec :=
  if it.mb 59 then { uses := srcUses u [.bits 32] ++ [.dstNone], bads := encBad (it.m 63 61 ≠ 0) 7 61 }
  else aluSpec u [] false (encBad (it.m 63 61 ≠ 0) 7 61)

/-- MOVI, VOTE, PART, CVTP, CVTQ and PMOV (R155, R164, R165, R169, R171, R174). -/
def tileRows (f : Long) : List Row :=
  [(let it := longItem 0x0E1 false f
    ⟨.movi f, it, fun s _ _ => moviNeeds it s, fun s w r => vecResult s r it false fun l =>
      let n := operand s w r it (.bits 32) .b l
      if n ≤ 31 ∧ it.code .a + n < vlim s w then (vget w (it.code .a + n) l).toNat else 0⟩),
   (let it := longItem 0x0E4 false f
    ⟨.vote f, it, fun _ _ _ => voteNeeds it, fun s w r =>
      let count := fun w' => putOptV w' (activeLanes w r it) it fun l => (voters w r it l).length
      if it.m 53 52 = 3 then vecResultThen s r it false (fun l =>
        (lanesFrom ((voters w r it l).map (· % 2 ^ r.tsz.toNat))).toNat) count
      else finish { s with cur := (lanesOf (activeLanes w r it)).foldl (fun w' l =>
        pset w' it.d l (voteHolds (it.m 53 52) (voters w r it l).length (tileActive w r it l).length)) (count w) } r it⟩),
   (let it := longItem 0x0EA false f
    ⟨.part f, it, partNeeds it, fun s w r => finish { s with cur := { w with part := w32 (Nat.log2 (numOf it .a s w r 0)) } } r it⟩),
   (let it := longItem 0x0C1 false f
    let F := fmtOf it
    ⟨.cvtp f, it, fun _ _ r => cvtpNeeds it r, fun s w r =>
      let act := activeLanes w r it
      let x := fun l => if lon act l then decodeF f32 (operand s w r it (.flt f32) .a l) else .num false 0 0
      let sc := mxScale (emaxF F) ((lanesOf act).map x)
      let y := fun l => roundF F (rndOf it) (laneRandom s w l 0) (!it.mb 54) false
        (if it.mb 52 then (match scaleExp sc with | none => FV.nan | some k => scaleFV (-k) (x l)) else x l)
      let w1 := if rndOf it = 4 then bumpRctr w act else w
      vecResult { s with cur := if it.mb 52 then (lanesOf act).foldl (fun w l => vset w (it.code .c) l (w32 sc)) w1 else w1 } r it false
        fun l => packTile (packing F).1 (packing F).2 (2 ^ r.tsz.toNat) (l % 2 ^ r.tsz.toNat) fun t => y (tileBase r l + t)⟩),
   (let it := longItem 0x0C2 false f
    ⟨.cvtq f, it, fun s w _ => cvtqNeeds it s w, fun s w r =>
      let idx := fun l => if lon (activeLanes w r it) l then
        cbIndex (regCodebook w (it.code .b) l) (decodeF f32 (operand s w r it (.flt f32) .a l)) else 0
      vecResult s r it false fun l => if it.mb 52 then idx l
        else packTile 8 4 (2 ^ r.tsz.toNat) (l % 2 ^ r.tsz.toNat) fun t => idx (tileBase r l + t)⟩),
   (let u := f.md.getLsbD 8
    let it := longItem 0x064 u f
    ⟨.pmov f, it, fun _ _ _ => pmovNeeds it u, fun s w r =>
      let val := fun l => predMask w u l &&& it.m 58 52 &&& 0x7F
      if it.mb 59 then
        finish { s with cur := if u then (if guardU w it then putMask w true (it.m 58 52) (operand s w r it (.bits 32) .a 0) 0 else w)
          else (lanesOf (activeLanes w r it)).foldl (fun w l => putMask w false (it.m 58 52) (operand s w r it (.bits 32) .a l) l) w } r it
      else if u then uniResult s r it false (val 0) else vecResult s r it false val⟩)]

/-- Requirements of SLDP (R147). -/
def sldpNeeds (it : Item) : Spec :=
  { uses := [.src .a vtCount (accParam false), .src .b vtCount (accParam true), .unused .c, .dstS (if it.ty = 9 then 2 else 1)],
    bads := commonBads it [0, 1, 4, 5, 8, 9] 0, capt := true }

/-- SLDP completes with the parameter bytes at its offset, extended to the register (R147, R47). -/
def sldpCompletes (i : Instr) (it : Item) : Prop :=
  ∀ s r, Ready s r it (sldpNeeds it) →
    let off := (numOf it .a s s.cur r 0 + numOf it .b s s.cur r 0) % 2 ^ 32
    let n := tyWidth it.ty / 8
    guardU s.cur it = false ∨ off % n = 0 →
    exec i s = .next (uniResult s r it (it.ty = 9)
      (if it.ty < 2 then wrapInt 32 (signedOf (8 * n) (ofBytes (paramBytes (ctxOf s s.cur) off n)))
       else ofBytes (paramBytes (ctxOf s s.cur) off n)))

/-! Control transfer (R138 to R142). -/

/-- Requirements of a transfer: a literal target or one in a register pair, a link where there is one. -/
def transferNeeds (it : Item) (lit link : Bool) : Spec :=
  { uses := (if lit then [.unused .a] else [.src .a (.int 64 false) (if it.mb 52 then accS else accV)]) ++ [.unused .b, .unused .c,
      if link then (if it.mb 52 then .dstS 2 else .dstV 2) else .dstNone]
    bads := encBad (it.m 63 53 ≠ 0) 7 53 ++ encBad (lit && it.f.lit.isNone) 10 0
    usesLit := lit }

/-- The warp after a call's link and the depth that a step counts. -/
def linkWarp (w : Warp) (go : Lanes) (r : Run) (it : Item) (link ret : Bool) : Warp :=
  let w := if !link then w
    else if it.mb 52 then (if go = 0 then w else sputNat w true it.d (fallThrough r))
    else (lanesOf go).foldl (fun w l => vputNat w true it.d l (fallThrough r)) w
  if link then countDepth w go 1 else if ret then countDepth w go (-1) else w

/-- A transfer ends the clause: lanes whose guard holds stand at their target, the others past the clause, where every
target is a place a transfer may go to (R106, R138, R139). -/
def transferCompletes (i : Instr) (it : Item) (lit link ret : Bool) : Prop :=
  ∀ s r s', Ready s r it (transferNeeds it lit link) →
    let go := activeLanes s.cur r it
    let tgt := fun l => if lit then literalTarget r it else dw (operand s s.cur r it (.int 64 false) .a l)
    firstBadTarget tgt (lanesOf go) s = (none, s') →
    exec i s = .next (afterStops
      (endClause { s' with cur := linkWarp s'.cur go r it link ret } (advance r it) fun l =>
        if lon go l then dw ((tgt l).toNat % 2 ^ 60) else dw (fallThrough r)) r false (ret && go != 0))

/-- YIELD and NOP (R142). -/
def idleRows (f : Long) (g : Short) : List Row :=
  let yieldRow := fun i it => (⟨i, it, fun _ _ _ => emptySpec it false, fun s w r =>
    afterStops (endClause { s with cur := { w with yielded := true } } (advance r it) fun _ => dw (fallThrough r)) r false false⟩ : Row)
  let nopRow := fun i it => (⟨i, it, fun _ _ _ => emptySpec it true, fun s _ r => finish s r it⟩ : Row)
  [yieldRow (.yield f) (longItem 0x007 false f), yieldRow (.yieldShort g) (shortItem 0x3E false 0x0 g),
   nopRow (.nop f) (longItem 0x008 false f), nopRow (.nopShort g) (shortItem 0x00 false 0x0 g)]

/-- RCV: the hint of the active lanes becomes the literal target (R141). -/
def hintCompletes (i : Instr) (it : Item) : Prop :=
  ∀ s r s', Ready s r it
      { uses := [.unused .a, .unused .b, .unused .c, .dstNone]
        bads := encBad (it.m 63 52 ≠ 0) 7 52 ++ encBad it.f.lit.isNone 10 0
        usesLit := true } →
    let act := lanesOf (activeLanes s.cur r it)
    firstBadTarget (fun _ => literalTarget r it) act s = (none, s') →
    exec i s = .next (finish { s' with cur := { s'.cur with
      hint := act.foldl (fun m l => nset none m l (some (literalTarget r it))) s'.cur.hint
      heldFor := act.foldl (fun m l => nset 0 m l 0) s'.cur.heldFor } } r it)

/-- EXIT: the lanes whose guard holds are no longer live, the others stand past the clause (R140); a handler that has none
left ends. -/
def exitCompletes (i : Instr) (it : Item) : Prop :=
  ∀ s r t, Ready s r it (emptySpec it true) → exitLanes s s.cur (activeLanes s.cur r it) = some t →
    exec i s = .next (if s.cur.handler && t.cur.live = 0 then handlerExit t t.cur
      else afterStops (endClause t (advance r it) fun _ => dw (fallThrough r)) r false false)

/-! The pool (R175 to R178). -/

/-- A load of `n` bytes a lane, aligned to `align`, into `k` registers. -/
def loadCompletes (i : Instr) (it : Item) (sp : Spec) (n align : Nat) : Prop :=
  ∀ s r, Ready s r it sp →
    let act := lanesOf (activeLanes s.cur r it)
    let addr := fun l => (numOf it .a s s.cur r.arrived l + numOf it .b s s.cur r.arrived l +
      (if it.isShort then 0 else numOf it .c s s.cur r.arrived l)) % 2 ^ 32
    r.struck = false → (∀ l ∈ act, poolReadCheck s s.cur (addr l) n align = none) → goesOut s s.cur (poolCores s s.cur act addr n) = false →
    exec i s = .next (goOn
      { s with cur := metTiles s act (fun l => poolLoc s s.cur (addr l) n) n (act.foldl (fun w l =>
          let p := poolLoc s s.cur (addr l) n
          vputRegs w it.d l (regsOf n) (loadExt it.mty n (poolNat s p.1 p.2 n))) s.cur) }
      r.arrived it (dataWatch s s.cur act true true false (fun l => addr l % 2 ^ 20) n))

/-- A store of `n` bytes a lane, lanes in increasing order. -/
def storeCompletes (i : Instr) (it : Item) (sp : Spec) (n : Nat) : Prop :=
  ∀ s r, Ready s r it sp →
    let act := lanesOf (activeLanes s.cur r it)
    let addr := poolAddr s s.cur r.arrived it
    r.struck = false → (∀ l ∈ act, poolCheck s s.cur (addr l) n n true = none) → goesOut s s.cur (poolCores s s.cur act addr n) = false →
    exec i s = .next (goOn
      (onCur (act.foldl (fun t l =>
        let p := poolLoc s s.cur (addr l) n
        poolStore t p.1 p.2 (bytesOf n (vregsNat s.cur it.d l (regsOf n)))) s) (metTiles s act (fun l => poolLoc s s.cur (addr l) n) n))
      r.arrived it (dataWatch s s.cur act true false true (fun l => addr l % 2 ^ 20) n))

/-- An atomic: each pool address takes its lanes' operands in one application; `ret` returns the old values. -/
def atomCompletes (i : Instr) (it : Item) (sp : Spec) (ret : Bool) : Prop :=
  ∀ s r, Ready s r it sp →
    let n := tyBytes it.mty
    let q := r.arrived
    let act := lanesOf (activeLanes s.cur q it)
    let addr := atomAddr s s.cur q it
    r.struck = false → (∀ l ∈ act, poolReadCheck s s.cur (addr l) n n = none) → goesOut s s.cur (poolCores s s.cur act addr n) = false →
    exec i s = .next (goOn (onCur ((distinct act addr).foldl (poolGroup it ret s s.cur q act) s)
      (metTiles s act (fun l => poolLoc s s.cur (addr l) n) n)) q it
      (dataWatch s s.cur act true true true (fun l => addr l % 2 ^ 20) n))

/-! Global memory (R175, R179, R180, R183). -/

/-- STG: with room in staging the lanes' bytes are staged at their scope. -/
def stgCompletes (i : Instr) (it : Item) : Prop :=
  ∀ s r s' loc, Ready s r it
      { uses := globalUses ++ [.dstData (regsOf (stgBytes it)) (regsOf (stgBytes it))]
        bads := memBads it (if it.mb 55 then [9] else [0, 4, 1, 5, 8, 9]) true 0 1 ++ opdBad (it.m 54 52 = 7) 6 7 } →
    let n := stgBytes it
    let act := lanesOf (activeLanes s.cur r it)
    let va := globalAddr s s.cur r it true
    r.counted = false → dcFull s.cur it.dc = false →
    translateLanes s s.cur act (fun l => globalCheck (va l) n) va .write 1 true = (.ok loc, s') →
    stageRoom s' (it.m 54 52) (blocksOf loc) = true →
    let t := stgStage (it.m 54 52) n s' act loc fun l => vregsNat s.cur it.d l (regsOf n)
    exec i s = .next (goOn t r it (dataWatch t s.cur act false false true va n))

/-- ATOMG and REDG: the groups are sent to their homes, ATOMG's destinations are pending until they return. -/
def atomgCompletes (i : Instr) (it : Item) (red : Bool) : Prop :=
  ∀ s r s' loc, Ready s r it
      { uses := [.src .a (.int 64 false) accMem, .src .b (.int 32 true) accMem, .src .c (vtOf it.mty) accMem,
          if red then .dstNone else .dstData (regsOf (tyBytes it.mty)) (regsOf (tyBytes it.mty))]
        bads := atomBads it red red } →
    let n := tyBytes it.mty
    let act := lanesOf (activeLanes s.cur r it)
    let va := globalAddr s s.cur r it false
    let dst := if red then [] else (List.range (regsOf n)).map (it.d + ·)
    dcFull s.cur (if red then it.dc else 0) = false → r.watching = none →
    translateLanes s s.cur act (fun l => globalCheck (va l) n) va .write 1 true = (.ok loc, s') →
    firstLane act (atomHostBad (it.m 55 52) it.mty va loc) = none →
    let e := takeId (doom s' 0x06)
    let t := onCur (atomSend it red e.1 r.pc e.2 act va loc (atomLane s s.cur r it)) fun w =>
      { w with pend := if act.isEmpty then w.pend else w.pend ++ dst.map fun reg => ⟨lanesFrom act, 0, reg, e.1⟩ }
    exec i s = .next (watched e.1 r it (dataWatch s s.cur act false true true va n) t)

/-! GATHER and the engine commands (R183, R187 to R200). -/

/-- A command of the warp finds its tiles below 15, no command held before it that could go on, and no access of another warp on its
way to another core (R52). -/
def Room (s : State) (tiles : List (Nat × Nat)) : Prop :=
  tileFull s tiles = false ∧ heldBefore s s.cur = false ∧ transitOut s s.cur tiles = false

/-- The command that GATHER issues, before its elements are read. -/
def gatherStart (it : Item) (s : State) (r : Run) : Cmd :=
  let n := tyBytes it.mty
  let bar := operand s s.cur r it vtCount .c 0
  { newCmd s.cur r it .gather with
    bar := w32 bar, tiles := gatherTiles s s.cur n (lanesOf (activeLanes s.cur r it)) (operand s s.cur r it vtCount .b) }

/-- GATHER: its elements are read, its command is under way and holds the tiles that the destinations lie in. -/
def gatherCompletes (i : Instr) (it : Item) : Prop :=
  ∀ s r s' loc, Ready s r it
      { uses := [.src .a (.int 64 false) accMem, .src .b vtCount accMem, .src .c vtCount { accMem with v := false, uni := true },
          .dstNone]
        bads := memBads it [4, 5, 8, 9] false 55 54 } →
    let n := tyBytes it.mty
    let act := lanesOf (activeLanes s.cur r it)
    let va := operand s s.cur r it (.int 64 false) .a
    let dst := operand s s.cur r it vtCount .b
    let c := gatherStart it s r
    let bp := poolLoc s s.cur (operand s s.cur r it vtCount .c 0) 16
    act ≠ [] → r.watching = none →
    translateLanes s s.cur act (fun l => gatherPre s s.cur n (va l) (dst l) (operand s s.cur r it vtCount .c 0)) va .read 1 true =
      (.ok loc, s') →
    c.tiles.contains (bp.1, bp.2 / 1024) = false → Room s c.tiles →
    anyLocked s' (loc.filterMap (·.2.1)) = false → behindAtomic s' { c with id := s'.fresh } (loc.filterMap (·.2.1)) = false →
    missing s' s.cur.core (it.mb 52) (loc.filterMap fun e => e.2.1.map fun pa => (pa, n, e.2.2)) = [] →
    let e := gatherCmd s' c n act dst va loc
    let u := takeId e.2
    let t := takeTiles { unhold u.2 s.cur.uid with cmds := u.2.cmds ++ [{ e.1 with id := u.1 }] } c.tiles
    exec i s = .next (watched u.1 r it (dataWatch s s.cur act false true false va n) t)

/-- What the issue of an engine command does: a command of its kind is under way and holds its tiles; one that has nothing
to write gives its credits of zero bytes at once (R43, R189). -/
def Started (kind : CmdKind) (w : Warp) (r : Run) (it : Item) (t : State) : Prop :=
  ∃ (u : State) (c : Cmd), c.kind = kind ∧ c.warp = w.uid ∧ c.core = w.core ∧ c.lanes = r.grp ∧ c.insn = it.raw ∧
    ((c.units = 0 ∧ t = finish { u with credits := u.credits ++ zeroCredits u c } r it) ∨
      (∃ id, c.units ≠ 0 ∧ t = finish (takeTiles { u with cmds := u.cmds ++ [{ c with id := id }] } c.tiles) r it))

/-- A command starts where its guard holds, its counter has room and its issue steps find no fault and nothing to wait for. -/
def commandStarts (i : Instr) (it : Item) (sp : State → Warp → Item → Spec) (steps : State → Warp → Run → Item → Iss State)
    (kind : CmdKind) : Prop :=
  ∀ s r t u, Ready s r it (sp s s.cur it) → guardU s.cur it = true → dcFull s.cur it.dc = false →
    steps s s.cur r it = .ok t u → exec i s = .next t ∧ Started kind s.cur r it t

/-- Operands A, B and C of a copy with a record. -/
def copyUses : List Use := [.src .a vtCount accUni, .src .b vtCount accUni, .src .c vtCount accS]

def tcopyNeeds (s : State) (w : Warp) (it : Item) : Spec :=
  let k := if it.mb 58 then 5 else 4
  { uses := copyUses
    bads := dcBads it ++ ctlBads s w it ++ originBads it k ++ graphBads s w it false [.a, .b, .c] ++ modZero it 54 52 ++
      sRegsBad s w (originReg it + 5) (if it.mb 58 then 1 else 0) (it.code .c)
    usesLit := it.mb 60
    extra := engineRegs it k }

def tstoreNeeds (s : State) (w : Warp) (it : Item) : Spec :=
  { uses := copyUses
    bads := dcBads it ++ ctlBads s w it ++ maskBads w it ++ originBads it 4 ++ graphBads s w it true [.a, .b, .c] ++
      modZero it 54 52 ++ opdBad (it.m 58 56 = 7) 6 7
    usesLit := it.mb 60
    extra := engineRegs it 4 }

def pcopyRNeeds (s : State) (w : Warp) (it : Item) : Spec :=
  { uses := copyUses
    bads := dcBads it ++ ctlBads s w it ++ maskBads w it ++ originBads it 4 ++ modZero it 58 56 ++ modZero it 54 52
    extra := engineRegs it 4 }

def bloadNeeds (s : State) (w : Warp) (it : Item) : Spec :=
  { uses := copyUses
    bads := dcBads it ++ ctlBads s w it ++ maskBads w it ++ originBads it 4 ++ modZero it 60 60 ++ modZero it 58 56 ++
      modZero it 54 52
    extra := engineRegs it 4 }

def rowNeeds (cp : Bool) (s : State) (w : Warp) (it : Item) : Spec :=
  { uses := [.src .a (.int 64 false) accUni, if cp then .src .b (.int 64 false) accUni else .unused .b, .unused .c]
    bads := dcBads it ++ modZero it 60 52 ++ ctlBads s w it ++ maskBads w it ++ roleBads s w 4
    extra := [(1, it.d)] }

def qpostNeeds (s : State) (w : Warp) (it : Item) : Spec :=
  { uses := [.src .a vtCount accS, .src .b vtCount accS, .src .c vtCount accS]
    bads := dcBads it ++ modZero it 60 60 ++ modZero it 58 52 ++ ctlBads s w it ++ maskBads w it ++ originBads it 2 ++
      sRegsBad s w (originReg it) 3 (it.code .c) ++ roleBads s w 3
    extra := engineRegs it 2 }

def mmasNeeds (s : State) (w : Warp) (it : Item) : Spec :=
  let k := if (mmaLit it).testBit 17 then 5 else 4
  { uses := [.src .a vtCount accS, .src .b vtCount { v := false, latch := false, lit := false, sr := false, uni := true },
      .src .c vtCount accS]
    usesLit := true
    bads := dcBads it ++ ctlBads s w it ++ maskBads w it ++ originBads it k ++ mmasBads w it ++
      sRegsBad s w (originReg it) (if mmasMx (mmaLit it) then 5 else 4) (it.code .c) ++
      sRegsBad s w (originReg it + 5) (k - 4) (it.code .c)
    extra := engineRegs it k }

def chrunTileNeeds (s : State) (w : Warp) (it : Item) : Spec :=
  let n := chNin (chrChain s w it)
  { uses := [.unused .a, .unused .b, .unused .c]
    usesLit := true
    bads := chrBads s w it ++ modZero it 53 52 ++ encBad (it.m 55 54 = 3) 9 54 ++
      (chrBeyond s w it ([0, 1, 2] : List Nat)).flatMap
        (fun i => encBad (bitsN (mmaLit it) (16 + 3 * i) (14 + 3 * i) ≠ 0) 9 (14 + 3 * i)) ++
      ctlBads s w it ++ maskBads w it ++ (chrIters it n).flatMap fun i => opdBad ((nget none w.iter i).isNone) 12 i
    extra := (1, it.d) :: chrRegs it }

/-- The 64-byte record at `a`, in the pool or in the parameter window, can be read and has these words (R185). -/
def RecordAt (s : State) (prm : Bool) (a : Nat) (ws : List DWord) : Prop :=
  if prm then a % 64 = 0 ∧ a + 64 ≤ ((ctxOf s s.cur).map (·.psize)).getD 0 ∧ ws = wordsOf (windowBytes s s.cur a 64) 8
  else
    poolReadCheck s s.cur a 64 64 = none ∧
      ws = wordsOf (poolBytes s (poolLoc s s.cur a 64).1 (poolLoc s s.cur a 64).2 64) 8

/-- A well-formed tensor record stands at `a` (Table 9.5, Table 20.6). -/
def TensorAt (s : State) (prm global pool rb : Bool) (a : Nat) (t : Tensor) : Prop :=
  ∃ ws, RecordAt s prm a ws ∧ tensorBads ws global pool rb = [] ∧ t = parseTensor ws

/-- The s registers of the box's origin, one for each axis of the record, are declared (R188, Table 20.4). -/
def OriginAt (s : State) (it : Item) (t : Tensor) : Prop := sRegsBad s s.cur (originReg it) t.rank (it.code .c) = []

/-- A command is under way and holds its tiles; one that has nothing to write has given its credits of zero bytes (R43, R52, R189). -/
def underWay (w : Warp) (s : State) (r : Run) (it : Item) (c : Cmd) (note : State → State) : State :=
  let u := note (unhold s w.uid)
  if c.units = 0 then finish { u with credits := u.credits ++ zeroCredits u c } r it
  else
    let e := takeId u
    finish (takeTiles { e.2 with cmds := e.2.cmds ++
      [{ c with id := e.1, floor := w.seen, saving := (clusterOf u w).any fun k => k.saving.isSome }] } c.tiles) r it

/-- A command under the format, geometry and codebook number of a page. -/
def underPage (c : Cmd) (f : PageFmt) : Cmd := { c with fmt := f.fmt, geo := f.geo }

/-- TCOPY: with a well-formed record, its format fixed, addresses aligned, destinations inside their members, its command starts
(R189, R193). -/
def tcopyCompletes (i : Instr) (it : Item) : Prop :=
  ∀ s r t its tab f u e' u2,
    let a := uniVal s s.cur r it .a
    let b := uniVal s s.cur r it .b
    let ctl := sget s.cur it.d
    let bar := barOffset it ctl t
    let mems := destMembers ctl (w32 a)
    let high := bitsN a 31 24 * 2 ^ 24
    let off := bitsN a 19 0
    Ready s r it (tcopyNeeds s s.cur it) → guardU s.cur it = true → dcFull s.cur it.dc = false →
    TensorAt s (it.mb 59) true false (it.mb 55) b t → OriginAt s it t → a % 16 = 0 → bar % 16 = 0 →
    ctlMask ctl / 2 ^ ((clusterOf s s.cur).map (·.cores.length)).getD 0 = 0 →
    let c : Cmd := { newCmd s.cur r it .tcopy with
      ctl := ctl, a := w32 a, b := w32 b, tens := some t, org := originOf s.cur it t.rank, fmt := t.fmt, geo := t.geo,
      vc := if it.mb 58 then (sget s.cur (it.code .c - 0x100 + 5)).toNat % 2 ^ 16 else s.cur.vcnt.toNat % 2 ^ 16
      graph := graphOf s s.cur it, bar := w32 bar }
    tableIssue s s.cur r it c = .ok (its, tab) s → fixFormat s s.cur r it { c with iters := its } { c with iters := its }.live = .ok f u →
    let k := underPage { c with iters := its } f
    graphBad k = none → boxBad k k.live = none →
    (∀ m ∈ mems, packBad u s.cur k (high + onMember m 0) off = none) →
    sharedBytes tab (mems.filterMap fun m => rawRange u s.cur (high + onMember m 0) off k.packed) = [] →
    (∀ m ∈ mems, barBad u s.cur m bar
      (mems.flatMap (fun m => rawTiles u s.cur (high + onMember m 0) off k.packed) ++ rangeTiles tab) = none) →
    boxLogged s.cur k k.live = false →
    let e : Cmd := { k with
      tiles := (mems.flatMap (fun m => packTiles u s.cur k (high + onMember m 0) off) ++ rangeTiles tab).eraseDups
      units := mems.length * k.chunks.length }
    Room u e.tiles → graphBooks r it f.cbi e u = .ok e' u2 → exec i s = .next (underWay u.cur u2 r it e' id)

/-- TSTORE: its command starts, the staged entries that its destination overlaps are raised, an open transaction is doomed
(R71, R189, R194, R250). -/
def tstoreCompletes (i : Instr) (it : Item) : Prop :=
  ∀ s r t f u e' u2,
    let a := uniVal s s.cur r it .a
    let b := uniVal s s.cur r it .b
    let ctl := sget s.cur it.d
    let bar := barOffset it ctl t
    let off := bitsN a 19 0
    Ready s r it (tstoreNeeds s s.cur it) → guardU s.cur it = true → dcFull s.cur it.dc = false →
    TensorAt s (it.mb 59) true false (it.mb 55) b t → OriginAt s it t → a % 16 = 0 → bar % 16 = 0 →
    let c : Cmd := { newCmd s.cur r it .tstore with
      ctl := ctl, a := w32 a, b := w32 b, tens := some t, org := originOf s.cur it t.rank, fmt := t.fmt, geo := t.geo,
      scope := it.m 58 56, graph := graphOf s s.cur it, bar := w32 bar, vc := 0x10000 }
    fixFormat s s.cur r it c c.live = .ok f u →
    let k := underPage c f
    graphBad k = none → boxBad k k.live = none → packBad u s.cur k (a - off) off = none →
    barBad u s.cur 14 bar (rawTiles u s.cur a 0 k.packed) = none → boxLogged s.cur k k.live = false →
    let e : Cmd := { k with tiles := packTiles u s.cur k (a - off) off, units := k.chunks.length }
    Room u e.tiles → graphBooks r it 0 e u = .ok e' u2 →
    exec i s = .next (underWay u.cur u2 r it e' fun s' => publishSpans (doom s' 0x06) s.cur e')

/-- Plain PCOPY: with aligned addresses and ranges inside the cluster's pool its command starts, over the tiles of both
ranges, one unit for each destination tile (R195). -/
def pcopyCompletes (i : Instr) (it : Item) : Prop :=
  ∀ s r,
    let a := uniVal s s.cur r it .a
    let b := uniVal s s.cur r it .b
    let n := uniVal s s.cur r it .c
    let bar := ctlBar (sget s.cur it.d)
    Ready s r it
      { uses := [.src .a vtCount accUni, .src .b vtCount accUni, .src .c vtCount accUni]
        bads := dcBads it ++ ctlBads s s.cur it ++ maskBads s.cur it ++ modZero it 60 60 ++ modZero it 58 56 ++ modZero it 54 52 ++
          opdBad (it.mb 55) 6 1 ++ opdBad (n % 16 ≠ 0 || n < 16 || 0x80000 < n) 8 n
        extra := [(1, it.d)] } →
    guardU s.cur it = true → dcFull s.cur it.dc = false → a % 16 = 0 → b % 16 = 0 → bar % 16 = 0 →
    spanBad s s.cur a 0 n = none → spanBad s s.cur b 0 n = none →
    barBad s s.cur (bitsN a 23 20) bar (rawTiles s s.cur a 0 n ++ rawTiles s s.cur b 0 n) = none →
    let c : Cmd := { newCmd s.cur r it .pcopy with ctl := sget s.cur it.d, a := w32 a, b := w32 b, len := n, bar := w32 bar }
    let e : Cmd := { c with tiles := copyTiles s s.cur c (rawTiles s s.cur b 0 n), units := c.chunks.length }
    Room s e.tiles → exec i s = .next (underWay s.cur s r it e id)

/-- PCOPY.r: with the record's box and the destination inside the cluster's pool and apart its command starts (R195, R361). -/
def pcopyRCompletes (i : Instr) (it : Item) : Prop :=
  ∀ s r t f u,
    let a := uniVal s s.cur r it .a
    let b := uniVal s s.cur r it .b
    let ctl := sget s.cur it.d
    let bar := barOffset it ctl t
    let off := bitsN a 19 0
    Ready s r it (pcopyRNeeds s s.cur it) → guardU s.cur it = true → dcFull s.cur it.dc = false →
    TensorAt s (it.mb 59) false true (it.mb 55) b t → OriginAt s it t → a % 16 = 0 → bar % 16 = 0 →
    let c : Cmd := { newCmd s.cur r it .pcopyR with
      ctl := ctl, a := w32 a, b := w32 b, tens := some t, org := originOf s.cur it t.rank, fmt := t.fmt, geo := t.geo
      bar := w32 bar, vc := 0x10000 }
    fixFormat s s.cur r it c c.live = .ok f u →
    let k := underPage c f
    graphBad k = none → boxBad k k.live = none → packBad u s.cur k (a - off) off = none → boxSpanBad u s.cur k = none →
    sharedBytes (k.fullRanges u s.cur) (rawRange u s.cur a 0 k.packed).toList = [] →
    barBad u s.cur (bitsN a 23 20) bar (rawTiles u s.cur a 0 k.packed ++ rangeTiles (k.fullRanges u s.cur)) = none →
    let e : Cmd := { k with tiles := copyTiles u s.cur k (boxTiles u s.cur k), units := k.chunks.length }
    Room u e.tiles → exec i s = .next (underWay u.cur u r it e id)

/-- BLOAD: with its columns and offsets inside the block's range its command starts; a CB4 matrix sets the array codebook register
(R196, R206). -/
def bloadCompletes (i : Instr) (it : Item) : Prop :=
  ∀ s r t f u e' u1,
    let a := uniVal s s.cur r it .a
    let b := uniVal s s.cur r it .b
    let ctl := sget s.cur it.d
    let bar := barOffset it ctl t
    Ready s r it (bloadNeeds s s.cur it) → guardU s.cur it = true → dcFull s.cur it.dc = false →
    TensorAt s (it.mb 59) true true (it.mb 55) b t → OriginAt s it t → a % 16 = 0 → bar % 16 = 0 →
    let c : Cmd := { newCmd s.cur r it .bload with
      ctl := ctl, a := w32 a, b := w32 b, tens := some t, org := originOf s.cur it t.rank, fmt := t.fmt, geo := t.geo
      bar := w32 bar, vc := 0x10000 }
    fixFormat s s.cur r it c c.live = .ok f u →
    let k := underPage c f
    let tiles := if t.space then boxTiles u s.cur k else []
    graphBad k = none → boxBad k k.live = none →
    columnBad u s.cur a (bitsN a 21 16) (t.dims.getD 1 1) (a % 65536) k.columnBytes = none →
    (t.space = true → boxSpanBad u s.cur k = none) →
    barBad u s.cur 14 bar (if t.space then rangeTiles (k.fullRanges u s.cur) else []) = none → boxLogged s.cur k k.live = false →
    let e : Cmd := { k with tiles := tiles, units := k.chunks.length }
    Room u e.tiles → columnBooks r it f.cbi e u = .ok e' u1 →
    exec i s = .next (underWay u.cur u1 r it e' fun s' => if e'.fmt = 12 then setBlockCodebook s' s'.cur (e'.book f.cbi) else s')

/-- ROWZF and ROWCP: with frames that are canonical, 64 KiB-aligned, usable and apart the command starts, and the staged entries
that lie in frames that are there are raised (R71, R252, R253). -/
def rowCompletes (cp : Bool) (i : Instr) (it : Item) : Prop :=
  ∀ s r pa u pb u1,
    let a := operand s s.cur r it (.int 64 false) .a 0
    let b := operand s s.cur r it (.int 64 false) .b 0
    let ctl := sget s.cur it.d
    let raise := fun (s' : State) (p : Option Nat) => (p.map fun p => raiseOverlap s' s.cur.core p 65536).getD s'
    Ready s r it (rowNeeds cp s s.cur it) → guardU s.cur it = true → dcFull s.cur it.dc = false →
    framesBad (if cp then [a, b] else [a]) = none → ctlBar ctl % 16 = 0 →
    frameAt s s.cur r it a .write = .ok pa u → (if cp then frameAt u s.cur r it b .read else .ok none u) = .ok pb u1 →
    (cp = true → a ≠ b ∧ (pa.isSome = true → pa ≠ pb)) → barBad u1 s.cur 14 (ctlBar ctl) [] = none →
    pageLogged s.cur a = false → (cp = true → pageLogged s.cur b = false) →
    let e : Cmd := { newCmd s.cur r it (if cp then .rowcp else .rowzf) with
      ctl := ctl, bar := w32 (ctlBar ctl), kv := [dw a, dw b], units := 1 }
    Room u1 [] → exec i s = .next (underWay u1.cur u1 r it e fun s' => raise (raise s' pa) pb)

/-- QPOST: with a well-formed segment record, a window inside it of at most 16 frames, query and results inside the pool and apart,
and frames that a query may read, its command starts with the query sampled (R266, R267, R268). -/
def qpostCompletes (i : Instr) (it : Item) : Prop :=
  ∀ s r ws u l u1,
    let a := uniVal s s.cur r it .a
    let b := uniVal s s.cur r it .b
    let n := it.code .c - 0x100
    let rec_ := (sget s.cur n).toNat
    let first := (sget s.cur (n + 1)).toNat
    let len := (sget s.cur (n + 2)).toNat
    let ctl := sget s.cur it.d
    let bar := ctlBar ctl
    let hd := kvHd ws
    let frames := kvFrames ws first len
    let size := 16 * frames * tripleBytes hd
    let pb := spanLoc s s.cur b 0 (4 * hd)
    let pa := spanLoc s s.cur a 0 size
    let tiles := (rawTiles s s.cur b 0 (4 * hd) ++ rawTiles s s.cur a 0 size).eraseDups
    Ready s r it (qpostNeeds s s.cur it) → guardU s.cur it = true → dcFull s.cur it.dc = false →
    RecordAt s (it.mb 59) rec_ ws → kvBad ws = none → len ≠ 0 → first + len ≤ kvTok ws → frames ≤ 16 →
    a % 16 = 0 → b % 16 = 0 → bar % 16 = 0 → spanBad s s.cur b 0 (4 * hd) = none → spanBad s s.cur a 0 size = none →
    sharedBytes [(pb.1, pb.2, 4 * hd)] [(pa.1, pa.2, size)] = [] → barBad s s.cur (bitsN a 23 20) bar tiles = none →
    windowFrames s s.cur r it ws first (List.range frames) = .ok () u →
    poolPoisoned u pb.1 pb.2 (4 * hd) = false → (∀ i < frames, pageLogged s.cur (kvFrameVa ws first i) = false) →
    let e : Cmd := { newCmd s.cur r it .qpost with
      ctl := ctl, a := w32 a, b := w32 b, bar := w32 bar, kv := ws, first := first, ntok := len
      query := (List.range hd).map fun d => w32 (poolNat u pb.1 (pb.2 + 4 * d) 4), tiles := tiles, units := 16 * frames }
    Room u tiles → readBooks u u.cur r it (if kvFmt ws = 12 then [kvCbi ws] else []) = .ok l u1 →
    exec i s = .next (underWay u.cur u1 r it { e with books := l } fun s' => (List.range frames).foldl (fun s' i =>
      match (translate s' (coreShelf s.cur.core) (tenantOf s' s.cur) (kvFrameVa ws first i) .read 1).1 with
      | .ok pa _ => raiseOverlap s' s.cur.core pa 65536
      | _ => s') s')

/-- MMAS: with its rows, scales and columns inside the pool and the block's range its command starts (R218, R219, R220). -/
def mmasCompletes (i : Instr) (it : Item) : Prop :=
  ∀ s r,
    let lit := mmaLit it
    let a := uniVal s s.cur r it .a
    let n := it.code .c - 0x100
    let ctl := sget s.cur it.d
    let bar := ctlBar ctl
    let at_ := (bitsN (uniVal s s.cur r it .b) 21 16, bitsN (uniVal s s.cur r it .b) 15 0)
    let c : Cmd := { newCmd s.cur r it .mmas with
      ctl := ctl, a := w32 a, b := w32 (at_.1 * 65536 + at_.2), desc := (List.range 5).map (fun j => sget s.cur (n + j))
      vc := if lit.testBit 17 then (sget s.cur (n + 5)).toNat % 2 ^ 16 else s.cur.vcnt.toNat % 2 ^ 16
      bar := w32 bar }
    let p := c.sweep
    let ra := rowsAt s s.cur a (c.aSpans p.rows)
    let rd := rowsAt s s.cur p.d (c.dSpans p.rows)
    let rs := rowsAt s s.cur p.asc (c.scSpans p.rows)
    let tiles := fun rows =>
      (rowsTiles s s.cur a (c.aSpans rows) ++ rowsTiles s s.cur p.d (c.dSpans rows) ++ rowsTiles s s.cur p.asc (c.scSpans rows)).eraseDups
    Ready s r it (mmasNeeds s s.cur it) → guardU s.cur it = true → dcFull s.cur it.dc = false →
    a % 16 = 0 → at_.2 % 16 = 0 → p.d % 16 = 0 → (mmasMx lit = true → p.asc % 16 = 0) → bar % 16 = 0 →
    rowsBad s s.cur a (c.aSpans c.liveRows) = none → rowsBad s s.cur p.d (c.dSpans c.liveRows) = none →
    rowsBad s s.cur p.asc (c.scSpans c.liveRows) = none → groupsBad s s.cur lit at_.1 at_.2 p = none →
    sharedBytes ra rd = [] → sharedBytes ra rs = [] → sharedBytes rd rs = [] → barBad s s.cur 14 bar (tiles p.rows) = none →
    (mmasTb lit = 0x13 → ((blockOf s s.cur).bind (·.cb)).isSome = true) →
    let e : Cmd := { c with tiles := tiles c.liveRows, units := (p.rows + 31) / 32 * mmasG lit }
    Room s e.tiles → exec i s = .next (underWay s.cur s r it e id)

/-- CHRUN.tile: with a destination in the pool, inputs of its shape or broadcast, formats fixed and ranges inside the pool and apart
its command starts; under .rs the issuing thread's counter advances (R101, R228, R230). -/
def chrunTileCompletes (i : Instr) (it : Item) : Prop :=
  ∀ s r d xs l u e' u1,
    let ch := chrChain s s.cur it
    let thread := lowLane r.grp
    let ctl := sget s.cur it.d
    let bar := ctlBar ctl
    let iters := d :: xs
    let is := List.range iters.length
    let c : Cmd := { newCmd s.cur r it .chrun with
      ctl := ctl, bar := w32 bar, iters := iters, chain := ch, params := chrParams s.cur it, vc := chrCount s.cur it
      gpos := gridPos s s.cur thread, rctr := nget 0 s.cur.rctr thread, rseed := s.cur.rseed
      kv := iters.map fun i => dw (i.tens.fmt + 16 * i.tens.geo) }
    Ready s r it (chrunTileNeeds s s.cur it) → guardU s.cur it = true → dcFull s.cur it.dc = false →
    (chrIters it (chNin ch)).filterMap (fun n => nget none s.cur.iter n) = iters → d.tens.space = true →
    (∀ x ∈ xs, ∀ e ∈ d.tens.dims.zip x.tens.dims, e.2 = e.1 ∨ e.2 = 1) → bar % 16 = 0 →
    fixSides s s.cur r it c (chOfmt ch) is = .ok l u →
    let k : Cmd := { c with kv := l.map fun (e : DWord × Nat) => e.1 }
    let live := k.rowsPos k.rowsLive
    (∀ i ∈ is, k.sideBad u s.cur i live = none) →
    (∀ i ∈ is, ∀ x, iters[i]? = some x → i = 0 ∨ x.tens.space = false ∨ inPlace d x = true ∨
      sharedBytes ((k.side i).fullRanges u s.cur) ((k.side 0).fullRanges u s.cur) = []) →
    barBad u s.cur 14 bar (rangeTiles (is.flatMap fun i => if (k.side i).tensor.space then (k.side i).fullRanges u s.cur else [])) = none →
    (∀ i ∈ is, boxLogged s.cur (k.side i) (k.sidePos i live) = false) →
    let e : Cmd := { k with tiles := (is.flatMap fun i => k.sideTiles u i (k.rowsPos k.rowsLive)).eraseDups, units := k.rowCount }
    Room u e.tiles → sideBooks r it (l.map fun (e : DWord × Nat) => e.2) live e u = .ok e' u1 →
    exec i s = .next (underWay u.cur u1 r it e' fun s' => if chOrnd ch = 4 then onCur s' fun w => bumpRctr w (1#32 <<< thread) else s')

/-- PREFT: the lines of its box that translate are filled at their homes (R198). -/
def preftCompletes (i : Instr) (it : Item) : Prop :=
  ∀ s r t f,
    let b := uniVal s s.cur r it .b
    Ready s r it
      { uses := [.unused .a, .src .b vtCount accUni, .src .c vtCount accS, .dstNone]
        bads := dcBads it ++ originBads it 4 ++ modZero it 60 60 ++ modZero it 58 52
        extra := engineRegs it 4 } →
    guardU s.cur it = true → dcFull s.cur it.dc = false → TensorAt s (it.mb 59) true false false b t → OriginAt s it t →
    let c : Cmd := { newCmd s.cur r it .preft with
      b := w32 b, tens := some t, org := originOf s.cur it t.rank, fmt := t.fmt, geo := t.geo, vc := 0x10000 }
    preftFormat s s.cur c = .ok f →
    let k := underPage c f
    boxBad k k.live = none → boxLogged s.cur k k.live = false → exec i s = .next (finish (prefetch s s.cur k) r it)

/-- TOWN: bit 0 says that an engine command holds the tile, bits 7 to 4 give the count (R199). -/
def townCompletes (i : Instr) (it : Item) : Prop :=
  ∀ s r, Ready s r it { uses := [.src .a vtCount accMem, .unused .b, .unused .c, .dstData 1 1], bads := modZero it 63 52 } →
    let q := r.arrived
    let act := lanesOf (activeLanes s.cur q it)
    let addr := fun l => operand s s.cur q it vtCount .a l
    (∀ l ∈ act, poolCheck s s.cur (addr l) 1 1 false = none) → goesOut s s.cur (poolCores s s.cur act addr 1) = false →
    let count := fun l => let p := poolLoc s s.cur (addr l) 1; tileCount s p.1 (p.2 / 1024)
    exec i s = .next (goOn
      { s with cur := act.foldl (fun w l => vset w it.d l (w32 ((if count l = 0 then 0 else 1) + count l % 16 * 16))) s.cur } q it
      (dataWatch s s.cur act true true false (fun l => addr l % 2 ^ 20) 1))

/-- QMERGE: the merged triple stands at A (R272, R273). -/
def qmergeCompletes (i : Instr) (it : Item) : Prop :=
  ∀ s r,
    let q := r.arrived
    let a := uniVal s s.cur q it .a
    let b := uniVal s s.cur q it .b
    let n := uniVal s s.cur q it .c
    let hd := 16 * 2 ^ it.m 54 52
    let len := n * tripleBytes hd
    Ready s r it
      { uses := [.src .a vtCount accS, .src .b vtCount accS, .src .c vtCount { v := false, latch := false, sr := false, uni := true },
          .dstNone]
        bads := modZero it 63 56 ++ opdBad (4 < it.m 54 52) 6 (it.m 54 52) ++ opdBad (n = 0 || 256 < n) 8 n } →
    guardU s.cur it = true → a % 16 = 0 → b % 16 = 0 →
    spanBad s s.cur b 0 len = none → spanBad s s.cur a 0 (tripleBytes hd) = none →
    let src := spanLoc s s.cur b 0 len
    let dst := spanLoc s s.cur a 0 (tripleBytes hd)
    ownedTile s src.1 src.2 len = none → ownedTile s dst.1 dst.2 (tripleBytes hd) = none →
    goesOut s s.cur [src.1, dst.1] = false → poolPoisoned s src.1 src.2 len = false →
    let v := poolStore s dst.1 dst.2 (tripleImage
      (mergeTriples hd (it.mb 55) ((List.range n).map fun j => readTriple s src.1 (src.2 + j * tripleBytes hd) hd)) 0 0)
    exec i s = .next (finish (onCur v (metTiles v [lowLane r.grp] (fun _ => src) len)) q it)

/-! Matrix and chain (R209 to R214, R226 to R229). -/

/-- KSET of a register that is not open (R209). -/
def ksetCompletes (i : Instr) (it : Item) : Prop :=
  ∀ s r b, Ready s r it { uses := [.src .a vtCount accNum, .unused .b, .unused .c], bads := modZero it 63 52 ++ encBad (16 ≤ it.d) 5 12 } →
    blockOf s s.cur = some b → guardU s.cur it = true → ((convOf b (it.d % 16)).v && (convOf b (it.d % 16)).isOpen) = false →
    exec i s = .next (finish (convPut s b (it.d % 16)
      { v := true, warp := s.cur.wid, set := w32 (uniVal s s.cur r it .a) &&& s.cur.live }) r it)

/-- Requirements of SIGN. -/
def signNeeds (it : Item) : Spec :=
  { uses := [.unused .a, .unused .b, .unused .c], bads := modZero it 63 53 ++ encBad (16 ≤ it.d) 5 12 }

/-- SIGN of the warp that a valid register names: its active lanes of SET that have not arrived sign (R210). -/
def signCompletes (i : Instr) (it : Item) : Prop :=
  ∀ s r b, Ready s r it (signNeeds it) →
    let k := convOf b (it.d % 16)
    let act := activeLanes s.cur r it
    let ls := act &&& k.set &&& ~~~ k.arrived
    blockOf s s.cur = some b → act ≠ 0 → k.v = true → k.warp = s.cur.wid →
    (it.mb 52 = false →
      exec i s = .next (finish (convPut s b (it.d % 16) { k with signed := k.signed ||| ls, dropped := k.dropped &&& ~~~ ls }) r it)) ∧
    (∀ t, it.mb 52 = true →
      checkRound (convPut s b (it.d % 16) { k with dropped := k.dropped ||| ls, signed := k.signed &&& ~~~ ls })
        s.cur.ctx s.cur.clu s.cur.bid (it.d % 16) none = some t →
      exec i s = .next (finish t r it))

/-- MMA: an open transaction is doomed; the group's lanes arrive and park at it, which is kept for the round; then CheckRound (R214,
R215, R250). -/
def mmaCompletes (i : Instr) (it : Item) : Prop :=
  ∀ s r b t, Ready s r it
      { uses := mmaUses it
        usesLit := true
        bads := mmaBads s.cur it } →
    let n := mmaKreg it
    let k := convOf b n
    blockOf s s.cur = some b → dcFull s.cur it.dc = false → mmaLimits s s.cur it = none →
    k.v = true → k.warp = s.cur.wid → r.grp &&& ~~~ (k.set &&& k.signed) = 0 → (∀ l ∈ lanesOf r.grp, l < mmaM it) →
    (k.mpc = 0 ∨ k.mpc = r.pc.toNat) →
    checkRound
      (parkLanes (convPut (doom s 0x05)
        { b with ecls := nset 0 b.ecls n (fld r.hdr 25 23), mma := nset none b.mma n (some ⟨r.pc.toNat, it.raw, it.f.lit,
          (if k.arrived = 0 then [] else ((nget none b.mma n).map (·.runs)).getD []) ++ [r]⟩) } n
        { k with mpc := r.pc.toNat, arrived := k.arrived ||| r.grp }) r.grp
        fun _ => { wait := .array n, ft := dw (fallThrough r), dst := 0, scope := 0 })
      s.cur.ctx s.cur.clu s.cur.bid n (some it) = some t →
    exec i s = .next (afterStops
      (endClause t r fun l => if (nget none t.cur.park l).isSome then r.pc else dw (fallThrough r)) r false false)

/-- CHLD: the slot holds the chain of the kernel that A numbers (R226). -/
def chldCompletes (i : Instr) (it : Item) : Prop :=
  ∀ s r b, Ready s r it
      { uses := [.src .a vtCount accNum, .unused .b, .unused .c]
        bads := modZero it 63 52 ++ encBad (8 ≤ it.d) 5 12 ++ opdBad (chn s s.cur ≤ it.d) 12 it.d ++
          opdBad (chn s s.cur ≤ uniVal s s.cur r it .a) 12 (uniVal s s.cur r it .a) } →
    blockOf s s.cur = some b → guardU s.cur it = true → slotBusy s s.cur it.d = false →
    let ch := (ctxOf s s.cur).bind fun c => c.chains[uniVal s s.cur r it .a]?
    exec i s = .next (finish (putBlock s { b with chains := nset none b.chains it.d (some (ch.getD [])) }) r it)

/-- ITSET: the iterator holds the record at B and the origin that C names (R227). -/
def itsetCompletes (i : Instr) (it : Item) : Prop :=
  ∀ s r t, Ready s r it
      { uses := [.unused .a, .src .b vtCount accUni, .src .c vtCount accS]
        bads := modZero it 63 60 ++ modZero it 58 52 ++ encBad (8 ≤ it.d) 5 12 ++ originBads it 4
        extra := (engineRegs it 4).drop 1 } →
    guardU s.cur it = true → TensorAt s (it.mb 59) true true false (uniVal s s.cur r it .b) t → OriginAt s it t →
    exec i s = .next (finish { s with cur := { s.cur with iter := nset none s.cur.iter it.d (some
      { tens := t, org := originOf s.cur it t.rank, addr := uniVal s s.cur r it .b, asp := if it.mb 59 then 0 else 2 }) } } r it)

/-- CHRUN on registers: each active lane below the valid count takes the chain's result (R228, R229). -/
def chrunCompletes (i : Instr) (it : Item) : Prop :=
  ∀ s r t,
    let ch := chrChain s s.cur it
    let ins := chrIns.take (chNin ch)
    Ready s r it
      { uses := ins.map (fun x => .src x (.flt f32) { lit := false, sr := false }) ++ [.dstData 1 1]
        usesLit := true
        bads := chrBads s s.cur it ++ modZero it 55 52 ++ encBad (bitsN (mmaLit it) 22 8 ≠ 0) 7 8 ++
          ((chrBeyond s s.cur it chrIns).flatMap fun x => encBad (it.code x ≠ 0) 9 (fldLow it x)) ++
          opdBad (ch ≠ [] && chOfmt ch ≠ 2) 5 (chOfmt ch)
        extra := chrRegs it } →
    dcFull s.cur it.dc = false → charge s s.cur.ctx (energyClass s s.cur.ctx (fld r.hdr 25 23) + 1) = some t →
    let lanes := (lanesOf (activeLanes s.cur r it)).filter fun l => decide (l < chrCount s.cur it)
    let w := lanes.foldl (fun w l => vset w it.d l (w32 (chainRun ch (ins.map fun x => operand s s.cur r it (.flt f32) x l)
      ((chrParams s.cur it).map (·.toNat)) (laneRandom s s.cur l 0)))) s.cur
    exec i s = .next (finish { t with cur := if chOrnd ch = 4 then bumpRctr w (lanesFrom lanes) else w } r it)

/-! Barriers, fences, waits, transactions (R234 to R251). -/

/-- Objects that an access may go to at once: every lane's object passes the checks of R176, is initialised, and its pool is the
core's own, no earlier access of the core being on its way there (R50). -/
def ObjectsUsable (s : State) (lanes : List Nat) (addr : Nat → Nat) : Prop :=
  (∀ l ∈ lanes, poolReadCheck s s.cur (addr l) 16 16 = none ∧
    barV (barRead s (poolLoc s s.cur (addr l) 16).1 (poolLoc s s.cur (addr l) 16).2).1 = true) ∧
  goesOut s s.cur (poolCores s s.cur lanes addr 16) = false

/-- The lanes observe what engine commands released with the tiles of the objects that they name (Table 4.4). -/
def atObjects (s : State) (w : Warp) (lanes : List Nat) (addr : Nat → Nat) : State :=
  onCur s (metTiles s lanes (fun l => poolLoc s w (addr l) 16) 16)

/-- The run as an access performs. -/
def settled (r : Run) : Run := { r.arrived with bnd := none, released := false }

/-- BINIT: the object holds phase 0, EXPA arrivals, V and its scope, no bytes (R237). -/
def binitCompletes (i : Instr) (it : Item) : Prop :=
  ∀ s r,
    let a := operand s s.cur r it vtCount .a 0
    let b := operand s s.cur r it vtCount .b 0
    Ready s r it
      { uses := barUses accSync (.src .b vtCount accSync) .dstNone
        bads := modOutside it 54 52 ++ opdBad (it.m 54 52 < 2 || it.m 54 52 = 7) 6 (it.m 54 52) ++ opdBad (b = 0 || 16383 < b) 8 b } →
    let p := poolLoc s s.cur a 16
    guardU s.cur it = true → poolCheck s s.cur a 16 16 true = none → goesOut s s.cur [p.1] = false →
    exec i s = .next (finish (barWrite { s with barSigs := s.barSigs.filter fun e => e.1 / 65536 != poolKey p.1 p.2 } p.1 p.2
      (dw (b * 2 ^ 34 + 16 + it.m 54 52)) 0) r.arrived it)

/-- EXPECT: EXPB rises by b, then FlipCheck (R239). -/
def expectCompletes (i : Instr) (it : Item) : Prop :=
  ∀ s r, Ready s r it { uses := barUses accSync (.src .b vtCount accSync) .dstNone, bads := modNone it } →
    let a := operand s s.cur r it vtCount .a 0
    let b := operand s s.cur r it vtCount .b 0
    guardU s.cur it = true → r.transit = false → ObjectsUsable s [lowLane r.grp] (fun _ => a) →
    let p := poolLoc s s.cur a 16
    let o := barRead s p.1 p.2
    exec i s = .next (finish (flipCheck (barWrite (atObjects s s.cur [lowLane r.grp] fun _ => a) p.1 p.2 o.1 (putFld o.2 63 32 (barExpb o.2 + b))) s.cur.key p.1 p.2) r it)

/-- ARRIVE where no stage must be released first and no object overflows: each object that the lanes name takes its
arrivals, the lanes their tokens, then FlipCheck (R238). -/
def arriveCompletes (i : Instr) (it : Item) : Prop :=
  ∀ s r, Ready s r it
      { uses := barUses (if it.mb 55 then accSync else accAny) (.unused .b) (if it.mb 56 then .dstNone else .dstV 1)
        bads := encBad (it.m 63 57 ≠ 0) 7 57 ++ encBad (it.mb 54) 7 54 ++ opdBad (it.m 53 52 = 3) 6 3 } →
    let act := lanesOf (activeLanes s.cur r it)
    let addr := operand s s.cur r it vtCount .a
    let loc := fun l => poolLoc s s.cur (addr l) 16
    act ≠ [] → r.transit = false → ObjectsUsable s act addr → Clear s r (objScopes s (act.map loc)) →
    (∀ l ∈ act, arriveBad (it.m 53 52) (arriveCount it act loc (loc l)) (barRead s (loc l).1 (loc l).2).1 = none) →
    exec i s = .next (finish (((act.map loc).eraseDups).foldl (arriveAt it s.cur.key act loc)
      (atObjects (past s r (objScopes s (act.map loc))) s.cur act addr)) r it)

/-- WAITP: an open transaction is doomed; lanes whose token is complete or invalid return their status and acquire what the phase's
arrivals and credits released, the others park (R240, R250). -/
def waitpCompletes (i : Instr) (it : Item) : Prop :=
  ∀ s r, Ready s r it { uses := barUses accAny (.src .b vtCount accAny) (.dstV 1), bads := modNone it } →
    let act := lanesOf (activeLanes s.cur r it)
    let addr := operand s s.cur r it vtCount .a
    let tok := fun l => operand s s.cur r it vtCount .b l % 2 ^ 16
    let obj := fun l => (barRead s (poolLoc s s.cur (addr l) 16).1 (poolLoc s s.cur (addr l) 16).2).1
    let st := fun l => waitStatus (barPhase (obj l)) (tok l)
    let scs := objScopes s (act.map fun l => poolLoc s s.cur (addr l) 16)
    act ≠ [] → r.transit = false → ObjectsUsable s act addr → Clear (doom s 0x05) r scs →
    let back := act.filter fun l => (st l).isSome
    let rest := lanesFrom (act.filter fun l => (st l).isNone)
    let gs := fun l => phaseSigs s (poolLoc s s.cur (addr l) 16).1 (poolLoc s s.cur (addr l) 16).2 (tok l)
    let t := onCur (atObjects (past (doom s 0x05) r scs) s.cur act addr) fun w =>
      back.foldl (fun w l => acquireAt (barScope (obj l)) false (gs l) (1#32 <<< l) (vset w it.d l (w32 ((st l).getD 0)))) w
    exec i s = .next (endWait (parkLanes t rest fun l =>
      { wait := .token (w32 (addr l)) (BitVec.ofNat 16 (tok l)), ft := dw (fallThrough r), dst := it.d, scope := barScope (obj l) }) r it rest false)

/-- BTEST: each active lane's predicate says whether its token is complete; those that hold acquire (R241). -/
def btestCompletes (i : Instr) (it : Item) : Prop :=
  ∀ s r, Ready s r it { uses := barUses accAny (.src .b vtCount accAny) (.dstP false), bads := modNone it } →
    let act := lanesOf (activeLanes s.cur r it)
    let addr := operand s s.cur r it vtCount .a
    let tok := operand s s.cur r it vtCount .b
    let loc := fun l => poolLoc s s.cur (addr l) 16
    let obj := fun l => (barRead s (loc l).1 (loc l).2).1
    let ok := fun l => tokenDone (barPhase (obj l)) (tok l)
    let take := fun (w : Warp) l =>
      acquireAt (barScope (obj l)) false (phaseSigs s (loc l).1 (loc l).2 (tok l % 2 ^ 16)) (1#32 <<< l) w
    act ≠ [] → r.transit = false → ObjectsUsable s act addr →
    exec i s = .next (finish (onCur (atObjects s s.cur act addr) fun w =>
      (act.filter ok).foldl take (act.foldl (fun w l => pset w it.d l (ok l)) w)) r it)

/-- FENCE: the phase boundary at its scope, where nothing of it is left to wait for (R242, R73). -/
def fenceCompletes (i : Instr) (it : Item) : Prop :=
  ∀ s r, Ready s r it { uses := noUses, bads := ptBads it ++ modOutside it 54 52 ++ opdBad (it.m 54 52 = 7) 6 7 } →
    Clear s r [it.m 54 52] →
    exec i s = .next (finish (onCur (past s r [it.m 54 52]) (acquireAt (it.m 54 52) true [] r.grp)) r it)

/-- A hardware barrier of kind `kind` that its launch has: an open transaction is doomed, the group's lanes park at their next instance
of it (R243, R250). -/
def hwSyncCompletes (i : Instr) (it : Item) (bads : List Bad) (kind : Nat) : Prop :=
  ∀ s r, Ready s r it { uses := noUses, bads := bads } →
    let lr := recOf s s.cur
    let sc := hwScope lr (hwDom kind).1 (hwDom kind).2
    (kind = 2 → hasDom lr 2 = true) → (2 ≤ kind → recCoop lr = true ∧ coreEngines s s.cur = false) →
    Clear (doom s 0x05) r [sc] →
    let p := past (doom s 0x05) r [sc]
    let t := parkLanes (if kind < 2 then p
        else onCur p fun w => releasedWith (nset 0 [] (2 ^ 41 + w.core) p.order) r.grp [sc] p.order w) r.grp fun l =>
      { wait := .hw kind (nget 0 s.cur.hwn (4 * l + kind)), ft := dw (fallThrough r), dst := 0, scope := sc }
    exec i s = .next (endWait
      (onCur t fun w => { w with hwn := (lanesOf r.grp).foldl (fun m l => nset 0 m (4 * l + kind) (nget 0 m (4 * l + kind) + 1)) w.hwn })
      r it r.grp false)

/-- TWAIT whose lanes all translate to memory of the module: an open transaction is doomed, its watches are sent, with the timeout
counted from the issue, and its lanes park (R245, R246, R248, R250). -/
def twaitCompletes (i : Instr) (it : Item) : Prop :=
  ∀ s r s' loc, Ready s r it
      { uses := [.src .a (.int 64 false) accAny, .src .b (vtOf it.ty) { accAny with lit := false },
          if twCmp it = 6 then .src .c (vtOf it.ty) accAny else .unused .c, .dstV 1]
        bads := encBad (it.mb 55) 7 55 ++ encBad it.f.lit.isNone 10 0 ++
          opdBad (!([2, 6, 3, 7, 8, 9] : List Nat).contains it.ty) 5 it.ty ++
          opdBad (twCmp it = 7 || ((it.ty == 8 || it.ty == 9) && 2 ≤ twCmp it && twCmp it ≤ 5) ||
            (!(it.ty == 8 || it.ty == 9) && twCmp it = 6)) 6 (twCmp it) ++
          opdBad (twScope it < 2 || twScope it = 7) 6 (twScope it)
        usesLit := true } →
    let act := lanesOf (activeLanes s.cur r it)
    let v := fun l => (⟨operand s s.cur r it (.int 64 false) .a l, operand s s.cur r it (vtOf it.ty) .b l,
      if twCmp it = 6 then operand s s.cur r it (vtOf it.ty) .c l else 0⟩ : LaneVal)
    let va := fun l => (v l).va
    let q := if r.begun = 0 then { r with begun := (timeOf s).toNat + 1 } else r
    let u := onCur (doom s 0x05) fun w => { w with run := some q }
    act ≠ [] → Clear u q [twScope it] →
    translateLanes (past u q [twScope it]) (past u q [twScope it]).cur act (fun l => globalCheck (va l) (tyBytes it.ty)) va .read 1 true =
      (.ok loc, s') →
    firstLane act (watchHostBad loc va) = none → (∀ l ∈ act, (locOf loc l).1.isSome = true) →
    exec i s = .next (endWait (sendWatches s' it (some q) q.pc (dw (fallThrough q)) (q.begun - 1) act loc v) q it (lanesFrom act)
      (dataWatch s s.cur act false true false va (tyBytes it.ty)))

/-- XBEGIN and XABORT (R250, R251). -/
def transactionRows (f : Long) : List Row :=
  [(let it := longItem 0x1AA true f
    ⟨.xbegin f, it, fun s w _ => { uses := noUses, bads := modNone it ++ roleBads s w 2 }, fun s w r =>
      if !guardU w it then finish s r it
      else if w.txn.isOpen then finish (doom s 0x07) r it
      else finish { s with cur := { w with txn := { isOpen := true }, xcause := 0 } } r it⟩),
   (let it := longItem 0x1AC true f
    ⟨.xabort f, it, fun s w r =>
      { uses := [.src .a vtCount accSync, .unused .b, .unused .c, .dstNone]
        bads := modNone it ++ opdBad (255 < operand s w r it vtCount .a 0) 8 (operand s w r it vtCount .a 0) },
      fun s w r =>
        if !guardU w it || !w.txn.isOpen then finish s r it
        else
          finish
            { s with
              staging := s.staging.filter (fun e => e.txn != w.uid)
              cur := { w with txn := {}, xcause := 0x0A, xuser := BitVec.ofNat 8 (operand s w r it vtCount .a 0) } } r it⟩)]

/-- XEND: it fails outside a transaction and in a doomed one; otherwise it commits where every line read still has the
version read, and fails with cause 0x02 where one has not (R251). -/
def xendCompletes (i : Instr) (it : Item) : Prop :=
  ∀ s r, Ready s r it
      { uses := [.unused .a, .unused .b, .unused .c, .dstP false], bads := modNone it ++ roleBads s s.cur 2 } →
    guardU s.cur it = true →
    let w := s.cur
    (w.txn.isOpen = false → exec i s = .next (closeTxn s r it (some 0x0B) false)) ∧
    (w.txn.isOpen = true → w.txn.doomed = true → exec i s = .next (closeTxn s r it none false)) ∧
    (w.txn.isOpen = true → w.txn.doomed = false →
      anyLocked s ((writeSet s w).map (·.pa) ++ w.txn.reads.map fun e => e.1 * 256) = false →
      anyHeld s ((writeSet s w).map (·.pa)) = false → (writeSet s w).any (atomicBefore s) = false → aheadOfSet s w = [] → (∀ e ∈ w.txn.reads, poisonedAt s (e.1 * 256) 256 = false) →
      ((∀ e ∈ w.txn.reads, nget 0 s.ver e.1 = e.2) → exec i s = .next (closeTxn (commitSet s w r) r it (some 0x01) true)) ∧
      ((∃ e ∈ w.txn.reads, nget 0 s.ver e.1 ≠ e.2) →
        exec i s = .next (closeTxn { s with staging := s.staging.filter fun e => e.txn != w.uid } r it (some 0x02) false)))

/-! System, handler and launch instructions (R140, R143, R254 to R257). -/

/-- RDSR: the special register read, 32 or 64 bits, per thread or uniform (R254). -/
def readRow (i : Instr) (it : Item) (n : Nat) (u : Bool) : Row :=
  ⟨i, it, fun s w _ =>
    { uses := (if it.isShort then [] else [.unused .a]) ++ [.unused .b, .unused .c,
        if u then .dstS (srWidth n / 32) else .dstV (srWidth n / 32)]
      bads := (if it.isShort then opdBad (!(0x1E0 ≤ it.code .a && it.code .a < 0x1FF)) 1 (it.code .a) else encBad (it.m 62 61 ≠ 0) 7 61) ++
        opdBad (srWidth n = 0 || (u && !srUniform (recOf s w) n)) 11 n },
    fun s w r =>
      let act := activeLanes w r it
      let val := fun l => (srRead s w l n).toNat
      finish { s with cur :=
        if u then (if act = 0 then w else sputNat w (srWidth n / 32 == 2) it.d (val (lowLane act)))
        else (lanesOf act).foldl (fun w l => vputNat w (srWidth n / 32 == 2) it.d l (val l)) w } r it⟩

/-- RDSR, WRSR, TRAP and BPT (R254, R255). -/
def systemRows (f : Long) (g : Short) : List Row :=
  [readRow (.rdsr f) (longItem 0x1C0 false f) ((longItem 0x1C0 false f).m 60 52) ((longItem 0x1C0 false f).mb 63),
   readRow (.rdsrShort g) (shortItem 0x3D false 0x0 g) ((shortItem 0x3D false 0x0 g).f.a.toNat - 0x1E0) false,
   (let it := longItem 0x1C1 false f
    let n := it.m 60 52
    ⟨.wrsr f, it, fun s w r =>
      { uses := [.src .a (.bits 32) (if srPerThread n then accAny else accUni), .unused .b, .unused .c, .dstNone]
        bads := encBad (it.m 63 61 ≠ 0) 7 61 ++ opdBad (srWidth n = 0 || !srWritable n) 11 n ++
          opdBad (!srValueOk n (operand s w r it (.bits 32) .a 0)) 11 (operand s w r it (.bits 32) .a 0) },
      fun s w r =>
        let act := activeLanes w r it
        let val := fun l => operand s w r it (.bits 32) .a l
        let w' := if srPerThread n then { w with rctr := (lanesOf act).foldl (fun m l => nset 0 m l (w32 (val l))) w.rctr }
          else if act = 0 then w
          else srWrite w n (val (lowLane act))
        finish { s with cur := w' } r it⟩)]

/-- TRAP and BPT: with an active lane the lanes whose guard holds stop, at the next slot, with cause E0 + n or C1;
otherwise nothing happens (R255). -/
def trapCompletes (i : Instr) (it : Item) (sp : State → Warp → Run → Spec) (cause : State → Run → Nat) : Prop :=
  ∀ s r, Ready s r it (sp s s.cur r) →
    let act := activeLanes s.cur r it
    let next := advance r it
    let at_ := if next.body.isEmpty then { next with pc := dw (fallThrough r) } else next
    (act = 0 → exec i s = .next (finish s r it)) ∧
    (act ≠ 0 → exec i s = .next (takeTrap s { cause := cause s r, pc := at_.pc.toNat, lanes := act } r.grp (some at_)))

/-- Requirements of TRAP and BPT. -/
def trapNeeds (it : Item) (s : State) (w : Warp) (r : Run) : Spec :=
  { uses := [.src .a vtCount { v := false, s := false, latch := false, sr := false }, .unused .b, .unused .c, .dstNone]
    bads := modNone it ++ opdBad (31 < operand s w r it vtCount .a 0) 8 (operand s w r it vtCount .a 0) }

/-- TRET: the handler goes, the trapped warp resumes (R256, R313, R314). -/
def tretCompletes (i : Instr) (it : Item) : Prop :=
  ∀ s r t s', Ready s r it { uses := noUses, bads := ptBads it ++ modNone it ++ handlerBads s.cur } →
    Clear s r [2] → findWarp (past s r [2]) s.cur.serves = some t →
    firstBadTarget (fun l => nget 0 t.pc l) (lanesOf (((t.trap.map (·.moved)).getD 0) &&& t.live)) (past s r [2]) = (none, s') →
    exec i s = .next (resumeTrap (dropHandler s' s.cur) t)

/-- RDTR and WRTR: the active lanes' items of the trapped warp are read, or written (R256). -/
def itemCompletes (f : Long) : Prop :=
  (∀ s r, let it := longItem 0x1C5 false f
    let a := operand s s.cur r it vtCount .a 0
    Ready s r it
      { uses := [.src .a vtCount accSync, .unused .b, .unused .c, .dstV 1]
        bads := modNone it ++ itemBads s s.cur a false ++ handlerBads s.cur } →
    exec (.rdtr f) s = .next (finish ((lanesOf (activeLanes s.cur r it)).foldl (fun t l =>
      let x := itemRead t (servedBy s s.cur) (a % 2 ^ 16) l
      onCur x.2 fun w => vset w it.d l x.1) s) r it)) ∧
  (∀ s r t, let it := longItem 0x1C6 false f
    let a := operand s s.cur r it vtCount .a 0
    let act := lanesOf (activeLanes s.cur r it)
    let lanes := if itemWide (servedBy s s.cur) (a % 2 ^ 16) then act.take 1 else act
    Ready s r it
      { uses := [.src .a vtCount accSync, .src .b (.bits 32) accAny, .unused .c, .dstNone]
        bads := modNone it ++ itemBads s s.cur a true ++ handlerBads s.cur ++ wrtrPart s s.cur r it } →
    lanes.foldl (fun acc l => acc.bind fun u =>
      itemWrite u s.cur.serves (a % 2 ^ 16) l (w32 (operand s s.cur r it (.bits 32) .b l))) (some s) = some t →
    exec (.wrtr f) s = .next (finish t r it)) ∧
  (∀ s r tw, let it := longItem 0x1C6 false f
    let a := operand s s.cur r it vtCount .a 0 % 2 ^ 16
    let act := lanesOf (activeLanes s.cur r it)
    Ready s r it
      { uses := [.src .a vtCount accSync, .src .b (.bits 32) accAny, .unused .c, .dstNone]
        bads := modNone it ++ itemBads s s.cur (operand s s.cur r it vtCount .a 0) true ++ handlerBads s.cur ++ wrtrPart s s.cur r it } →
    findWarp s s.cur.serves = some tw → itemClass a = 0 → s.cur.serves ≠ s.cur.uid →
    ∃ t, exec (.wrtr f) s = .next (finish t r it) ∧ findWarp t s.cur.serves = some
      (act.foldl (fun w l => vset w (itemIdx a) l (w32 (operand s s.cur r it (.bits 32) .b l))) tw))

/-- BAREDIT: the field takes b, or its sum with b, then FlipCheck (R257). -/
def bareditCompletes (i : Instr) (it : Item) : Prop :=
  ∀ s r, Ready s r it
      { uses := barUses accSync (.src .b vtCount accSync) .dstNone
        bads := encBad (it.m 63 56 ≠ 0) 7 56 ++ opdBad (it.m 54 52 = 7) 6 7 ++ handlerBads s.cur } →
    let a := operand s s.cur r it vtCount .a 0
    let b := operand s s.cur r it vtCount .b 0
    let p := poolLoc s s.cur a 16
    guardU s.cur it = true → r.transit = false → poolReadCheck s s.cur a 16 16 = none → goesOut s s.cur [p.1] = false →
    Clear s r (objScopes s [p]) →
    let o := barRead s p.1 p.2
    let t := past s r (objScopes s [p])
    let u := addPhaseSigs t p.1 p.2 (barPhase o.1) [laneSig t.cur (lowLane r.grp)]
    let fd := barField (it.m 54 52)
    let old := if fd.1 then o.2 else o.1
    let new := putFld old fd.2.1 fd.2.2 (if it.mb 55 then fld old fd.2.1 fd.2.2 + b else b)
    exec i s = .next (finish (flipCheck (if fd.1 then barWrite u p.1 p.2 o.1 new else barWrite u p.1 p.2 new o.2) s.cur.key p.1 p.2) r it)

/-- LAUNCH: the record image at A goes to the slot at WIDX of the queue that B names, which WIDX counts, and DST takes 0; it takes 1 where
the queue is full and 2 where there is none (R143, R276). -/
def launchCompletes (i : Instr) (it : Item) : Prop :=
  ∀ s r s' loc, Ready s r it
      { uses := [.src .a (.int 64 false) accS, .src .b vtCount { accSync with latch := false }, .unused .c, .dstS 1]
        bads := dcBads it ++ modZero it 60 52 ++ roleBads s s.cur 5 } →
    let a := operand s s.cur r it (.int 64 false) .a 0
    guardU s.cur it = true → dcFull s.cur it.dc = false → Clear s r [5] →
    translateLanes (past s r [5]) s.cur imageLanes (fun j => globalCheck (a + 64 * j) 64) (fun j => a + 64 * j) .read 1 true = (.ok loc, s') →
    anyLocked s' (loc.filterMap (·.2.1)) = false →
    let q := operand s s.cur r it vtCount .b 0
    let k := 8 * tenantOf s' s.cur + q
    let v := imageFill s' loc
    let Gives := fun d t => exec i s = .next (finish (onCur t (launchStatus it d)) r it)
    (7 < q ∨ queueOn v k = false → Gives 2 v) ∧
    (q ≤ 7 → queueOn v k = true → queueSlots v k ≤ queueCount v k → Gives 1 v) ∧
    (∀ pa x u, q ≤ 7 → queueOn v k = true → queueCount v k < queueSlots v k →
      translate v (coreShelf s.cur.core) (tenantOf s' s.cur) (slotVa v k (fld (pkgReg v 0x21 k) 47 32)) .write 1 = (.ok pa x, u) →
      anyLocked u [pa] = false → anyHeld u [pa] = false →
      let y := pkgReg u 0x21 k
      Gives 0 (pkgPut (applyWrite u (atAddr pa (imageBytes s' loc))) 0x21 k (putFld y 47 32 (fld y 47 32 + 1)))) ∧
    (∀ d t, appendRecord v s.cur.core (tenantOf s' s.cur) q (imageBytes s' loc) = .status d t → Gives d t)

/-- A warp-level instruction whose guard does not hold has no effect (R188, R236, R250): an instruction and what it needs. -/
def idleUnderGuard (i : Instr) (it : Item) (sp : State → Warp → Run → Spec) : Prop :=
  ∀ s r, Ready s r it (sp s s.cur r) → guardU s.cur it = false → r.transit = false → exec i s = .next (finish s r it)

/-! Events: each occurs, with the effect the rules give it, where they enable it. -/

/-- Issue-slot events (R21 to R24, R105 to R107, R284, R285, R312, R318): a slot begins the clause at its warp's selected position, or
goes on with the one that stepping broke off there; held lanes become eligible with their count intact; warps are exchanged; congestion
levels count for 4,096 sclk; a handler starts. -/
def issueEvents : Prop :=
  (∀ c q n s w pc,
    let v := settle c q (dueStops c q n s)
    let u := focus v w.uid
    warpAt v c q n = some w → w.uid ≠ 0 → mayIssue v w = true → itsTurn v w = true → u.cur = w →
    selectPc w = some pc →
    (∀ r, pausedAt w pc = some r → exec (.clauseIssue c q n) s = .next (goOnPaused u w r)) ∧
    (∀ hdr body t, pausedAt w pc = none → fetchClause u w.core (tenantOf u w) pc.toNat = (.clause hdr body, t) →
      waitHolds w hdr = false → clauseBlocked t w (groupAt w pc) (splitItems 16 body) = false →
      exec (.clauseIssue c q n) s = .next (beginClause t w pc (groupAt w pc) hdr body))) ∧
  (∀ c q n s w, warpAt s c q n = some w →
    let w' := { w with heldFor :=
      ((lanesOf w.live).filter fun l => decide (32 ≤ nget 0 w.heldFor l)).foldl (fun m l => nset 0 m l 32) w.heldFor }
    exec (.rcvHoldExpiry c q n) s = .next (putWarp s w') ∧
    ∀ l, l ∈ lanesOf w.live → 32 ≤ nget 0 w.heldFor l → heldLane w' l = false ∧ nget 0 w'.age l = nget 0 w.age l) ∧
  (∀ c q s x y, earliest ((quadWarps s c q).filter fun x => !x.active && clauseReady s x) = some x →
    earliest (activeWarps s c q) = some y → x.since + 2048 ≤ s.clk → activeCap s c ≤ (activeWarps s c q).length → y.run = none →
    exec (.ageSwap c q) s = .next (setActive (setActive s y false) x true)) ∧
  (∀ c src lvl s, exec (.congestionLevel c src lvl) s = .next ((List.range Config.quads).foldl (fun t q => trimActive c q t)
    { s with congest := nset (0, 0) s.congest (4096 * c + 4 * (src % 1024) + lvl % 4) (lvl % 4, s.clk) })) ∧
  (∀ c src s, exec (.congestionLevelExpiry c src) s = .next { s with congest := s.congest.filter fun e =>
      !(e.1 / 4 == 1024 * c + src % 1024 && decide (e.2.2 + Config.sclk 4096 < s.clk)) }) ∧
  (∀ c q s w t u, warpAt s c q 16 = none → waitingTrap s c q = some (w, t) → stopReady s w t = true →
    let va := fld (pkgReg s 0x27 (tenantOf s w)) 59 17 * 2 ^ 17 + 64 * (4 * c + q)
    sysWrite s (coreShelf c) (tenantOf s w) va (recordBytes t.record) = some u →
    let x := (takeId u).2
    let v := putWarp x { released t.stopped [2] x.order w with trap := some { t with phase := 1 } }
    exec (.handlerStart c q) s = .next { v with warps := v.warps ++ [handlerWarp v (takeId u).1 w t (dw va)] })

/-- Pool accesses that arrive, and the publication of staged stores (R50, R54, R55, R57, R72, R73). -/
def publicationEvents : Prop :=
  (∀ c q n s w r i rest k, warpAt s c q n = some w → w.run = some r → r.transit = true → decodeParcels r.body = .ok (i, rest) →
    (∀ x ∈ s.allWarps, x.bound w.core r.targets = true → r.stamp ≤ (x.run.map (·.stamp)).getD 0) →
    atTargetDo i = some k → exec (.poolAccessAtTarget c q n) s = .next (k (focus s w.uid) w r)) ∧
  (∀ n s e, s.staging[n]? = some e → e.txn = 0 → e.going = none →
    exec (.stagingEarlyPublish n) s = .next { s with staging := s.staging.modify n (startPublish s e.freeLevel) }) ∧
  (∀ n s e, s.staging[n]? = some e → e.going.isSome = true → e.applied = false → resetting s e.tenant = false →
    olderOf s n e = [] → atomicAhead s e = false → overtaken s e.core e.sent = false →
    (lineOf s e.pa).locked = false → (lineOf s e.pa).holdWr = false → drainHolds s (coreShelf e.core) e.gen e.pa = false →
    peerWay s (coreShelf e.core) e.pa = .clear →
    let t := applyStaged (overtakes s e.core e.sent) e
    exec (.homeApplyPublication n) s = .next { t with
      staging := t.staging.modify n fun x => { x with applied := true, level := if paLocal e.pa then 0 else 1 } }) ∧
  (∀ n s e, s.staging[n]? = some e → e.applied = true →
    exec (.publicationAck n) s = .next { s with staging := s.staging.eraseIdx n }) ∧
  (∀ c q n s w r l, warpAt s c q n = some w → w.run = some r → r.bnd = some l → waitingEntries s c l = false →
    exec (.boundaryReleaseComplete c q n) s = .next (putWarp s { w with run := some { r with released := true } })) ∧
  (∀ line s, (nget {} s.l2 line).dirty ≠ 0 → (nget {} s.l2 line).locked = false →
    (paKind (256 * line) ≠ .fast → exec (.l2Writeback line) s = .next (writeBack s line)) ∧
    (∀ t, paKind (256 * line) = .fast → freeTag s (stackOf (256 * line)) = some t →
      let l := nget {} s.l2 line
      let ks := (List.range 8).filter fun k => l.dirty.getLsbD k
      exec (.l2Writeback line) s = .next { s with
        packets := s.packets ++ [{
          stack := stackOf (256 * line), tag := t, kind := 1, reply := false, pa := 256 * line, sectors := l.dirty, args := [], src := 0
          bad := lineBad s line
          bytes := ks.foldl (fun m k => nsetRange 0 m (256 * line + 32 * k) (ngetRange 0 s.l2b (256 * line + 32 * k) 32)) [] }]
        l2 := nset {} s.l2 line { l with dirty := 0 } })) ∧
  (∀ v s, let old := putFld (shelfReg s 0 0x02 0) 2 2 (if fbit v 2 then 0 else fld (shelfReg s 0 0x02 0) 2 2)
    fbit old 1 = false → fld v 0 0 ≠ fld old 0 0 → bankDiffers s (fld v 0 0) = none →
    exec (.irtctlActWrite v) s = .next (bothPut s 0x02 0 (putFld (putFld old 0 0 (fld v 0 0)) 1 1 1))) ∧
  (∀ s, draining s = true → oldRequests s = false →
    let t := ((s.l2.map (·.1)).filter fun k => anyMoved s (256 * k)).foldl writeBack s
    let new := decide (irtBank t 0 = 1)
    let u := { t with watches := t.watches.map fun x =>
      if (x.st == 1 || x.st == 2) && x.gen != new && anyMoved t x.pa then { x with st := 3, answer := 3 } else { x with gen := new } }
    exec .drainClear s = .next (bothPut u 0x02 0 (putFld (shelfReg u 0 0x02 0) 1 1 0)))

/-- A soft error is the next thing said. -/
def strikeNext (s : State) (u : Upset) : State := { s with agenda := [.upset u] }

/-- Atomic groups at their homes, and the stacks (R62 to R64, R178 to R180, R253, R268, R270). -/
def stackEvents : Prop :=
  (∀ n s q g, groupReady s n = some (q, g) → paKind g.pa = .fast → q.away = none → (lineOf s g.pa).locked = false →
    (lineOf s g.pa).holdWr = false → drainHolds s (coreShelf q.core) q.gen g.pa = false → poisonedAt s g.pa (tyBytes q.ty) = false →
    exec (.atomicGroupApply n false) s = .next (applyAtHome s q g)) ∧
  (∀ n s q g l ls, groupReady s n = some (q, g) → paKind g.pa = .host → g.lanes = l :: ls →
    poisonedAt s g.pa (tyBytes q.ty) = false → exec (.hostAtomicop n) s = .next (applyAtHome s q { g with lanes := [l] })) ∧
  (∀ n s i p, servable s 0 n = some (i, p) →
    let ks := (List.range 8).filter fun k => p.sectors.getLsbD k
    exec (.stackRead n) s = .next (putPacket s i { p with
      reply := true
      args := if p.args.isEmpty then [] else [nonzeroMask s (p.pa / 256)]
      bytes := ks.foldl (fun m k => nsetRange 0 m (p.pa / 256 * 256 + 32 * k) (ngetRange 0 s.dram (p.pa / 256 * 256 + 32 * k) 32)) [] })) ∧
  (∀ n s i p, servable s 1 n = some (i, p) → ∃ t, exec (.stackWrite n) s = .next t ∧
    t.dram = ((List.range 8).filter fun k => p.sectors.getLsbD k).foldl
      (fun m k => nsetRange 0 m (p.pa / 256 * 256 + 32 * k) (ngetRange 0 p.bytes (p.pa / 256 * 256 + 32 * k) 32)) s.dram) ∧
  (∀ n s i p op ty x e lane, servable s 2 n = some (i, p) → p.args = [op, ty, x, e, lane] →
    (∀ j < tyBytes ty, storedPoison s ((p.pa + j) / 32) = false) →
    let old := ofBytes (ngetRange 0 s.dram p.pa (tyBytes ty))
    ∃ t, exec (.stackAtomic n) s = .next t ∧
      t.dram = nsetRange 0 s.dram p.pa (bytesOf (tyBytes ty) (applyGroup op ty old [⟨lane, dw x, dw e⟩]).1) ∧
      t.packets = s.packets.set i { p with reply := true, args := [old, lane, tyBytes ty] }) ∧
  (∀ s p u0 u1 tb mask k rest, s.packets = [p] → p.kind = 3 → p.reply = false → p.args = u0 :: u1 :: tb :: mask :: k :: 0 :: rest →
    exec (.stackQuery 0) s = .next { s with packets := [{ p with args := u0 :: u1 :: tb :: mask :: k :: 1 :: rest }] }) ∧
  (∀ n s i p, servable s 4 n = some (i, p) →
    (∀ b ∈ p.args.head?, (nget ({} : FrameMeta) s.fmeta (b / 65536)).cmp = false) →
    exec (.stackRowop n) s = .next (putPacket s i { p with reply := true })) ∧
  (∀ n s i p b t, servable s 4 n = some (i, p) → p.args = b :: t → (nget ({} : FrameMeta) s.fmeta (b / 65536)).cmp = true →
    exec (.stackRowop n) s = .next { putPacket s i { p with reply := true } with
      fmeta := nset {} s.fmeta (p.pa / 65536) { nget ({} : FrameMeta) s.fmeta (p.pa / 65536) with cmp := true } }) ∧
  (∀ frame md s, (freeTag s (stackOf (65536 * frame))).isSome = true →
    exec (.stackCtrl frame md) s = .next { s with fmeta := nset {} s.fmeta frame md }) ∧
  (∀ s p t, s.packets = p :: t → p.reply = true → p.kind = 0 →
    exec (.stackReply 0) s = .next (readReply { s with packets := t } p)) ∧
  (∀ n s i j r p, (chunksReady s)[n]? = some (i, j, r) → s.packets[i]? = some p →
    exec (.queryChunk n) s = .next (putPacket s i { p with
      bytes := (List.range 32).foldl (fun m k =>
        let a := 4096 * j + 1024 * r + 32 * k
        if (p.args.drop 6).contains (128 + a / 32) then m else nsetRange 0 m a (ngetRange 0 s.dram (p.pa + a) 32)) p.bytes
      args := p.args ++ (4 * j + r) :: (if rowPoisoned s p j r then [64 + 4 * j + r] else []) })) ∧
  (∀ st mult temp s, mult ≤ nget 1 s.refresh st →
    exec (.stackRefresh st mult temp) s = .next { s with refresh := nset 1 s.refresh st mult }) ∧
  (∀ n s i j p c, (triplesReady s)[n]? = some (i, j) → s.packets[i]? = some p → s.cmds.find? (fun c => c.id == p.src) = some c → ctxHalted s c.ctx = false →
    (bankResult s c p j).2 = none → (c.landed.filter fun u => u / 16 == p.sectors.toNat).length ≠ 15 →
    exec (.queryTripleReturn n) s = .next (putTriple s c p.sectors.toNat j (bankResult s c p j).1)) ∧
  (∀ n s c, (s.cmds.filter fun c => (c.kind == .rowzf || c.kind == .rowcp) && c.done.contains 1)[n]? = some c → fbit (wordAt c.kv 4) 0 = false →
    let pa := (wordAt c.kv 2).toNat
    let s' := (s.cmds.filter fun x => x.id != c.id).foldl (keepSource pa) s
    let t := (List.range 256).foldl (fun s k => rowLine c.writer (pa + 256 * k) [] (List.replicate 256 0) s) s'
    let u := { t with rows := (List.range 256).foldl (fun m k => nset 0 m (pa / 256 + k) (s'.order + k + 1)) t.rows }
    let v := rowFallback (mapLines u pa fun l => { l with locked := false }) c pa none
    (findCtx v c.ctx).isSome = true → ctxHalted v c.ctx = false →
    exec (.rowopComplete n) s = .next (landedUnit v c 0 [] c.core c.bar.toNat 65536))

/-- Soft errors (R381 to R384): a corrected error changes nothing but its count and its report; an uncorrected one poisons the pool
word, the column-store word, the sector or the half of a staging entry, in storage with cause 0x84; a register's parity fails until the
register is written; a lost reply of a stack poisons the sectors it would have filled, with cause 0x85. -/
def softErrors : Prop :=
  (∀ s unit inst addr asp, (nget (0, 0) s.corr (65536 * unit + inst)).2 = 0 →
    let t := { s with agenda := [] }
    let u := if (unit = 1 ∨ unit = 2) && paKind addr.toNat == .fast then countRow t addr.toNat else t
    step (strikeNext s (.corrected unit inst addr asp)) =
      .next (reportModule { u with corr := nset (0, 0) s.corr (65536 * unit + inst) (0, (timeOf s).toNat + 1) }
        { cause := 0x80, addr := addr, asp := asp, info0 := unit, info1 := (nget (0, 0) s.corr (65536 * unit + inst)).1 + 1, sev := 0 })) ∧
  (∀ s core off, core < Config.cores → off < Config.poolBytes → (∀ k ∈ s.clusters, core ∉ k.cores) →
    step (strikeNext s (.poolWord core off)) =
      .next (reportModule (poisonPool { s with agenda := [] } core (off / 8 * 8) 1)
        { cause := 0x84, addr := dw off, asp := 2, info0 := 5, sev := 2 })) ∧
  (∀ s core column off, core < Config.cores → column < 64 → off < 65536 →
    step (strikeNext s (.storeWord core column off)) =
      .next (reportModule { s with agenda := [], csPoison := nset false s.csPoison (csKey core column off / 8) true }
        { cause := 0x84, addr := dw (65536 * column + off), info0 := 6, sev := 2 })) ∧
  (∀ s pa, sectorValid s pa = true →
    step (strikeNext s (.sector pa true)) =
      .next (reportModule { s with
          agenda := [], poison := nset false s.poison (pa / 32) true
          migrs := s.migrs.map fun m => if m.copies { s with agenda := [] } pa then { m with err := true } else m }
        { cause := 0x84, addr := dw pa, asp := 3, info0 := 3, sev := 2 })) ∧
  (∀ s n e upper, s.staging[n]? = some e →
    let k := if upper then 1 else 0
    step (strikeNext s (.staged n upper)) =
      .next (reportBare { s with
          agenda := [], staging := s.staging.modify n fun e => { e with bad := e.bad ||| BitVec.ofNat 2 (2 ^ k) } } e.tenant 0
        { cause := 0x84, addr := dw (e.pa + 32 * k), asp := 3, info0 := 3, sev := 2 })) ∧
  (∀ s e x, nget false (applyStaged s e).poison x = (nget false (applyWriteBy e.core (fun a => nget [] e.who (a % 64)) s e.writes).poison x ||
    e.badSectors.contains x)) ∧
  (∀ s uid num lane w, findWarp s uid = some w → step (strikeNext s (.parity uid 0 num lane)) =
      .next (putWarp { s with agenda := [] } { w with parity := (0, num, lane) :: w.parity })) ∧
  (∀ w num lane x, (0, num, lane) ∉ (vset w num lane x).parity ∧ vget (vset w num lane x) num lane = x) ∧
  (∀ s n p, s.packets[n]? = some p → p.kind = 1 → p.reply = false → step (strikeNext s (.packetLost n)) =
      .next (reportModule { s with agenda := [], packets := s.packets.eraseIdx n }
        { cause := 0x85, addr := dw (p.pa / 256 * 256), asp := 3, info0 := p.stack, info1 := 1, src := 5, sev := 2 }))

/-- Units of engine commands, credits, products and sweeps (R43, R190, R191, R217, R220, R230). -/
def engineEvents : Prop :=
  (∀ n s c u, (landable s)[n]? = some (c, u) → exec (.engineTileLand n) s = .next (landUnit s c u)) ∧
  (∀ n s e, s.credits[n]? = some e →
    exec (.barrierCredit n) s = .next (creditBar { s with credits := s.credits.eraseIdx n } ⟨e.ctx, e.clu⟩ e.core e.off e.bytes e.sig)) ∧
  (∀ n s p w, s.products[n]? = some p → findWarp { s with products := s.products.eraseIdx n } p.warp = some w →
    exec (.mmaResultWrite n) s = .next (putWarp { s with products := s.products.eraseIdx n }
      { p.vals.foldl (fun w e => vset w (e.1 / 32) (e.1 % 32) e.2) w with
      pend := w.pend.filter fun x => x.src != p.id
      dc := if p.dcSel = 0 then w.dc else nset 0 w.dc p.dcSel (nget 0 w.dc p.dcSel - 1) })) ∧
  (∀ n s c b t,
    let p := c.sweep
    let lit := c.lits
    let rows := (List.range 32).filterMap fun i => if 32 * c.rb + i < c.liveRows then some (32 * c.rb + i) else none
    let col := bitsN c.b.toNat 21 16
    let off := bitsN c.b.toNat 15 0 + c.g * p.gstr
    (s.cmds.filter fun c => c.kind == .mmas)[n]? = some c → findBlock s c.ctx c.clu c.bid = some b → c.saving = false → ctxHalted s c.ctx = false →
    bloadBusy s b c.core col (mmasCols lit) off (sliceBytes (mmasTb lit) p.kt) s.fresh = false → mmasMx lit = false →
    stepPoisoned s c rows = false → (mmasTb lit = 0x13 → b.cb ≠ some []) → charge s c.ctx (stepDebit (energyClass s c.ctx (bitsN lit 16 14))) = some t →
    let cells := rows.flatMap fun row => (List.range (mmasCols lit)).map fun j => (row, j)
    let u := cells.foldl (fun st e =>
      let d := sweepD s c e.1 (64 * c.g + e.2)
      poolStore st d.1 d.2 (bytesOf 4 (sweepElt s c (b.cb.getD []) e.1 e.2))) t
    exec (.mmasStep n) s = .next (if (nextStep c).kc = 0 then
        landedUnit u (nextStep c) (c.rb * mmasG lit + c.g) (if (nextStep c).g = 0 then blockTiles s c else []) c.core c.bar.toNat
          (4 * cells.length)
      else putCmd u (nextStep c))) ∧
  (∀ n s c e ins u v,
    let ps := if c.row < c.rowsLive then c.rowPos c.row else []
    let is := (List.range c.iters.length).drop 1
    (s.cmds.filter fun c => c.kind == .chrun)[n]? = some c → c.saving = false → ctxHalted s c.ctx = false →
    (charge s c.ctx (chrunDebit s c)).isSome = true → readInputs ps [] is c s = .ok (e, ins, false) v →
    charge v c.ctx (chrunDebit s c) = some u →
    (ins.any fun x => ps.any fun p => (e.side x.1).tainted x.2.1 (e.inputPos x.1 p) || !x.2.2.bad.isEmpty) = false →
    let later := ((List.range e.rowsLive).drop (e.row + 1)).flatMap e.rowPos
    let keep := (0 :: is).flatMap fun i => e.sideTiles u i later
    exec (.chrunTileRow n) s = .next (landedUnit (poolPutAll u (rowWrites u e ps ins)) { e with row := e.row + 1 } e.row
      (((0 :: is).flatMap fun i => e.sideTiles u i ps).filter fun t => !keep.contains t) e.core e.bar.toNat
      (if ps.isEmpty then 0 else e.rowCredit e.row)))

/-- Hardware barriers complete, tide watches register, answer, time out and are cancelled (R243, R246, R248). -/
def waitEvents : Prop :=
  (∀ n s x, ((hwWaiting s).filter (hwComplete s))[n]? = some x →
    exec (.hwBarrierComplete n) s = .next
      { mapWarps s (hwRelease s x (hwSigs s x)) with
        saved := s.saved.map fun v => { v with warps := v.warps.map (hwRelease s x (hwSigs s x)) } }) ∧
  (∀ n s x, (s.watches.filter fun x => x.st == 0)[n]? = some x → (lineOf s x.pa).locked = false →
    drainHolds s (coreShelf x.core) x.gen x.pa = false → poisonedAt s x.pa x.width = false →
    (watchHolds x (homeNat s x.pa x.width) = true →
      exec (.watchRegister n) s = .next (putWatch s { x with
        st := 3, answer := 1, sig := homeSigs s x.pa x.width, set := setSeen s x.pa x.width s.order })) ∧
    (watchHolds x (homeNat s x.pa x.width) = false → watchCount s (homeSlice s (coreShelf x.core) x.pa) 1 < Config.tideEntries →
      exec (.watchRegister n) s = .next (putWatch s { x with st := 1 }))) ∧
  (∀ n s x w, (s.watches.filter fun x => x.st == 3)[n]? = some x → x.warp ≠ 0 → x.answer ≠ 5 → findWarp s x.warp = some w →
    exec (.watchAnswer n) s = .next (putWarp (dropWatch s x.id) (answerLanes x w))) ∧
  (∀ n s x, (s.watches.filter fun x => !x.cancel && (x.deadline.any fun d => decide (d ≤ s.clk)))[n]? = some x →
    exec (.twaitTimeout n) s = .next (putWatch s { x with cancel := true })) ∧
  (∀ n s x, (s.watches.filter fun x => x.cancel && (x.st == 1 || x.st == 2))[n]? = some x →
    exec (.watchCancel n) s = .next (putWatch s { x with st := 3, answer := 2 }))

/-- Launches are read, start, are granted clusters, retire and complete (R41, R275 to R283, R391). -/
def launchEvents : Prop :=
  (∀ t q s bs h gs cs,
    let i := 8 * t + q
    let x := pkgReg s 0x21 i
    let slot := slotVa s i (fld x 15 0)
    queueOn s i = true → queueCount s i ≠ 0 → viewBytes s t false slot 256 = .ok bs →
    let r := wordsOf bs 32
    let e := takeId (pkgPut (viewFill s t slot 256) 0x21 i (putFld x 15 0 (fld x 15 0 + 1)))
    checkRecord e.2 t r = .ok (h, gs, cs) →
    let c := { newCtx e.1 t q slot r with
      khdr := h, graphs := gs, chains := cs, psize := recPsize r, st := 0, total := recClusters r, deps := (List.range 4).filter (recDv r) }
    exec (.launchRecordRead t q) s = .next (addDependences { e.2 with ctxs := e.2.ctxs ++ [c] } e.1 t r)) ∧
  (∀ n s c bs, (s.ctxs.filter fun c => c.st == 0)[n]? = some c → c.deps = [] → earlierPlaced s c = true →
    viewBytes s c.tenant false (recPaddr c.record) c.psize = .ok bs →
    exec (.launchStart n) s = .next
      { putCtx (viewFill s c.tenant (recPaddr c.record) c.psize) { c with st := 1, param := nsetRange 0 [] 0 bs, dies := bindDies c.record } with
        starve := nset 0 s.starve (8 * c.tenant + c.queue) (s.clk + 1) }) ∧
  (∀ n s x pa e, (s.watches.filter fun x => x.st == 4)[n]? = some x → schedXlate s x.tenant x.va.toNat .read = .ok pa e →
    exec (.dependenceWatchRetry n) s = .next (putWatch s { x with pa := pa, st := 0, answer := 0, gen := irtBank s 0 = 1 })) ∧
  (∀ s l q c t, s.boot.ready = true → s.boot.tripped = false →
    ([3, 2, 1, 0] : List Nat).find? (fun l => !(levelQueues s l).isEmpty || coopBlocks s l) = some l → coopBlocks s l = false →
    (resumeLevel s).any (fun k => decide (l < k)) = false →
    let qs := levelQueues s l
    let k := drrRounds s qs
    let u := replenish s qs k
    (ringFrom ((nget 0 s.drr l + k) % 128) qs).find? (fun q => decide (0 < queueDef u q)) = some q →
    currentLaunch u q = some c → grantNext u c = some t →
    let x := { t with drr := nset 0 t.drr l q, starve := nset 0 t.starve q (t.clk + 1), placeable := nset 0 t.placeable q 0 }
    (c.granted + 1 ≠ c.total → recCoop c.record = false → exec .clusterGrant s = .next x) ∧
    (c.granted + 1 = c.total ∨ recCoop c.record = true → exec .clusterGrant s = .next
      { pkgPut x 0x23 q (putFld (pkgReg x 0x23 q) 63 63 0) with boosted := nset 0 x.boosted q 0 })) ∧
  (∀ t q s, let i := 8 * t + q
    nget 0 s.placeable i ≠ 0 → nget 0 s.placeable i + Config.sclk (2 ^ 24) < s.clk + 1 → queuePlaceable s i = true →
    fbit (pkgReg s 0x23 i) 63 = false →
    exec (.starvationBoost t q) s =
      .next { pkgPut s 0x23 i (putFld (pkgReg s 0x23 i) 63 63 1) with boosted := nset 0 s.boosted i 0 }) ∧
  (∀ c q n s w, warpAt s c q n = some w → w.uid ≠ 0 → w.handler = false → w.live = 0 → w.run = none → w.trap = none →
    engineWork s w = false → outstanding s w allLanes = false → w.olog = [] →
    (∀ e ∈ s.staging, e.txn ≠ w.uid ∧ belowLevel w.core 1 e = false) →
    let u := w.deferred.foldl (fun s d => eqAppend s (reportQueue d.1) d.1) s
    exec (.warpRetire c q n) s = .next (warpGone
      (dropWarp { u with products := u.products.filter fun p => p.warp != w.uid } w.uid) w)) ∧
  (∀ n s c t, (s.ctxs.filter launchDone)[n]? = some c →
    let u := if c.closing.isNone then publishLaunch s c else s
    launchHeld u { c with closing := (findCtx u c.id).bind (·.closing) } = false →
    bumpCounter u c.tenant (recCc c.record) = some t →
    exec (.launchComplete n) s = .next { t with
      ctxs := t.ctxs.filter fun x => x.id != c.id
      replicas := t.replicas.filter fun x => x.ctx != c.id
      watches := t.watches.filter fun x => x.ctx != c.id }) ∧
  (∀ t q v s, let i := 8 * t + q
    (fld v 47 32 + 2 ^ 16 - fld (pkgReg s 0x21 i) 15 0) % 2 ^ 16 ≤ queueSlots s i →
    exec (.qidxWidxWrite t q v) s = .next (pkgPut s 0x21 i (putFld (pkgReg s 0x21 i) 47 32 (fld v 47 32))))

/-- Pre-emption, saves and resumption (R286 to R289, R393). -/
def saveEvents : Prop :=
  (∀ s cs, (∀ c ∈ s.clusters, c.saving = none ∨ c.heldReported = true) → (waitingPrio s).bind (victim s) = some cs →
    exec .preemptPriority s = .next (startSave s cs)) ∧
  (∀ t v s, fbit v 0 = false → exec (.tctlSuspWrite t v) s = .next (pkgPut s 0x25 t 0)) ∧
  (∀ t v s, fbit v 0 = true → fbit (pkgReg s 0x25 t) 0 = false →
    exec (.tctlSuspWrite t v) s =
      .next ((s.clusters.filter fun c => ctxTenant s c.ctx == t).foldl (suspendUnit t) (pkgPut s 0x25 t 1))) ∧
  (∀ n s c, (s.clusters.filter fun c => c.saving.isSome)[n]? = some c →
    (∀ x ∈ unitOf s c, x.saving.isSome = true ∧ saveReady s x = true) →
    (∀ e ∈ s.staging, ∀ x ∈ unitOf s c, x.staged s e = false) →
    regionWaits s (ctxTenant s c.ctx) (((unitOf s c).map (saveUnits s)).sum) = none →
    exec (.contextSaveComplete n) s = .next ((unitOf s c).foldl saveCluster s)) ∧
  (∀ n s c k, (s.clusters.filter fun c => c.saving.isSome)[n]? = some c → c.heldReported = false →
    c.saving.getD 0 + Config.sclk (2 ^ 24) ≤ s.clk → (unitOf s c).findSome? (saveHeld s) = some k →
    (unitOf s c).all (saveReady s) = false →
    exec (.saveHeldTimeout n) s = .next (reportBare
      { s with clusters := s.clusters.map fun x =>
          if (unitOf s c).any fun y => y.ctx == x.ctx && y.num == x.num then { x with heldReported := true } else x }
      (ctxTenant s c.ctx) (((clusterCtx s c).map (·.queue)).getD 0)
      { cause := 0x66, info0 := k.1, info1 := k.2.1, aux := dw k.2.2, src := 3, sev := 2 })) ∧
  (∀ n s v c t, s.saved[n]? = some v → findCtx s v.ctx = some c → s.boot.ready = true → s.boot.tripped = false →
    (([3, 2, 1, 0] : List Nat).any fun l =>
      (decide (effPrio s c ≤ l) && coopBlocks s l) || (decide (effPrio s c < l) && !(levelQueues s l).isEmpty)) = false →
    (resumeUnit s c v).any (savedWaits s) = true → suspended s c.tenant = false → resumeAll s c (resumeUnit s c v) = some t →
    exec (.contextResume n) s = .next t)

/-- The frames of a migration's page as its leaves in memory name them, its first leaf's address given. -/
def migrOlds (s : State) (m : Migr) (a : Nat) : List Nat :=
  (List.range (pageCount m.leaf)).map fun i => leafPFN (dw (homeNat s (a + 8 * i) 8))

/-- What a migration shoots down: nothing for a revival. -/
def migrRanges (s : State) (m : Migr) (a : Nat) : List PaRange :=
  if m.kind = 3 then [] else (migrOlds s m a).map fun p => ⟨p * 65536, (p + 1) * 65536⟩

/-- Steps 2 to 5 of R302, a frame group `pfn` having been taken for the page (R302 to R305, R377). -/
def migrMoved (s : State) (m : Migr) (a pfn : Nat) (u : State) : State :=
  let n := pageCount m.leaf
  let olds := migrOlds s m a
  let t := dropReplicas (dropLeaves u m.tenant (if n = 32 then 1 else 0) (m.first * 65536)) (migrRanges s m a)
  let t := if m.kind = 3 then (List.range n).foldl (fun t i => zeroFrame t (pfn + i)) t
    else (List.range n).foldl (fun t i => copyFrame (olds.getD i 0) (pfn + i) t) (t.watches.foldl (moveWatch olds pfn) t)
  let t := editLeaves t a n fun i e => newLeaf m.kind e (pfn + i)
  let t := if m.kind < 3 then
      (ringPut t (pageShelf (leafPFN m.leaf * 65536)) m.tenant (if leafTIER m.leaf then 1 else 0) (if ptL m.leaf then 1 else 0)
        (olds.headD 0)).getD t
    else t
  let t := if m.kind = 4 then
      retireReport { t with retired := t.retired ++ olds } m.frame (some m.tenant) (pfn + (findIdx (· == m.frame) olds).getD 0)
    else t
  markReady (putMigr t m.tenant m.page none) m.tenant (m.covers m.tenant)

/-- Step 1 of R302: the page's leaves, the first at `a`, are written invalid and the page is in transit. -/
def migrBegun (s : State) (m : Migr) (a : Nat) : State :=
  putMigr (markTransit (editLeaves s a (pageCount m.leaf) fun _ e => putFld e 63 63 0) m.tenant (m.covers m.tenant) true)
    m.tenant m.page (some { m with failed := false })

/-- A migration whose leaves stand in memory, whose shoot-down is complete, whose lines no one holds, for which a frame is taken, and
which has met no error. -/
def MayMove (s : State) (m : Migr) (a pfn : Nat) (u : State) : Prop :=
  m.failed = false ∧ leavesAt s m = some a ∧ shootBusy s m.tenant (migrRanges s m a) = false ∧
  (∀ e ∈ s.l2, ((e.2.locked || e.2.holdWr) && inRanges (migrRanges s m a) (256 * e.1)) = false) ∧
  ringTake s (pageShelf (leafPFN m.leaf * 65536)) m.tenant (destTier m.kind m.leaf) (if ptL m.leaf then 1 else 0) = some (pfn, u) ∧
  (m.err = false ∨ 3 ≤ m.kind)

/-- A request of the fault unit that may begin: no other page of the tenant moves, the rings serve it, its leaves stand in memory. -/
def MayBegin (s : State) (m : Migr) (a : Nat) : Prop :=
  tenantMoving s m.tenant = false ∧ ringCheck s m = none ∧ leavesAt s m = some a

/-- A promotion or revival as the fault unit asks for it. -/
def moveOf (t va kind : Nat) (e : DWord) : Migr :=
  { tenant := t, page := va / 65536, kind := kind, leaf := e, failed := false, mb := false }

/-- Shoot-downs, migration, remote homes, retired frames, replays (R297, R301 to R306, R374, R375, R377). -/
def pageEvents : Prop :=
  (∀ v s, fbit v 0 = true → fbit (pkgReg s 0x2B 0) 63 = false →
    let x := dw (fld v 59 16 * 2 ^ 16 + fld v 7 4 * 16 + fld v 3 2 * 4 + (if fbit v 1 then 0 else fld (pkgReg s 0x2B 0) 1 1) * 2)
    exec (.tlbinvGo v) s = .next { pkgPut s 0x2B 0 (putFld x 63 63 1) with shoot := some x }) ∧
  (∀ s x, s.shoot = some x →
    let ten := fld x 7 4
    let rs := shootFrames s ten (fld x 3 2) (fld x 59 16 * 65536)
    shootBusy s ten rs = false →
    let t := dropReplicas (dropLeaves s ten (fld x 3 2) (fld x 59 16 * 65536)) rs
    let u := { t with
      shoot := none
      watches := t.watches.map fun w =>
        if w.tenant == ten && (w.st == 1 || w.st == 2) && inRanges rs w.pa then { w with st := 3, answer := 4 } else w }
    exec .tlbinvComplete s = .next (pkgPut u 0x2B 0 (putFld (pkgReg u 0x2B 0) 63 63 0))) ∧
  (∀ c q n s w e, warpAt s c q n = some w → readyEntry w = some e →
    exec (.operandLogReplay c q n) s = .next (focus (replayEntry (focus s w.uid) e) s.cur.uid)) ∧
  (∀ s e loc u, opcOf (e.insn.extractLsb' 0 32) = 0x120 →
    let w0 := e.insn.extractLsb' 0 32
    let it := longItem 0x120 false (longFields w0 (e.insn.extractLsb' 32 32) (if lengthCode w0 = 2 then some e.lit else none))
    let v := payloadLane s e.pay.toNat
    let lanes := lanesOf e.mask
    translateLanes s { s.cur with olog := olderOn s.cur e } lanes (fun _ => none) (fun l => (v l).va) .write 1 true = (.ok loc, u) →
    let x := onCur u fun w => { w with txn := {} }
    stageRoom x (it.m 54 52) (blocksOf loc) = true →
    replayEntry s e = replayed
      (onCur (stgStage (it.m 54 52) (stgBytes it) x lanes loc fun l => (v l).data) fun w => { w with txn := u.cur.txn }) e it.dc) ∧
  (∀ t va s m a pfn u, findMigr s t (va / 65536) = some m → MayMove s m a pfn u →
    exec (.faultUnitMigrate t va) s = .next (migrMoved s m a pfn u) ∧
    exec (.remoteHomeRequest t va) s = .next (migrMoved s m a pfn u) ∧
    (m.kind = 3 → exec (.pageRevive t va) s = .next (migrMoved s m a pfn u))) ∧
  (∀ t va s e g a, findMigr s t (va / 65536) = none → homeWalk s t va = .leaf e g → leafBad e g = none → leafKEY e = t →
    (parkedOn s t (va / 65536) = true → leafSTATE e = 1 → MayBegin s (moveOf t va 0 e) a →
      exec (.faultUnitMigrate t va) s = .next (migrBegun s (moveOf t va 0 e) a)) ∧
    (parkedOn s t (va / 65536) = true → leafSTATE e = 2 → MayBegin s (moveOf t va 3 e) a →
      exec (.pageRevive t va) s = .next (migrBegun s (moveOf t va 3 e) a)) ∧
    (leafSTATE e ≠ 1 → leafSTATE e ≠ 2 → exec (.remoteHomeRequest t va) s =
      .next { s with answers := s.answers ++ [⟨t, va / 65536, some (putFld e 35 0 (leafPA e g va / 65536))⟩] })) ∧
  (∀ t va s l, findMigr s t (va / 65536) = none → homeWalk s t va = .invalid l →
    exec (.remoteHomeRequest t va) s = .next { s with answers := s.answers ++ [⟨t, va / 65536, none⟩] }) ∧
  (∀ t va s r k a g leaf, s.remotes.find? (fun r => r.tenant == t && r.page == va / 65536) = some r →
    (exec (.remoteHomeReply t va false leaf) s = .next (remoteFail s t (va / 65536) r.dev 1)) ∧
    (slotOf s r.shelf r.dev = some k → leafAddr s r.shelf t va = some (a, g) →
      exec (.remoteHomeReply t va true leaf) s = .next (markReady
        (applyWrite (reachHome { s with remotes := s.remotes.filter fun r => r.tenant != t || r.page != va / 65536 } a 8)
          (atAddr a (bytesOf 8 (peerLeaf leaf k).toNat))) t (· == va / 65536))) ∧
    (r.at0 + 1000 * Config.clkPerUs ≤ s.clk →
      exec (.remoteHomeTimeout t va) s = .next (remoteFail s t (va / 65536) r.dev 2))) ∧
  (∀ pfn s, s.boot.ready = true → s.retired.contains pfn = false → s.failing.contains pfn = true →
    s.migrs.find? (fun m => m.kind == 4 && m.frame == pfn) = none →
    (frameMapping s pfn = none →
      exec (.frameRetire pfn) s = .next (retireReport { s with retired := s.retired ++ [pfn] } pfn none 0)) ∧
    (∀ t va e a, frameMapping s pfn = some (t, va) → homeWalk s t va = .leaf e false → findMigr s t (va / 65536) = none →
      MayBegin s { moveOf t va 4 e with frame := pfn } a →
      exec (.frameRetire pfn) s = .next (migrBegun s { moveOf t va 4 e with frame := pfn } a)) ∧
    (∀ t va e, frameMapping s pfn = some (t, va) → homeWalk s t va = .leaf e true →
      exec (.frameRetire pfn) s = .next (retireReport { s with retired := s.retired ++ [pfn] } pfn (some t) pfn))) ∧
  (∀ pfn s m a k u, s.boot.ready = true → s.retired.contains pfn = false → s.failing.contains pfn = true →
    s.migrs.find? (fun m => m.kind == 4 && m.frame == pfn) = some m →
    MayMove s m a k u → exec (.frameRetire pfn) s = .next (migrMoved s m a k u))

/-- WCTL's fields as an action reads them: its own where none is under way, else those that the one under way was written with. -/
def actedFields (s : State) (c : Nat) : DWord := if nget 0 s.wctl c = 0 then coreReg s c 0x44 0 else dw (nget 0 s.wctl c)

/-- WCTL's actions on the warp that its fields name (R317, R375, log entry 130). -/
def debugEvents : Prop :=
  (∀ c s w, wctlSlot s c (actedFields s c) = some w →
    (∀ t, let u := raiseEntries s w.core (scopeLevel s w 2)
     w.trap = some t → nget 0 s.wctl c = 0 ∨ nget 0 s.wctl c / 2 ^ 24 = 1 → waitingEntries u w.core (scopeLevel s w 2) = false →
      stopReady u w t = true →
      let x := released t.stopped [2] u.order w
      exec (.wctlResume c) s =
        .next (wctlPending (retryParks (resumeTrap (endHandler u x) x) x.uid) c 0 (actedFields s c))) ∧
    (∀ t w', w.trap.isSome = true → nget 0 s.wctl c = 0 ∨ nget 0 s.wctl c / 2 ^ 24 = 2 → exitLanes s w w.live = some t →
      let u := releaseTiles ((lanesOf w.live).foldl (fun s l => leaveWatch s w.uid l) (endHandler t w)) (w.olog.flatMap (·.tiles))
      findWarp u w.uid = some w' →
      exec (.wctlKill c) s = .next (wctlPending (putWarp (dropParked u w.uid) { w' with
        trap := none, run := none, paused := [], olog := [], halt := false
        pend := w'.pend.filter fun p => !w.olog.any fun e => e.src == p.src }) c 0 (actedFields s c)))) ∧
  ∀ c s w, wctlSlot s c (coreReg s c 0x44 0) = some w →
    exec (.wctlHalt c) s = .next (putWarp s { w with halt := true }) ∧
    (trapCfg s w 18 = true →
      exec (.wctlStepOn c) s =
        .next (putWarp s { w with step := true, stepm := BitVec.ofNat 2 (fld (coreReg s c 0x44 0) 13 12), depth := [] })) ∧
    exec (.wctlStepOff c) s = .next (putWarp s { w with step := false })

/-- Tarsor Links: cells of 52 payload bytes, sealed as they are sent, replay, training, failure (R321 to R325, R327, R385). -/
def linkEvents : Prop :=
  (∀ l c s, let k := linkAt s l
    k.st = 2 → isCell c = true →
    (c.kind.toNat = 0 → sendsAgain k = false → allowed k c.vc.toNat = true → k.unacked.length < 2048 →
      exec (.tarsorCellSend l c) s = .next (putLink s l (pushCell s.clk k c))) ∧
    (c.kind.toNat = 0 → sendsAgain k = true → exec (.tarsorCellSend l c) s = .next (sendAgain l s)) ∧
    (c.kind.toNat = 2 → k.wantReplay = true →
      exec (.tarsorCellSend l c) s = .next (putLink s l { k with wantReplay := false, ctl := some (sealCell k c) })) ∧
    let x := sealCell k { c with seq := k.next }
    x.seq = k.next ∧ x.aseq = k.expect ∧ x.free = nget 0 k.freed c.fvc.toNat ∧ cellGood x = true) ∧
  (∀ l c s, let k := linkAt s l
    k.st = 2 → isCell c = true → cellGood c = true → c.seq = k.expect →
    (c.kind = 0 → exec (.tarsorDataCell l c) s = .next (putLink s l (acceptCell (takeHeader s.clk k c) c c.payload))) ∧
    (∀ b, c.kind = 1 → refBlock k.rx c.payload = some b →
      exec (.tarsorDedupReference l c) s =
        .next (setCount (putLink s l (acceptCell (takeHeader s.clk k c) c b)) l 31 16 (linkCount s l 31 16 + 1)))) ∧
  (∀ l c s, let k := linkAt s l
    k.st = 2 → isCell c = true → c.kind = 0 → (cellGood c && c.seq == k.expect) = false →
    exec (.tarsorDataCell l c) s = .next (discardCell s l c)) ∧
  (∀ l c s, let k := linkAt s l
    k.st = 2 → isCell c = true → cellGood c = true →
    (c.kind = 2 → exec (.tarsorReplayRequest l c) s = .next (bumpCount (putLink s l (replayFrom (takeHeader s.clk k c))) l 47 32)) ∧
    (c.kind = 3 → exec (.tarsorIdleCell l c) s = .next (putLink s l (takeHeader s.clk k c)))) ∧
  (∀ l s, let k := linkAt s l
    k.st = 2 →
    (k.unacked.any (fun c => decide (16 ≤ k.replaysOf c)) = true → exec (.linkReplayLimit l) s = .next (retrain s l)) ∧
    (k.unacked ≠ [] → k.ackClk + 100 * Config.clkPerUs ≤ s.clk → exec (.linkAckTimeout l) s = .next (retrain s l)) ∧
    exec (.tlctlRetrain l) s = .next (retrain s l)) ∧
  (∀ l s, (linkAt s l).st = 3 →
    exec (.tlctlRetrain l) s = .next (retrain s l)) ∧
  (∀ l s, let k := linkAt s l
    k.st = 1 →
    exec (.linkTrainingDone l true) s = .next ((linkEnds l).foldl (fun t e => putLink t e (resend { linkAt t e with
      st := 2, sent := [], allow := [], freed := (freshLink 2).freed, fails := 0, ackClk := t.clk }))
      { s with lostTold := s.lostTold.filter fun e => e.1 != linkPort l }) ∧
    (k.fails + 1 < 3 → exec (.linkTrainingDone l false) s = .next (putLink s l { k with fails := k.fails + 1 })) ∧
    (3 ≤ k.fails + 1 → exec (.linkTrainingDone l false) s = .next (linkFailed s l))) ∧
  (∀ l v s, l < 16 → s.boot.ready = true → fbit v 0 = true → fbit v 2 = false → fbit (mget s (linkReg l 0x06)) 0 = false →
    let t := mput s (linkReg l 0x06) (dw (fld v 1 1 * 2 + 1))
    exec (.tlctlEnWrite l v) s = .next (putLink t l (trainEnd (linkAt t l)))) ∧
  (∀ l v s, l < 16 → fbit v 0 = false → fbit v 2 = false → fbit (mget s (linkReg l 0x06)) 0 = true →
    let t := mput s (linkReg l 0x06) (dw (fld v 1 1 * 2))
    exec (.tlctlEnWrite l v) s = .next (putLink t l { linkAt t l with st := 0 }))

/-- A register that is written by storing (R5, R408): one copy of a register whose write has no effect but to store its RW bits, and is
not ignored. -/
def PlainWrite (s : State) (num : Nat) : Prop :=
  regOk num = true ∧ numDom num ≠ 2 ∧ writeIgnored s (numFam num) (numIdx num) = false ∧
    numFam num ∈ ([0x01, 0x08, 0x09, 0x0A, 0x10, 0x11, 0x12, 0x13, 0x14, 0x15, 0x20, 0x22, 0x24, 0x27, 0x28, 0x40, 0x41, 0x42, 0x43] : List Nat)

/-- The register's new contents. -/
def plainWritten (s : State) (num : Nat) (v : DWord) : State :=
  mput s (mnum (numDom num) (numFam num) (numIdx num)) (v &&& rwMask (numFam num))

/-- The host mailbox (R326, R400, Table 16.7). -/
def mailboxEvents : Prop :=
  (∀ v s n, mbSlots s = some n →
    ((v.setWidth 16 - s.boot.mbtail).toNat ≤ n →
      exec (.mbheadWrite v) s = .next { s with boot := { s.boot with mbhead := v.setWidth 16, mbovr := false } }) ∧
    (n < (v.setWidth 16 - s.boot.mbtail).toNat →
      exec (.mbheadWrite v) s = .next { s with boot := { s.boot with mbovr := true } })) ∧
  (∀ c s, mbNext s = some c → s.boot.ready = true → mbMalformed c = false →
    let n := mbLen c
    (mbOp c = 1 → mbRange c.w1.toNat n = true → anyLocked s (addrsOf c.w1.toNat n) = false → anyHeld s (addrsOf c.w1.toNat n) = false →
      exec (.mbWrite c) s = .next (mbComplete ((List.range ((n + 7) / 8)).foldl
        (fun t k => applyWrite t (atAddr (c.w1.toNat + 8 * k) (((ngetRange 0 s.host c.w2.toNat n).drop (8 * k)).take 8))) s) c 0)) ∧
    (mbOp c = 2 → mbRange c.w1.toNat n = true → anyLocked s (addrsOf c.w1.toNat n) = false → poisonedAt s c.w1.toNat n = false →
      exec (.mbRead c) s =
        .next (mbComplete { fillBytes s c.w1.toNat n with host := nsetRange 0 s.host c.w2.toNat (homeBytes s c.w1.toNat n) } c 0)) ∧
    (∀ t, mbOp c = 3 → regWrite s c.w1.toNat c.w2 = some t → exec (.mbRegwr c) s = .next (mbComplete t c 0)) ∧
    (mbOp c = 3 → PlainWrite s c.w1.toNat → exec (.mbRegwr c) s = .next (mbComplete (plainWritten s c.w1.toNat c.w2) c 0)) ∧
    (mbOp c = 3 → regOk c.w1.toNat = false → exec (.mbRegwr c) s = .next (mbComplete s c 3)) ∧
    (mbOp c = 4 → regOk c.w1.toNat = false → exec (.mbRegrd c) s = .next (mbComplete s c 3)) ∧
    (let x := mget s (mnum (numDom c.w1.toNat) (numFam c.w1.toNat) (numIdx c.w1.toNat))
     mbOp c = 4 → PlainWrite s c.w1.toNat →
      exec (.mbRegrd c) s = .next (mbComplete { s with host := nsetRange 0 s.host c.w2.toNat (bytesOf 8 x.toNat) } c 0)) ∧
    (∀ x, mbOp c = 4 → regRead s c.w1.toNat = some x →
      exec (.mbRegrd c) s = .next (mbComplete { s with host := nsetRange 0 s.host c.w2.toNat (bytesOf 8 x.toNat) } c 0)) ∧
    (∀ e, mbOp c = 5 → findMigr s (fld c.w2 3 0) (c.w1.toNat / 65536) = none → homeWalk s (fld c.w2 3 0) c.w1.toNat = .leaf e false →
      leafSTATE e ≠ 2 → leafSTATE e ≠ 3 → inTier c e = false →
      exec (.mbMigrate c) s = .next (migrStart s
        { tenant := fld c.w2 3 0, page := c.w1.toNat / 65536, kind := mbKind c, leaf := e, failed := false, mb := true })) ∧
    (∀ e, mbOp c = 5 → findMigr s (fld c.w2 3 0) (c.w1.toNat / 65536) = none → homeWalk s (fld c.w2 3 0) c.w1.toNat = .leaf e false →
      leafSTATE e ≠ 2 → leafSTATE e ≠ 3 → inTier c e = true → exec (.mbMigrate c) s = .next (mbComplete s c 0)) ∧
    (mbOp c = 6 → s.boot.mbSave = false → queueClusters s (fld c.w2 3 0) (fld c.w2 6 4) ≠ [] →
      saveFits s (fld c.w2 3 0) ((queueClusters s (fld c.w2 3 0) (fld c.w2 6 4)).filter fun k => k.saving.isNone) = true →
      exec (.mbSave c) s = .next (onBoot
        (startSave s ((queueClusters s (fld c.w2 3 0) (fld c.w2 6 4)).filter fun k => k.saving.isNone)) fun b => { b with mbSave := true }))) ∧
  (∀ c s, mbNext s = some c → s.boot.ready = false → s.boot.stage = 8 → mbMalformed c = false → mbOp c = 7 → fbit c.w2 0 = false →
    c.w1.toNat + mbLen c ≤ Config.recoveryBytes →
    exec (.mbImage c) s = .next (mbComplete
      { s with sram := nsetRange 0 s.sram c.w1.toNat (ngetRange 0 s.host (c.w2.toNat / 2 * 2) (mbLen c)) } c 0))

/-- Bring-up, power and heat (R327 to R333, R397, R398). -/
def bringUpEvents : Prop :=
  (∀ s, exec .moduleReset s = .next
    { State.reset with agenda := s.agenda, free := s.free, fresh := s.fresh, flash := s.flash, host := s.host, peer := s.peer }) ∧
  (∀ s, s.boot.stage = 0 → exec (.romAndFuses none) s = .next (enterStage s 1)) ∧
  (∀ s, s.boot.stage = 1 → exec (.romAndFuses none) s = .next (enterStage s 2)) ∧
  (∀ s, s.boot.stage = 2 → exec (.calibration none) s =
    .next (enterStage { s with links := nset {} (nset {} s.links 16 (freshLink 2)) 17 (freshLink 2) } 3)) ∧
  (∀ s d, s.boot.stage = 2 → diagFits d = true → d.errc.toNat = 2 ∨ d.errc.toNat = 3 ∨ d.errc.toNat = 4 ∨ d.errc.toNat = 5 →
    exec (.calibration (some d)) s = .next (bringFail s d)) ∧
  (∀ die src id s, s.boot.stage = 3 → die ≠ src → die < 6 → src < 6 → id = Config.dieId src →
    s.clk ≤ s.boot.stageClk + 50000 * Config.clkPerUs →
    let t := { s with boot := { s.boot with ids := nset none s.boot.ids (8 * die + src) (some id) } }
    (Config.dieId die :: received t die).countP (· == id) = 1 →
    ((received t die).length = 5 ∧ (∀ x ∈ received t die, (Config.dieId die).toNat < x.toNat) →
      exec (.electionIdentifier die src id) s = .next (enterStage { t with boot := { t.boot with head := die } } 4)) ∧
    ((received t die).length ≠ 5 → exec (.electionIdentifier die src id) s = .next t)) ∧
  (∀ die s, s.boot.stage = 3 → s.boot.stageClk + 50000 * Config.clkPerUs ≤ s.clk →
    (∃ k < 6, k ≠ die ∧ nget none s.boot.ids (8 * k + die) = none) →
    exec (.electionTimeout die) s = .next (bringFail s (dieDiag 0x06 die))) ∧
  (∀ s, s.boot.stage = 4 →
    (imageCheck s.flash = none → exec .verification s =
      .next (enterStage { s with boot := { s.boot with fwsv := imgSvn s.flash } } 5)) ∧
    (∀ k, imageCheck s.flash = some k → exec .verification s = .next (bringFail s (dieDiag k s.boot.head)))) ∧
  (∀ s, s.boot.stage = 5 → s.clk ≤ s.boot.stageClk + 1000000 * Config.clkPerUs → exec .firmwareStart s = .next (enterStage s 6)) ∧
  (∀ s, s.boot.stage = 5 → s.boot.stageClk + 1000000 * Config.clkPerUs ≤ s.clk →
    exec .firmwareStartTimeout s = .next (bringFail s (dieDiag 0x0C s.boot.head))) ∧
  (∀ s, s.boot.stage = 6 → ∃ t, exec (.memoryInitialisation none) s = .next t ∧ t.boot.ready = true ∧ t.boot.stage = 7 ∧
    t.dram = [] ∧ t.l2b = [] ∧ t.poison = [] ∧ t.fmeta = [] ∧ t.readyClk = s.clk ∧ t.retired = [] ∧ t.boot.bdiag = 0) ∧
  (∀ die s, s.boot.stage = 7 → ∃ t, exec (.thermalTrip die) s = .next t ∧ t.boot.ready = false ∧ t.boot.stage = 9 ∧
    t.boot.errc = 0x10 ∧ t.warps = [] ∧ t.ctxs = [] ∧ t.clusters = []) ∧
  (∀ die s c k, passesDue s die = k → k ≠ 0 → ctxsOn s die = [c] → dieWeight s die c ≠ 0 →
    exec (.powerTokenPass die) s = .next (putCtx { s with ring := nset 0 s.ring die (nget 0 s.ring die + k) }
      { c with budget := min (c.budget + k * dieTok s die) (64 * dieTok s die) })) ∧
  (∀ die s, passesDue s die = 0 → exec (.powerTokenPass die) s = .next s) ∧
  (∀ flow tin tmax s, s.boot.ready = false → exec (.coolantOrDieTemperatureChange flow tin tmax) s = .next s) ∧
  (∀ flow tin tmax s, s.boot.ready = true → flow < 65536 → tin < 65536 → tmax < 1050 →
    ∃ t, exec (.coolantOrDieTemperatureChange flow tin tmax) s = .next t ∧
    t.warps = s.warps ∧ t.dram = s.dram ∧ t.boot = s.boot ∧
    pkgReg t 0x2C 0 = putFld (putFld (putFld (pkgReg s 0x2C 0) 47 32 flow) 31 16 tin) 15 0 tmax ∧
    (∀ d, d < 4 → dieTok t d ≤ (Config.fwTok d).toNat * min flow 400 / 400) ∧
    (∀ d, d < 4 → tin ≤ 350 → Config.nearLimit tmax = false → dieTok t d = (Config.fwTok d).toNat * min flow 400 / 400)) ∧
  (∀ flow tin tmax s, s.boot.ready = true → s.boot.stage = 7 → 1050 ≤ tmax → tmax < 65536 →
    ∃ t, exec (.coolantOrDieTemperatureChange flow tin tmax) s = .next t ∧ t.boot.ready = false ∧ t.boot.errc = 0x10 ∧ t.warps = [])

/-- Event-queue registers, tenant reset, register writes (R5, R275, R351, R378, R408). -/
def registerEvents : Prop :=
  (∀ n v s, (fld (pkgReg s 0x29 n) 15 0 + 2 ^ 16 - fld v 47 32) % 2 ^ 16 ≤ 2 ^ (fld (pkgReg s 0x28 n) 3 0 + 6) →
    exec (.eqidxCidxWrite n v) s = .next (pkgPut s 0x29 n (putFld (pkgReg s 0x29 n) 47 32 (fld v 47 32)))) ∧
  (∀ n v s, 2 ^ (fld (pkgReg s 0x28 n) 3 0 + 6) < (fld (pkgReg s 0x29 n) 15 0 + 2 ^ 16 - fld v 47 32) % 2 ^ 16 →
    exec (.eqidxCidxWrite n v) s = .next s) ∧
  (∀ n s, let x := pkgReg s 0x2A n
    exec (.eqctlClr n) s = .next (pkgPut s 0x2A n (putFld (putFld x 0 0 (fld x 0 0)) 63 48 0))) ∧
  (∀ t s, (resetting s t = true →
      exec (.tenantReset t) s = .next (pkgPut s 0x26 t (putFld (pkgReg s 0x26 t) 2 2 1))) ∧
    (resetting s t = false → exec (.tenantReset t) s = .next (resetBegin s t))) ∧
  (∀ t s, resetting s t = true → (∀ w ∈ s.allWarps, tenantOf s w = t → w.uid ≠ 0 → inClause w = false) → tenantMoving s t = false →
    ∃ u, exec (.tenantResetComplete t) s = .next u ∧ (∀ c ∈ u.ctxs, c.tenant ≠ t) ∧ (∀ x ∈ u.watches, x.tenant ≠ t) ∧
      ∀ e ∈ u.tlb, e.tenant ≠ t) ∧
  (∀ num v s t, num < 2 ^ 30 → regWrite s num v = some t → exec (.registerWrite num v) s = .next t) ∧
  (∀ num v s, num < 2 ^ 30 → PlainWrite s num → exec (.registerWrite num v) s = .next (plainWritten s num v)) ∧
  (∀ num v s, num < 2 ^ 30 → regOk num = false → exec (.registerWrite num v) s = .next s) ∧
  (∀ v s, exec (.registerWrite (2 ^ 30) v) s =
      .next { s with boot := { s.boot with mbqbase := v &&& (maskBits 63 6 ||| maskBits 3 0) } } ∧
    exec (.registerWrite (2 ^ 30 + 8) v) s = .next { s with boot := { s.boot with mbcbase := v &&& maskBits 63 4 } })

/-! Frames. -/

/-- Registers that an instruction's description names as results: kind (0 v, 1 s, 2 p, 3 q) and number. -/
def resultRegs (it : Item) (sp : Spec) : List (Nat × Nat) :=
  (sp.uses.filter fun u => match u with
    | .dstV _ => true
    | .dstS _ => true
    | .dstP _ => true
    | .dstNone => false
    | .dstData _ _ => false
    | .src _ _ _ => false
    | .vgrp _ _ _ => false
    | .unused _ => false
    | .pred _ _ => false).flatMap (useRegs it)

/-- The second result of COMPRESS and VOTE, and the scale of CVTP, stand in field C's register; PMOV writes the predicates its mask
selects. -/
def secondRegs (e : Row) : List (Nat × Nat) :=
  match e.i with
  | .compress _ => [(0, e.it.code .c)]
  | .vote _ => [(0, e.it.code .c)]
  | .cvtp _ => [(0, e.it.code .c)]
  | .pmov f =>
    if e.it.mb 59 then
      ((List.range 7).filter fun k => (e.it.m 58 52).testBit k).map fun k => (if f.md.getLsbD 8 then 3 else 2, k)
    else []
  | _ => []

/-- PART sets the tile size. -/
def setsPart (e : Row) : Bool :=
  match e.i with
  | .part _ => true
  | _ => false

/-- What an instruction of a row leaves unchanged: everything outside its warp; in the warp the registers that it does not name as
results, every register in the lanes that are not active, and all but registers, position, yield mark, the counters of .rs
and PART's tile size. -/
def RowFrame (e : Row) : Prop :=
  ∀ s r t, let named := resultRegs e.it (e.sp s s.cur r) ++ secondRegs e
    Ready s r e.it (e.sp s s.cur r) → Quiet s → exec e.i s = .next t →
    { t with cur := s.cur } = s ∧
    (∀ n l, l < 32 → (0, n) ∉ named ∨ lon (activeLanes s.cur r e.it) l = false → vget t.cur n l = vget s.cur n l) ∧
    (∀ n, (1, n) ∉ named → sget t.cur n = sget s.cur n) ∧
    (∀ n l, l < 32 → (2, n) ∉ named ∨ lon (activeLanes s.cur r e.it) l = false → pget t.cur n l = pget s.cur n l) ∧
    (∀ n, (3, n) ∉ named → qget t.cur n = qget s.cur n) ∧
    (∀ q, t.cur.run = some q → q.grp = r.grp ∧ q.tsz = r.tsz ∧ ∀ k, k ≠ r.slot % 4 → nget none q.lat k = nget none r.lat k) ∧
    (∀ m ∈ t.cur.parity, m ∈ s.cur.parity) ∧
    (∀ m ∈ s.cur.parity, (if m.1 = 4 then 3 else m.1, m.2.1) ∉ named → m ∈ t.cur.parity) ∧
    { t.cur with
      parity := s.cur.parity, v := s.cur.v, s := s.cur.s, p := s.cur.p, q := s.cur.q, run := s.cur.run, pc := s.cur.pc, yielded := s.cur.yielded
      rctr := if rndOf e.it = 4 then s.cur.rctr else t.cur.rctr
      part := if setsPart e then s.cur.part else t.cur.part } = s.cur

/-- Requirements of LDS and STS, of LDSM, of ATOMS, of REDS. -/
def ldsNeeds (it : Item) : Spec :=
  { uses := poolUses it ++ [.dstData (regsOf (accBytes it (ldsQ it))) (regsOf (accBytes it (ldsQ it)))]
    bads := memBads it (ldsTypes it) false 55 53 }
def ldsmNeeds (it : Item) : Spec :=
  { uses := poolUses it ++ [.dstData (ldsmN it) (ldsmN it)], bads := memBads it [8] false 55 54 }
def atomsNeeds (it : Item) : Spec :=
  { uses := atomUses it ++ [.dstData (regsOf (tyBytes it.mty)) (regsOf (tyBytes it.mty))], bads := atomBads it false false }
def redsNeeds (it : Item) : Spec := { uses := atomUses it ++ [.dstNone], bads := atomBads it true false }

/-- The pool address of a lane, as a load or store computes it. -/
def memAddr (s : State) (r : Run) (it : Item) : Nat → Nat := poolAddr s s.cur r.arrived it

/-- A pool load leaves everything outside its warp, and in it all but its destination registers in active lanes. -/
def loadFrame (i : Instr) (it : Item) (sp : Spec) (n align k : Nat) : Prop :=
  ∀ s r t, let act := lanesOf (activeLanes s.cur r it)
    Ready s r it sp → Quiet s → (∀ l ∈ act, poolReadCheck s s.cur (memAddr s r it l) n align = none) →
    dataWatch s s.cur act true true false (fun l => memAddr s r it l % 2 ^ 20) n = false → exec i s = .next t →
    { t with cur := s.cur, fresh := s.fresh } = s ∧
    (∀ m l, l < 32 → m < it.d ∨ it.d + k ≤ m ∨ lon (activeLanes s.cur r it) l = false → vget t.cur m l = vget s.cur m l) ∧
    { t.cur with
      parity := s.cur.parity, v := s.cur.v, run := s.cur.run, pc := s.cur.pc, yielded := s.cur.yielded, obsAny := s.cur.obsAny } = s.cur

/-- A pool store of `n` bytes a lane leaves every pool byte outside the lanes' bytes, every register, and everything else. -/
def storeFrame (i : Instr) (it : Item) (sp : Spec) (n : Nat) : Prop :=
  ∀ s r t, let act := lanesOf (activeLanes s.cur r it)
    let at_ := fun l => let p := poolLoc s s.cur (memAddr s r it l) n; poolKey p.1 p.2
    Ready s r it sp → Quiet s → (∀ l ∈ act, poolCheck s s.cur (memAddr s r it l) n n true = none) →
    dataWatch s s.cur act true false true (fun l => memAddr s r it l % 2 ^ 20) n = false → exec i s = .next t →
    (∀ k, (∀ l ∈ act, k < at_ l ∨ at_ l + n ≤ k) → nget 0 t.pool k = nget 0 s.pool k) ∧
    { t with cur := s.cur, fresh := s.fresh, pool := s.pool, poolPoison := s.poolPoison } = s ∧
    { t.cur with run := s.cur.run, pc := s.cur.pc, yielded := s.cur.yielded, obsAny := s.cur.obsAny } = s.cur

/-- A pool atomic leaves every pool byte outside the lanes' operands, and the registers that it does not name. -/
def atomFrame (i : Instr) (it : Item) (sp : Spec) (k : Nat) : Prop :=
  ∀ s r t, let act := lanesOf (activeLanes s.cur r it)
    let n := tyBytes it.mty
    let addr := atomAddr s s.cur r.arrived it
    let at_ := fun l => let p := poolLoc s s.cur (addr l) n; poolKey p.1 p.2
    Ready s r it sp → Quiet s → (∀ l ∈ act, poolReadCheck s s.cur (addr l) n n = none) →
    dataWatch s s.cur act true true true (fun l => addr l % 2 ^ 20) n = false → exec i s = .next t →
    (∀ j, (∀ l ∈ act, j < at_ l ∨ at_ l + n ≤ j) → nget 0 t.pool j = nget 0 s.pool j) ∧
    { t with cur := s.cur, fresh := s.fresh, pool := s.pool, poolPoison := s.poolPoison } = s ∧
    (∀ m l, l < 32 → m < it.d ∨ it.d + k ≤ m ∨ lon (activeLanes s.cur r it) l = false → vget t.cur m l = vget s.cur m l) ∧
    { t.cur with
      parity := s.cur.parity, v := s.cur.v, run := s.cur.run, pc := s.cur.pc, yielded := s.cur.yielded, obsAny := s.cur.obsAny } = s.cur

/-- No byte of any memory, and no register of the warp. -/
def sameBytes (s t : State) : Prop :=
  t.pool = s.pool ∧ t.cstore = s.cstore ∧ t.dram = s.dram ∧ t.l2b = s.l2b ∧ t.host = s.host ∧ t.peer = s.peer
def sameRegs (s t : State) : Prop :=
  t.cur.v = s.cur.v ∧ t.cur.s = s.cur.s ∧ t.cur.p = s.cur.p ∧ t.cur.q = s.cur.q
def sameWarp (s t : State) : Prop :=
  { t.cur with run := s.cur.run, pc := s.cur.pc, yielded := s.cur.yielded } = s.cur

/-- Requirements of a tile-free barrier instruction. -/
def btestNeeds (it : Item) : Spec := { uses := barUses accAny (.src .b vtCount accAny) (.dstP false), bads := modNone it }
def fenceNeeds (it : Item) : Spec :=
  { uses := noUses, bads := ptBads it ++ modOutside it 54 52 ++ opdBad (it.m 54 52 = 7) 6 7 }

/-- BTEST and FENCE change no byte of any memory; BTEST changes only the predicate that DST names, in active lanes, and FENCE no
register. -/
def waitlessFrame (f : Long) : Prop :=
  (∀ s r t, let it := longItem 0x1A4 false f
    let act := lanesOf (activeLanes s.cur r it)
    Ready s r it (btestNeeds it) → Quiet s → r.transit = false →
    ObjectsUsable s act (operand s s.cur r it vtCount .a) → exec (.btest f) s = .next t →
    { t with cur := s.cur } = s ∧ t.cur.v = s.cur.v ∧ t.cur.s = s.cur.s ∧ t.cur.q = s.cur.q ∧
    (∀ n l, l < 32 → n ≠ it.d ∨ lon (activeLanes s.cur r it) l = false → pget t.cur n l = pget s.cur n l)) ∧
  (∀ s r t, let it := longItem 0x1A5 false f
    Ready s r it (fenceNeeds it) → Quiet s → exec (.fence f) s = .next t → sameBytes s t ∧ sameRegs s t)

/-- BINIT and EXPECT: no pool byte outside the object's sixteen changes, where no flip is due. -/
def objectFrame (f : Long) : Prop :=
  ∀ s r t, let it := longItem 0x1A0 true f
    let a := operand s s.cur r it vtCount .a 0
    let b := operand s s.cur r it vtCount .b 0
    let p := poolLoc s s.cur a 16
    Ready s r it
      { uses := barUses accSync (.src .b vtCount accSync) .dstNone
        bads := modOutside it 54 52 ++ opdBad (it.m 54 52 < 2 || it.m 54 52 = 7) 6 (it.m 54 52) ++ opdBad (b = 0 || 16383 < b) 8 b } →
    Quiet s → guardU s.cur it = true → poolCheck s s.cur a 16 16 true = none → exec (.binit f) s = .next t →
    (∀ k, k < poolKey p.1 p.2 ∨ poolKey p.1 p.2 + 16 ≤ k → nget 0 t.pool k = nget 0 s.pool k) ∧
    { t with cur := s.cur, fresh := s.fresh, pool := s.pool, poolPoison := s.poolPoison, barSigs := s.barSigs } = s ∧ sameRegs s t

/-- An instruction that its guard turns off in every lane, or that reads only, and the system instructions. -/
def systemFrame (f : Long) : Prop :=
  (∀ s r t, let it := longItem 0x1C0 false f
    let n := it.m 60 52
    let sp : Spec := ((readRow (.rdsr f) it n (it.mb 63)).sp s s.cur r)
    Ready s r it sp → Quiet s → exec (.rdsr f) s = .next t →
    { t with cur := s.cur } = s ∧
    (∀ m l, l < 32 → (0, m) ∉ resultRegs it sp ∨ lon (activeLanes s.cur r it) l = false → vget t.cur m l = vget s.cur m l) ∧
    (∀ m, (1, m) ∉ resultRegs it sp → sget t.cur m = sget s.cur m) ∧ t.cur.p = s.cur.p ∧ t.cur.q = s.cur.q) ∧
  (∀ s r t, let it := longItem 0x007 false f
    Ready s r it (emptySpec it false) → Quiet s → exec (.yield f) s = .next t → { t with cur := s.cur } = s ∧ sameRegs s t)

/-! The whole machine. -/

/-- A turn runs the instruction that the running clause's parcels encode, on the warp whose turn it is; an event is run as it stands
(log entry 1). One whose access a home holds until DRAIN clears waits (R57). -/
def stepRuns : Prop :=
  (∀ s t c q n w r i rest, let u := { s with agenda := t }
    s.agenda = .turn c q n :: t → warpAt u c q n = some w → (focus u w.uid).cur.run = some r →
    decodeParcels r.body = .ok (i, rest) → step s = heldBack u (exec i (focus u w.uid))) ∧
  (∀ s t i, s.agenda = .event i :: t → step s = heldBack { s with agenda := t } (exec i { s with agenda := t })) ∧
  (∀ s t : State, heldBack s (.next t) = .next (if t.early = s.early then t else s)) ∧
  (∀ s pa n, draining s = false → reachHome s pa n = s) ∧
  (∀ s pa, draining s = true → paLocal pa = true → anyMoved s (pa / 256 * 256) = true → (reachHome s pa 1).early = s.early + 1) ∧
  (∀ s t u, s.agenda = .upset u :: t → step s = .next (strike u { s with agenda := t })) ∧
  (∀ (s : State) nbits w, let ps := natParcels 3 (w % 2 ^ nbits)
    ∀ i rest, decodeParcels (ps.take (itemParcels (ps.getD 0 0))) = .ok (i, rest) →
    let u := { s.withFetchWord nbits w with agenda := s.agenda }
    step (s.withFetchWord nbits w) = heldBack u (exec i u))

/-- A clause's parcels are those that stand at its address: two of the header, PLEN of the body from 8 bytes past it, each read
where its page translates (R105, R106). -/
def clauseFetched : Prop :=
  (∀ s core ten va hdr body t, fetchClause s core ten va = (.clause hdr body, t) →
    ∃ ws u, fetchParcels core ten 2 va s = (.ok ws, u) ∧ ws.length = 2 ∧ lengthCode (ws.getD 0 0) = 3 ∧
      hdr = ws.getD 1 0 ++ ws.getD 0 0 ∧ fetchParcels core ten (fld hdr 11 6) (va + 8) u = (.ok body, t) ∧
      body.length = fld hdr 11 6) ∧
  (∀ s core ten n va w ws t, fetchParcels core ten (n + 1) va s = (.ok (w :: ws), t) →
    ∃ u, codeParcel s core ten (va % 2 ^ 60) = (.ok w, u) ∧ fetchParcels core ten n (va + 4) u = (.ok ws, t)) ∧
  (∀ s core ten va w t, va < 2 ^ 60 → codeParcel s core ten va = (.ok w, t) →
    ∃ pa u, fetchAddr s (coreShelf core) ten va = (.ok pa, u) ∧
      w ∈ parcelValues u core pa)

/-- Codes of each group of Table 6.10, from index 0 on. -/
def groupSizes : List Nat := [10, 14, 23, 5, 9, 9, 11, 11, 5, 4, 6, 4, 7, 13, 8]

/-- Every code of Table 6.10 is an instruction and no other is; every short code of Table 6.11 is one; a reserved code stops
the group with the illegal-encoding fault (R124, R125). -/
def opcodesAssigned : Prop :=
  (∀ opc f, (longInstr opc f).isSome = true ↔ opc % 32 < groupSizes.getD (opc / 32) 0) ∧
  (∀ sop f, sop < 64 → (shortInstr sop f).isSome = true) ∧
  (∀ w w1 rest f, lengthCode w = 1 → longInstr (opcOf w) f = none → decodeParcels (w :: w1 :: rest) = .error (.opcode (opcOf w))) ∧
  (∀ s t c q n w r e, let u := { s with agenda := t }
    s.agenda = .turn c q n :: t → warpAt u c q n = some w → (focus u w.uid).cur.run = some r →
    breakLanes (focus u w.uid) (focus u w.uid).cur r = 0 → decodeParcels r.body = .error e →
    step s = heldBack u (.next (preciseFault (focus u w.uid) r
      { cause := 0x02, info0 := 1, info1 := 2, aux := r.body.getD 1 0 ++ r.body.getD 0 0
        addr := if lengthCode (r.body.getD 0 0) = 2 then (r.body.getD 2 0).setWidth 64 else 0 })))

/-- Words written out from the encodings of the examples in the spec decode to the instructions that they stand for. -/
def wordsDecode : Prop :=
  let z : Long := { md := 0, gn := false, gp := 7, c := 0, b := 0, a := 0, nowb := false, dst := 0, lit := none }
  decodeTableWord 32 0x0A020858 = some (.fmulShort { b7 := 0x05, a := 0x002, dst := 0x08 }) ∧
  decodeTableWord 64 0x58010480F0100209 =
    some (.ffma { z with md := 0x580, gp := 1, c := 0x009, b := 0x003, a := 0x180, nowb := true }) ∧
  decodeTableWord 64 0x10070300C0404119 = some (.imadw { z with md := 0x100, c := 0x006, b := 0x003, a := 0x002, dst := 0x04 }) ∧
  decodeTableWord 64 0x78070002C0E03301 = some (.cvt { z with md := 0x780, b := 0x00B, a := 0x007, dst := 0x03 }) ∧
  decodeTableWord 64 0x0001000038600709 = some (.trap { z with gp := 1, a := 0x1C3 }) ∧
  decodeTableWord 64 0x6007844562810501 = some (.tcopy { z with md := 0x600, c := 0x108, b := 0x115, a := 0x114, dst := 0x10 }) ∧
  decodeTableWord 64 0x000700000000360D = some (.sign { z with dst := 0x03 }) ∧
  decodeTableWord 96 0x00001A830D07204282040602 =
    some (.mma { z with md := 0x0D0, c := 0x040, b := 0x10A, a := 0x010, dst := 0x40, lit := some 0x1A83 }) ∧
  decodeTableWord 64 0x08018040A1C0048D = some (.gather { z with md := 0x080, gp := 1, c := 0x100, b := 0x102, a := 0x10E }) ∧
  decodeTableWord 96 0x000443945047000000004616 = some (.chrunTile { z with md := 0x504, dst := 0x04, lit := some 0x44394 })

/-- From every state whose next event, if one is said, is a step of the device, a step answers a next state. -/
def stepNeverStops : Prop :=
  ∀ s : State, (∀ i, s.agenda.head? = some (.event i) → i.form = .device) → s.goesOn

/-- An instruction whose accesses are under way over the Causeway waits (R50), one that an enabled breakpoint meets stops before it, one
whose registers are pending waits, one that fails its checks takes the fault of the first failing check with no other effect, and one
that reads a register whose parity failed takes the trap of cause 0x83 with no other effect (R120, R315, R355, R383). Between the
encoding checks and the others that trap stands (log entry 38). -/
def issueOrder (e : Row) : Prop :=
  ∀ s r, s.cur.run = some r →
    (r.transit = true → exec e.i s = .next s) ∧
    (r.transit = false → breakLanes s s.cur r ≠ 0 →
      exec e.i s = .next (takeTrap s { cause := 0xC2, pc := r.pc.toNat, lanes := breakLanes s s.cur r } r.grp (some r))) ∧
    (r.transit = false → breakLanes s s.cur r = 0 →
      blocked s.cur r (e.sp s s.cur r).wide (specRegs e.it (e.sp s s.cur r)) = true →
      exec e.i s = .next s) ∧
    (∀ b, r.transit = false → breakLanes s s.cur r = 0 →
      blocked s.cur r (e.sp s s.cur r).wide (specRegs e.it (e.sp s s.cur r)) = false →
      firstBad (specBads s s.cur r e.it (e.sp s s.cur r)) = some b →
      b.enc = true ∨ lostRead s s.cur r e.it (e.sp s s.cur r) = none → exec e.i s = .next (badTrap s r e.it b)) ∧
    (∀ c, r.transit = false → breakLanes s s.cur r = 0 →
      blocked s.cur r (e.sp s s.cur r).wide (specRegs e.it (e.sp s s.cur r)) = false →
      lostRead s s.cur r e.it (e.sp s s.cur r) = some c →
      (∀ b, firstBad (specBads s s.cur r e.it (e.sp s s.cur r)) = some b → b.enc = false) → exec e.i s = .next (parityTrap s r c))

/-- The rows of the families that are stated row by row. -/
def integerRows (f : Long) (g : Short) : List Row :=
  arithmeticRows f g ++ bitRows f g ++ chooseRows f ++ predicateRows f
def floatRows (f : Long) (g : Short) : List Row :=
  fp32Rows f g ++ packedRows f g ++ convertRows f g ++ sfuRows f g
def warpRows (f : Long) (g : Short) : List Row := laneRows f g ++ tileRows f

/-- The shifts of R149 in the words of bit vectors. -/
def shiftsFollow : Prop :=
  (∀ w a n wrap, w = 32 ∨ w = 64 → a < 2 ^ w →
    let k := if wrap then n % w else n
    shiftVal 0 w a n wrap = (BitVec.ofNat w a <<< k).toNat ∧ shiftVal 1 w a n wrap = (BitVec.ofNat w a >>> k).toNat ∧
      shiftVal 2 w a n wrap = ((BitVec.ofNat w a).sshiftRight k).toNat) ∧
  (∀ (a b : Word) n wrap,
    let k := if wrap then n % 32 else min n 32
    funnel true wrap a.toNat b.toNat n = (((b ++ a : BitVec 64) <<< k).extractLsb' 32 32).toNat ∧
      funnel false wrap a.toNat b.toNat n = (((b ++ a : BitVec 64) >>> k).extractLsb' 0 32).toNat) ∧
  (∀ f g, ∀ e ∈ (bitRows f g).take 7, e.Completes)

/-- Checks of ICMP beside its types and codes. -/
def icmpNeeds (it : Item) (bads : List Bad) : Spec :=
  { uses := srcUses false [vtOf it.ty, vtOf it.ty] ++ [.dstP false], bads := bads }

/-- ICMP and ISEL (R152). -/
def compareFollows : Prop :=
  (∀ f, ∀ e ∈ (chooseRows f).take 4, e.Completes ∧ RowFrame e) ∧
  (∀ f s r, let it := longItem 0x055 false f
    s.cur.run = some r → r.transit = false → breakLanes s s.cur r = 0 →
    blocked s.cur r false (specRegs it (icmpNeeds it [])) = false →
    specBads s s.cur r it (icmpNeeds it []) = [] → it.m 55 52 = 0 → nothingLost s.cur r = true →
    (it.ty ∉ ([2, 3, 6, 7, 8, 9] : List Nat) → exec (.icmp f) s = .next (badTrap s r it ⟨false, 5, it.ty⟩)) ∧
    (it.ty ∈ ([8, 9] : List Nat) → 2 ≤ it.m 58 56 → exec (.icmp f) s = .next (badTrap s r it ⟨false, 6, it.m 58 56⟩)) ∧
    (it.ty ∈ ([2, 3, 6, 7] : List Nat) → 6 ≤ it.m 58 56 → exec (.icmp f) s = .next (badTrap s r it ⟨false, 6, it.m 58 56⟩)))

/-- SIGN of a register that is not valid, or is another warp's, raises the convergence fault in every lane (R210). -/
def signFaults (f : Long) : Prop :=
  ∀ s r b, let it := longItem 0x183 false f
    let k := convOf b (it.d % 16)
    Ready s r it (signNeeds it) → blockOf s s.cur = some b → activeLanes s.cur r it ≠ 0 → (k.v = false ∨ k.warp ≠ s.cur.wid) →
    exec (.sign f) s = .next (preciseFault s r
      { cause := 0x09, addr := dw 0, asp := 1, info0 := 1, info1 := it.d % 16, aux := dw (k.dropped.toNat * 2 ^ 32 + k.arrived.toNat) })

/-- A pool address whose member index names no member is suppressed with the pool-bounds fault; index 14 names the executing
core (R32). -/
def memberIndex : Prop :=
  (∀ s w c a n, clusterOf s w = some c → c.cores.length ≤ 12 → bitsN a 31 24 = 0 → n ≤ 16 →
    let m := bitsN a 23 20
    (m = 12 ∨ m = 13 ∨ m = 15 ∨ (m < 12 ∧ c.cores.length ≤ m) → poolAt s w a n = .error 3) ∧
    (∀ core o, m = 14 → poolAt s w a n = .ok (core, o) → core = w.core) ∧
    (∀ core o, m < c.cores.length → poolAt s w a n = .ok (core, o) → c.cores[m]? = some core)) ∧
  (∀ f s r l, let it := longItem 0x100 false f
    let n := accBytes it (ldsQ it)
    Ready s r it (ldsNeeds it) → lanesOf (activeLanes s.cur r it) = [l] → memAddr s r it l % n = 0 →
    poolAt s s.cur (memAddr s r it l) n = .error 3 →
    exec (.lds f) s = .next (laneFault s r.arrived it l ⟨0x20, 3, dw (memAddr s r it l), 2⟩)) ∧
  (∀ f s r l, let it := longItem 0x102 false f
    let n := accBytes it (ldsQ it)
    Ready s r it (ldsNeeds it) → lanesOf (activeLanes s.cur r it) = [l] → memAddr s r it l % n = 0 →
    poolAt s s.cur (memAddr s r it l) n = .error 3 →
    exec (.sts f) s = .next (laneFault s r.arrived it l ⟨0x20, 3, dw (memAddr s r it l), 2⟩))

/-- A misaligned pool access stops its group with cause 0x06 (R176). -/
def misalignedStops : Prop :=
  ∀ f s r l, let it := longItem 0x102 false f
    let n := accBytes it (ldsQ it)
    Ready s r it (ldsNeeds it) → lanesOf (activeLanes s.cur r it) = [l] → memAddr s r it l % n ≠ 0 →
    exec (.sts f) s = .next (laneFault s r.arrived it l ⟨0x06, Nat.log2 n, dw (memAddr s r it l), 2⟩)

/-- Taking a trap on a warp that is no handler's: the lanes stop with the record, the others of the group are held, the
clause is kept, every lane of the group stands at its place in it, no clause runs, and no register or pool byte changes (R311). -/
def trapTaken : Prop :=
  ∀ s rep r, s.cur.handler = false →
    let t := takeTrap s rep r.grp (some r)
    t.cur.run = none ∧
    (∃ x, t.cur.trap = some x ∧ x.cause = BitVec.ofNat 8 rep.cause ∧ x.stopped = rep.lanes ∧
      x.held = r.grp &&& s.cur.live &&& ~~~ rep.lanes ∧ x.run = some r ∧ x.moved = 0) ∧
    t.cur.pc = (setPcs s.cur r.grp r.pc).pc ∧ sameRegs s t ∧ t.pool = s.pool ∧ t.cur.live = s.cur.live ∧ t.seq = s.seq + 1

/-- Handler-only instructions (R256). -/
def handlerOnly (f : Long) : Prop :=
  ∀ s r, s.cur.run = some r → r.transit = false → s.cur.handler = false → breakLanes s s.cur r = 0 → s.cur.pend = [] →
    nothingLost s.cur r = true →
    (let it := longItem 0x1C4 false f
     specBads s s.cur r it { uses := noUses, bads := ptBads it ++ modNone it } = [] →
        exec (.tret f) s = .next (badTrap s r it ⟨false, 10, 0⟩)) ∧
    (let it := longItem 0x1C7 true f
     specBads s s.cur r it
        { uses := barUses accSync (.src .b vtCount accSync) .dstNone
          bads := encBad (it.m 63 56 ≠ 0) 7 56 ++ opdBad (it.m 54 52 = 7) 6 7 } = [] →
        exec (.baredit f) s = .next (badTrap s r it ⟨false, 10, 0⟩))

/-- The module after reset (R5, R275, R327, R330). -/
def afterReset : Prop :=
  let s := State.reset
  s.boot.ready = false ∧ s.boot.stage = 0 ∧ s.boot.errc = 0 ∧ s.boot.mbhead = 0 ∧ s.boot.mbtail = 0 ∧ s.warps = [] ∧ s.ctxs = [] ∧
  s.clusters = [] ∧ s.staging = [] ∧ s.watches = [] ∧ s.seq = 0 ∧
  (∀ i, i < 128 → pkgReg s 0x20 i = 0 ∧ pkgReg s 0x21 i = 0 ∧ pkgReg s 0x22 i = 0x100000 ∧ pkgReg s 0x23 i = 0) ∧
  (∀ t, t < 16 → shelfReg s 0 0x14 t = 1 ∧ shelfReg s 1 0x14 t = 1 ∧ shelfReg s 0 0x11 t = 0 ∧ pkgReg s 0x26 t = 0)

/-- Memory operations keep the canonical form: pool and home writes, objects, row instructions. -/
def canonicalKept : Prop :=
  (∀ s core off bs, s.memWf = true → (poolStore s core off bs).memWf = true) ∧
  (∀ s core who ws, s.memWf = true → (applyWriteBy core who s ws).memWf = true) ∧
  (∀ s line, s.memWf = true → (writeBack s line).memWf = true) ∧
  (∀ s n ws, s.memWf = true → (eqAppend s n ws).memWf = true) ∧
  (∀ s k core off, s.memWf = true → (flipCheck s k core off).memWf = true)

/-- Decoding the encoding of a well-formed instruction gives it back, with the parcels after it. -/
def encodeDecodes : Prop :=
  ∀ i rest, i.wf = true → i.form ≠ .device → decodeParcels (encode i ++ rest) = .ok (i, rest)

/-- What decodes is well-formed, no step of the device, and encodes to the parcels read. -/
def decodeEncodes : Prop :=
  ∀ ps i rest, decodeParcels ps = .ok (i, rest) → i.wf = true ∧ i.form ≠ .device ∧ encode i ++ rest = ps

end Sys2Proof.Machine

open Sys2Proof Sys2Proof.Machine

/-! The step, fetch, encodings. -/

/-- A turn runs the instruction that the running clause's parcels encode; an event runs as it stands (the agenda is the model's own, log entries 1 and 11) (R57, R105, R109). -/
def Obligations.StepRunsTheDecodedInstruction : Prop := stepRuns

/-- A fetched clause is the header and the PLEN parcels that stand at its address (R105, R106, R110). -/
def Obligations.ClauseIsTheBytesAtItsAddress : Prop := clauseFetched

/-- Decoding the encoding of every well-formed instruction gives it back, with the parcels after it (R112, R124, R125). -/
def Obligations.EncodedInstructionsDecodeBack : Prop := encodeDecodes

/-- What decodes is well-formed, is no step of the device, and encodes to exactly the parcels read (R112, R124, R125). -/
def Obligations.DecodedParcelsEncodeBack : Prop := decodeEncodes

/-- A long opcode is an instruction exactly where Table 6.10 lists it; a reserved one raises the illegal-encoding fault (R124, R125, R357, R111). -/
def Obligations.AssignedOpcodesAndReservedFault : Prop := opcodesAssigned

/-- Ten words that the spec's examples give decode to the instructions and fields they give (R112, R124, R125, R148). -/
def Obligations.ExampleWordsDecode : Prop := wordsDecode

/-- From every state whose next event, if one is said, is a step of the device, a step answers a next state (R111, R311). -/
def Obligations.EveryStepAnswersANextState : Prop := stepNeverStops

/-- First a breakpoint stops lanes, a pending register waits, a failing check faults, a lost register traps (place among checks: log entry 38) (R111, R120, R315, R319, R355, R383). -/
def Obligations.IssueOrderOfEveryRow : Prop :=
  ∀ f g, ∀ e ∈ integerRows f g ++ uniformRows f g ++ floatRows f g ++ warpRows f g ++ idleRows f g ++ systemRows f g, issueOrder e

/-! Instructions on registers. -/

/-- Integer, bit, compare, address and predicate instructions complete with the results of their tables (R117, R148, R149, R150, R151, R152, R154, R155). -/
def Obligations.IntegerInstructionsComplete : Prop := ∀ f g, ∀ e ∈ integerRows f g, e.Completes

/-- Uniform moves, arithmetic, logic and shifts complete with their results in the warp's s registers (R115, R117, R146). -/
def Obligations.UniformInstructionsComplete : Prop := ∀ f g, ∀ e ∈ uniformRows f g, e.Completes

/-- Floating-point, packed, conversion and special-function instructions complete with their rounded results (R88, R100, R101, R157, R158, R159, R160, R161, R162, R163, R166). -/
def Obligations.FloatInstructionsComplete : Prop := ∀ f g, ∀ e ∈ floatRows f g, e.Completes

/-- Lane and tile instructions complete: moves, permutes, shuffles, votes, folds, packs, tile conversions, PART and PMOV (R26, R155, R164, R165, R168, R169, R170, R171, R172, R173, R174). -/
def Obligations.LaneInstructionsComplete : Prop := ∀ f g, ∀ e ∈ warpRows f g, e.Completes

/-- Instructions on registers change only their results, the position, the counters of .rs and PART's tile size (R116, R117, R139, R153). -/
def Obligations.RegisterInstructionsFrame : Prop :=
  ∀ f g, ∀ e ∈ integerRows f g ++ uniformRows f g ++ floatRows f g ++ warpRows f g, RowFrame e

/-- SHL, SHR, SHA and SHF are the bit-vector shifts by the count, or by the count modulo the width under .wrap (R149). -/
def Obligations.ShiftsMoveBits : Prop := shiftsFollow

/-- ICMP writes the truth of the compare to its predicate in active lanes; ISEL selects; other types and codes fault (R152). -/
def Obligations.CompareAndSelect : Prop := compareFollows

/-- SLDP reads the parameter window at its offset, extended to the register (R47, R147). -/
def Obligations.ParameterLoads : Prop :=
  ∀ f g, sldpCompletes (.sldp f) (longItem 0x02D true f) ∧ sldpCompletes (.sldpShort g) (shortItem 0x3C true 0x400 g)

/-! Control. -/

/-- BRA, BRX, CALL, CALLX and RET: active lanes stand at their targets, the others past the clause, links are written (R106, R138, R139, R318). -/
def Obligations.TransfersGoToTheirTargets : Prop :=
  ∀ f, let u := f.md.getLsbD 0
    transferCompletes (.bra f) (longItem 0x000 u f) true false false ∧ transferCompletes (.brx f) (longItem 0x001 u f) false false false ∧
    transferCompletes (.call f) (longItem 0x002 u f) true true false ∧ transferCompletes (.callx f) (longItem 0x003 u f) false true false ∧
    transferCompletes (.ret f) (longItem 0x004 u f) false false true

/-- EXIT ends its lanes, YIELD ends the clause, NOP does nothing, RCV sets the hint (R140, R141, R142). -/
def Obligations.ExitYieldNopHint : Prop :=
  ∀ f g, (∀ e ∈ idleRows f g, e.Completes) ∧ hintCompletes (.rcv f) (longItem 0x006 false f) ∧
    exitCompletes (.exit f) (longItem 0x005 false f) ∧ exitCompletes (.exitShort g) (shortItem 0x3F false 0x0 g)

/-! Memory. -/

/-- LDS, LDSM and TOWN complete: each active lane's registers hold the pool bytes, or the tile's owner and count (R32, R49, R175, R176, R177, R199). -/
def Obligations.PoolLoadsComplete : Prop :=
  ∀ f g,
    (let it := longItem 0x100 false f
     loadCompletes (.lds f) it (ldsNeeds it) (accBytes it (ldsQ it)) (accBytes it (ldsQ it))) ∧
    (let it := shortItem 0x29 false 0x80 g
     loadCompletes (.ldsB32Short g) it (ldsNeeds it) (accBytes it (ldsQ it)) (accBytes it (ldsQ it))) ∧
    (let it := shortItem 0x2A false 0x90 g
     loadCompletes (.ldsB64Short g) it (ldsNeeds it) (accBytes it (ldsQ it)) (accBytes it (ldsQ it))) ∧
    (let it := longItem 0x101 false f
     loadCompletes (.ldsm f) it (ldsmNeeds it) (4 * ldsmN it) (min (4 * ldsmN it) 16)) ∧
    townCompletes (.town f) (longItem 0x145 false f)

/-- STS completes: each active lane's bytes stand in the pool, lanes in increasing order (R32, R175, R176, R177). -/
def Obligations.PoolStoresComplete : Prop :=
  ∀ f g,
    (let it := longItem 0x102 false f
     storeCompletes (.sts f) it (ldsNeeds it) (accBytes it (ldsQ it))) ∧
    (let it := shortItem 0x2B false 0x80 g
     storeCompletes (.stsB32Short g) it (ldsNeeds it) (accBytes it (ldsQ it))) ∧
    (let it := shortItem 0x2C false 0x90 g
     storeCompletes (.stsB64Short g) it (ldsNeeds it) (accBytes it (ldsQ it)))

/-- ATOMS and REDS complete: each pool address takes its lanes' operands in one application (R175, R176, R178). -/
def Obligations.PoolAtomicsComplete : Prop :=
  ∀ f, (let it := longItem 0x103 false f
        atomCompletes (.atoms f) it (atomsNeeds it) true) ∧
    (let it := longItem 0x104 false f
     atomCompletes (.reds f) it (redsNeeds it) false)

/-- Pool loads, stores and atomics change only their registers and their lanes' bytes (R50, R175, R177, R178). -/
def Obligations.PoolAccessFrames : Prop :=
  ∀ f g,
    (let it := longItem 0x100 false f
     loadFrame (.lds f) it (ldsNeeds it) (accBytes it (ldsQ it)) (accBytes it (ldsQ it)) (regsOf (accBytes it (ldsQ it)))) ∧
    (let it := shortItem 0x29 false 0x80 g
     loadFrame (.ldsB32Short g) it (ldsNeeds it) (accBytes it (ldsQ it)) (accBytes it (ldsQ it)) (regsOf (accBytes it (ldsQ it)))) ∧
    (let it := shortItem 0x2A false 0x90 g
     loadFrame (.ldsB64Short g) it (ldsNeeds it) (accBytes it (ldsQ it)) (accBytes it (ldsQ it)) (regsOf (accBytes it (ldsQ it)))) ∧
    (let it := longItem 0x101 false f
     loadFrame (.ldsm f) it (ldsmNeeds it) (4 * ldsmN it) (min (4 * ldsmN it) 16) (ldsmN it)) ∧
    (let it := longItem 0x102 false f
     storeFrame (.sts f) it (ldsNeeds it) (accBytes it (ldsQ it))) ∧
    (let it := shortItem 0x2B false 0x80 g
     storeFrame (.stsB32Short g) it (ldsNeeds it) (accBytes it (ldsQ it))) ∧
    (let it := shortItem 0x2C false 0x90 g
     storeFrame (.stsB64Short g) it (ldsNeeds it) (accBytes it (ldsQ it))) ∧
    (let it := longItem 0x103 false f
     atomFrame (.atoms f) it (atomsNeeds it) (regsOf (tyBytes it.mty))) ∧
    (let it := longItem 0x104 false f
     atomFrame (.reds f) it (redsNeeds it) 0)

/-- A pool address whose member index names no member is suppressed with the pool-bounds fault; index 14 is the executing core (R32). -/
def Obligations.PoolMemberIndex : Prop := memberIndex

/-- An STS whose address is not a multiple of its width stops its group with the misalignment fault (R176). -/
def Obligations.MisalignedPoolStoreStops : Prop := misalignedStops

/-- STG is staged at its scope, ATOMG and REDG are sent to their homes, GATHER is under way (R54, R176, R179, R181, R183, R300). -/
def Obligations.GlobalAccessesComplete : Prop :=
  ∀ f, stgCompletes (.stg f) (longItem 0x120 false f) ∧ atomgCompletes (.atomg f) (longItem 0x121 false f) false ∧
    atomgCompletes (.redg f) (longItem 0x122 false f) true ∧ gatherCompletes (.gather f) (longItem 0x123 false f)

/-- Pool stores, writes at homes, write-backs, queue records and flips keep every memory in canonical form (R49, R55, R235, R351). -/
def Obligations.MemoryKeepsItsCanonicalForm : Prop := canonicalKept

/-- After reset every memory is in canonical form (nothing listed: log entries 4, 5, 7) (R327, R330). -/
def Obligations.ResetMemoryIsCanonical : Prop := State.reset.memWf = true

/-! Engines, matrix, chains. -/

/-- TCOPY, TSTORE, PCOPY.r, BLOAD, ROWZF, ROWCP and QPOST start a command that holds its tiles (R43, R188, R189, R193, R194, R195, R196, R252, R267). -/
def Obligations.EngineCommandsStart : Prop :=
  ∀ f, commandStarts (.tcopy f) (longItem 0x140 true f) tcopyNeeds tcopySteps .tcopy ∧
    commandStarts (.tstore f) (longItem 0x141 true f) tstoreNeeds tstoreSteps .tstore ∧
    commandStarts (.pcopyR f) (longItem 0x142 true f) pcopyRNeeds pcopyRSteps .pcopyR ∧
    commandStarts (.bload f) (longItem 0x143 true f) bloadNeeds bloadSteps .bload ∧
    commandStarts (.rowzf f) (longItem 0x160 true f) (rowNeeds false) (rowSteps .rowzf) .rowzf ∧
    commandStarts (.rowcp f) (longItem 0x161 true f) (rowNeeds true) (rowSteps .rowcp) .rowcp ∧
    commandStarts (.qpost f) (longItem 0x162 true f) qpostNeeds qpostSteps .qpost ∧
    tcopyCompletes (.tcopy f) (longItem 0x140 true f) ∧ tstoreCompletes (.tstore f) (longItem 0x141 true f) ∧
    pcopyRCompletes (.pcopyR f) (longItem 0x142 true f) ∧ bloadCompletes (.bload f) (longItem 0x143 true f) ∧
    rowCompletes false (.rowzf f) (longItem 0x160 true f) ∧ rowCompletes true (.rowcp f) (longItem 0x161 true f) ∧
    qpostCompletes (.qpost f) (longItem 0x162 true f)

/-- MMAS and CHRUN.tile start a command that holds its tiles (R188, R189, R218, R220, R228, R230). -/
def Obligations.SweepCommandsStart : Prop :=
  ∀ f, commandStarts (.mmas f) (longItem 0x181 true f) mmasNeeds mmasSteps .mmas ∧
    commandStarts (.chrunTile f) (longItem 0x185 true f) chrunTileNeeds chrunTileSteps .chrun ∧
    mmasCompletes (.mmas f) (longItem 0x181 true f) ∧ chrunTileCompletes (.chrunTile f) (longItem 0x185 true f)

/-- Plain PCOPY starts over its ranges, PREFT fills the lines of its box, QMERGE writes the merged triple (R195, R198, R272, R273). -/
def Obligations.CopyPrefetchMergeComplete : Prop :=
  ∀ f, pcopyCompletes (.pcopy f) (longItem 0x142 true f) ∧ preftCompletes (.preft f) (longItem 0x144 true f) ∧
    qmergeCompletes (.qmerge f) (longItem 0x163 true f)

/-- KSET claims a register that is not open; MMA's lanes arrive, park and are checked (R208, R209, R211, R214, R215). -/
def Obligations.ConvergenceInstructionsComplete : Prop :=
  ∀ f, ksetCompletes (.kset f) (longItem 0x182 true f) ∧ mmaCompletes (.mma f) (longItem 0x180 false f)

/-- SIGN places members that have not arrived in SIGNED, or in DROPPED under .drop; a register not the warp's faults (R210). -/
def Obligations.SignActsInItsLanes : Prop :=
  ∀ f, signCompletes (.sign f) (longItem 0x183 false f) ∧ signFaults f

/-- CHLD loads a chain slot, ITSET an iterator, CHRUN applies the chain in its lanes (R226, R227, R228, R229, R230). -/
def Obligations.ChainInstructionsComplete : Prop :=
  ∀ f, chldCompletes (.chld f) (longItem 0x184 true f) ∧ itsetCompletes (.itset f) (longItem 0x186 true f) ∧
    chrunCompletes (.chrun f) (longItem 0x185 false f)

/-- An engine command, sweep or chain sweep whose guard is false has no effect (R188, R116). -/
def Obligations.FalseGuardMeansNoEffect : Prop :=
  ∀ f, let z := fun (sp : State → Warp → Item → Spec) (it : Item) (s : State) (w : Warp) (_ : Run) => sp s w it
    idleUnderGuard (.tcopy f) (longItem 0x140 true f) (z tcopyNeeds (longItem 0x140 true f)) ∧
    idleUnderGuard (.tstore f) (longItem 0x141 true f) (z tstoreNeeds (longItem 0x141 true f)) ∧
    idleUnderGuard (.pcopyR f) (longItem 0x142 true f) (z pcopyRNeeds (longItem 0x142 true f)) ∧
    idleUnderGuard (.bload f) (longItem 0x143 true f) (z bloadNeeds (longItem 0x143 true f)) ∧
    idleUnderGuard (.rowzf f) (longItem 0x160 true f) (z (rowNeeds false) (longItem 0x160 true f)) ∧
    idleUnderGuard (.rowcp f) (longItem 0x161 true f) (z (rowNeeds true) (longItem 0x161 true f)) ∧
    idleUnderGuard (.qpost f) (longItem 0x162 true f) (z qpostNeeds (longItem 0x162 true f)) ∧
    idleUnderGuard (.mmas f) (longItem 0x181 true f) (z mmasNeeds (longItem 0x181 true f)) ∧
    idleUnderGuard (.chrunTile f) (longItem 0x185 true f) (z chrunTileNeeds (longItem 0x185 true f))

/-! Synchronisation. -/

/-- BINIT, EXPECT, ARRIVE and WAITP act on usable objects of the executing core (R233, R234, R235, R237, R238, R239, R240). -/
def Obligations.BarrierObjectInstructionsComplete : Prop :=
  ∀ f, binitCompletes (.binit f) (longItem 0x1A0 true f) ∧ expectCompletes (.expect f) (longItem 0x1A2 true f) ∧
    arriveCompletes (.arrive f) (longItem 0x1A1 false f) ∧ waitpCompletes (.waitp f) (longItem 0x1A3 false f)

/-- BTEST writes whether the token is complete; lanes that get true acquire; it never waits and never parks (R241). -/
def Obligations.BarrierTestNeverParks : Prop := ∀ f, btestCompletes (.btest f) (longItem 0x1A4 false f)

/-- FENCE with nothing left to release acquires; CSYNC, DSYNC and GSYNC park the group at its next instance (R73, R242, R243, R244). -/
def Obligations.FencesAndHardwareBarriers : Prop :=
  ∀ f, fenceCompletes (.fence f) (longItem 0x1A5 false f) ∧
    (let it := longItem 0x1A6 false f
     hwSyncCompletes (.csync f) it (ptBads it ++ modOutside it 52 52) (if it.mb 52 then 0 else 1)) ∧
    (let it := longItem 0x1A7 false f
     hwSyncCompletes (.dsync f) it (ptBads it ++ modNone it) 2) ∧
    (let it := longItem 0x1A8 false f
     hwSyncCompletes (.gsync f) it (ptBads it ++ modNone it) 3)

/-- TWAIT sends a watch for each lane's value and parks the lanes (R245, R246, R248, R250). -/
def Obligations.TideWaitParksItsLanes : Prop := ∀ f, twaitCompletes (.twait f) (longItem 0x1A9 false f)

/-- XBEGIN opens, XABORT discards, XEND commits where no line read has changed and fails otherwise (R250, R251). -/
def Obligations.TransactionsOpenCommitAndFail : Prop :=
  ∀ f, (∀ e ∈ transactionRows f, e.Completes) ∧ xendCompletes (.xend f) (longItem 0x1AB true f)

/-- BTEST changes one predicate, FENCE no register and no byte, BINIT only its object's sixteen bytes (R237, R241, R242). -/
def Obligations.SynchronisationFrames : Prop := ∀ f, waitlessFrame f ∧ objectFrame f

/-! System. -/

/-- RDSR reads any special register into a v or s register, WRSR writes the writable ones; both leave the rest (R254, R258, R142). -/
def Obligations.SpecialRegistersAreReadAndWritten : Prop :=
  ∀ f g, (∀ e ∈ systemRows f g, e.Completes) ∧ systemFrame f

/-- TRAP stops its active lanes with cause 0xE0 + n, BPT with 0xC1, at the next slot; with no active lane nothing happens (R255, R311). -/
def Obligations.TrapAndBreakpointStop : Prop :=
  ∀ f,
    (let it := longItem 0x1C2 false f
     trapCompletes (.trap f) it (trapNeeds it) fun s r => 0xE0 + operand s s.cur r it vtCount .a 0) ∧
    (let it := longItem 0x1C3 false f
     trapCompletes (.bpt f) it (fun _ _ _ => { uses := noUses, bads := modNone it }) fun _ _ => 0xC1)

/-- Taking a trap stops the named lanes, holds the rest of the group, keeps the clause and the registers (R311, R348, R352, R119). -/
def Obligations.TakingATrap : Prop := trapTaken

/-- TRET resumes the trapped warp, RDTR and WRTR read and write its items, BAREDIT sets a field of an object (R256, R257, R313, R314). -/
def Obligations.HandlerInstructionsComplete : Prop :=
  ∀ f, tretCompletes (.tret f) (longItem 0x1C4 false f) ∧ itemCompletes f ∧ bareditCompletes (.baredit f) (longItem 0x1C7 true f)

/-- TRET and BAREDIT outside a handler raise the illegal-operand fault, subcode 10 (R256, R257, R355, R358). -/
def Obligations.HandlerInstructionsOutsideFault : Prop := ∀ f, handlerOnly f

/-- LAUNCH appends the record image to the queue named and returns the status (R143, R276). -/
def Obligations.LaunchAppendsARecord : Prop := ∀ f, launchCompletes (.launch f) (longItem 0x009 true f)

/-! Events of the device. -/

/-- Clause issue, expiries of hints and congestion, swaps of the active set and a handler's start take effect where enabled (R21, R22, R23, R105, R107, R284, R285, R312). -/
def Obligations.IssueSlotEvents : Prop := issueEvents
/-- Staged stores are published, applied at their homes and acknowledged; boundaries release; lines are written back; DRAIN clears (R50, R54, R55, R57, R72, R73). -/
def Obligations.PublicationEvents : Prop := publicationEvents
/-- Atomic groups apply at home; stack packets read, write, scan, reply; row operations complete; soft errors strike (log entries 1, 38) (R62, R63, R178, R180, R253, R268, R270, R381, R382, R383, R384). -/
def Obligations.StackEventsAndSoftErrors : Prop := stackEvents ∧ softErrors
/-- Engine units land, credits perform, products are written, sweeps take their next step or row (R43, R190, R191, R217, R220, R230). -/
def Obligations.EngineEvents : Prop := engineEvents
/-- Hardware barriers complete; watches register, answer, time out and are cancelled (R243, R246, R247, R248). -/
def Obligations.WaitEvents : Prop := waitEvents
/-- Launch records are read, launches start, clusters are granted, warps retire, launches complete (R41, R275, R276, R278, R279, R280, R281, R391). -/
def Obligations.LaunchEvents : Prop := launchEvents
/-- Pre-emption, suspension, completed and held saves and resumption take effect where enabled (R286, R287, R289, R393). -/
def Obligations.SaveEvents : Prop := saveEvents
/-- Shoot-downs, replays, migrations, revivals, remote homes and retirements take effect where enabled (R297, R301, R302, R303, R306, R377). -/
def Obligations.PageEvents : Prop := pageEvents
/-- WCTL resumes, kills, halts and steps the warp in the slot it names (R317, R318, R375). -/
def Obligations.DebugEvents : Prop := debugEvents
/-- Tarsor cells are sent, accepted, discarded and replayed; links train, retrain and fail (choices: log entry 35) (R321, R322, R323, R324, R325, R385). -/
def Obligations.LinkEvents : Prop := linkEvents
/-- MBHEAD writes and the seven mailbox operations take effect where enabled (R326, R400, R408, R409). -/
def Obligations.MailboxEvents : Prop := mailboxEvents
/-- Bring-up goes through its stages; failures are diagnosed; trips, power passes and coolant changes take effect (R327, R328, R329, R330, R331, R332, R333, R397). -/
def Obligations.BringUpEvents : Prop := bringUpEvents
/-- Event-queue registers, tenant resets and register writes take effect; a number that names no register has none (R5, R326, R351, R378, R408). -/
def Obligations.RegisterEvents : Prop := registerEvents
/-- After module reset: not READY, stage 0, nothing resident, and the registers at the reset values of their tables (R5, R275, R327, R352). -/
def Obligations.ModuleAfterReset : Prop := afterReset
end

