-- ==== Sys2Proof/Laws/Engine.lean ====
section
/-! SUPPORT. What the issue steps of the engine commands answer (R189): one step after another, a check that passes, the outcome. -/

namespace Sys2Proof.Machine

/-- A step that has its result goes on with it. -/
@[simp] theorem Iss.bind_ok {α β : Type} (a : α) (s : State) (f : α → State → Iss β) : (Iss.ok a s).bind f = f a s := rfl
/-- A step that holds holds the command. -/
@[simp] theorem Iss.bind_hold {α β : Type} (f : α → State → Iss β) : (Iss.hold (α := α)).bind f = .hold := rfl
/-- A step that waits keeps what it changed. -/
@[simp] theorem Iss.bind_stay {α β : Type} (s : State) (f : α → State → Iss β) : (Iss.stay (α := α) s).bind f = .stay s := rfl
/-- A fault ends the steps. -/
@[simp] theorem Iss.bind_fault {α β : Type} (s : State) (f : α → State → Iss β) : (Iss.fault (α := α) s).bind f = .fault s := rfl

/-- A check that finds nothing leaves the state. -/
@[simp] theorem issCheck_none (s : State) (r : Run) (it : Item) : issCheck s r it none = .ok () s := rfl

/-- A box that nothing is wrong with. -/
@[simp] theorem issBox_ok (s : State) (r : Run) (it : Item) (t : Tensor) (a k : Nat) : issBox s r it t a k none = .ok () s := rfl

/-- The first of checks that all find nothing. -/
theorem firstOf_none (l : List (Option LaneBad)) (h : ∀ x ∈ l, x = none) : firstOf l = none := by
  unfold firstOf
  rwa [List.findSome?_eq_none_iff]

/-- An aligned address passes its check. -/
theorem align16_ok (a fld : Nat) (h : a % 16 = 0) : align16 a fld = none := if_neg (by simpa using h)

/-- A command whose guard holds and whose counter has room does what its issue steps answer. -/
theorem onceDo_ok (steps : State → Warp → Run → Item → Iss State) (it : Item) (s : State) (r : Run) (t u : State)
    (hg : guardU s.cur it = true) (hd : dcFull s.cur it.dc = false) (h : steps s s.cur r it = .ok t u) :
    onceDo steps it s s.cur r = t := by
  simp [onceDo, hg, hd, h, issued]

/-- A command whose guard does not hold only goes on. -/
theorem onceDo_guard (steps : State → Warp → Run → Item → Iss State) (it : Item) (s : State) (w : Warp) (r : Run)
    (hg : guardU w it = false) : onceDo steps it s w r = finish s r it := by
  simp [onceDo, hg]

/-- Issue steps that meet a tile whose count is 15 hold the command in its place (R52). -/
theorem startCmd_full (s : State) (r : Run) (it : Item) (c : Cmd) (at0 : Cmd → State → State) (reads : Cmd → State → Iss Cmd)
    (h : tileFull s c.tiles = true) : startCmd s r it c at0 reads = .stay (holdCmd s s.cur c.tiles) := by
  simp [startCmd, h]

end Sys2Proof.Machine
end

