-- ==== Sys2Proof/Laws/NMap.lean ====
section
/-! SUPPORT. Laws of sparse maps: a read after a write, in any map, and the canonical form that every write keeps. -/

namespace Sys2Proof.Machine

theorem nwfAbove_mono {α : Type} [DecidableEq α] (d : α) (m : NMap α) (b c : Nat) (h : nwfAbove d b m = true) (hcb : c ≤ b) :
    nwfAbove d c m = true := by
  cases m with
  | nil => rfl
  | cons e t =>
    obtain ⟨k, v⟩ := e
    simp only [nwfAbove, Bool.and_eq_true, decide_eq_true_eq] at h ⊢
    exact ⟨⟨by omega, h.1.2⟩, h.2⟩

theorem nwfAbove_filter {α : Type} [DecidableEq α] (d : α) (m : NMap α) (b : Nat) (f : Nat × α → Bool) (h : nwfAbove d b m = true) :
    nwfAbove d b (m.filter f) = true := by
  induction m generalizing b with
  | nil => rfl
  | cons e t ih =>
    obtain ⟨k, v⟩ := e
    simp only [nwfAbove, Bool.and_eq_true, decide_eq_true_eq] at h
    rw [List.filter_cons]
    split
    · simp only [nwfAbove, Bool.and_eq_true, decide_eq_true_eq]
      exact ⟨h.1, ih k h.2⟩
    · exact nwfAbove_mono d _ k b (ih k h.2) (by omega)

theorem nwfAbove_nput {α : Type} [DecidableEq α] (d : α) (m : NMap α) (b a : Nat) (x : α) (h : nwfAbove d b m = true)
    (hab : b < a) (hx : x ≠ d) : nwfAbove d b (nput m a x) = true := by
  induction m generalizing b with
  | nil => simp [nput, nwfAbove, hab, hx]
  | cons e t ih =>
    obtain ⟨k, v⟩ := e
    simp only [nwfAbove, Bool.and_eq_true, decide_eq_true_eq] at h
    simp only [nput]
    split
    · simp [nwfAbove, hx, h.1.2, h.2, *]
    · split
      · next hak => subst hak; simp [nwfAbove, hab, hx, h.2]
      · simp only [nwfAbove, Bool.and_eq_true, decide_eq_true_eq]
        exact ⟨h.1, ih k h.2 (by omega)⟩

/-- A map whose entries are a part of a canonical map's is canonical. -/
theorem nwf_filter {α : Type} [DecidableEq α] (d : α) (m : NMap α) (f : Nat × α → Bool) (h : nwf d m = true) :
    nwf d (m.filter f) = true := by
  cases m with
  | nil => rfl
  | cons e t =>
    obtain ⟨k, v⟩ := e
    simp only [nwf, Bool.and_eq_true, decide_eq_true_eq] at h
    rw [List.filter_cons]
    split
    · simp only [nwf, Bool.and_eq_true, decide_eq_true_eq]
      exact ⟨h.1, nwfAbove_filter d t k f h.2⟩
    · have := nwfAbove_filter d t k f h.2
      cases hm : t.filter f with
      | nil => rfl
      | cons e u =>
        rw [hm] at this
        obtain ⟨k', v'⟩ := e
        simp only [nwfAbove, Bool.and_eq_true, decide_eq_true_eq] at this
        simp [nwf, this.1.2, this.2]

/-- Every write keeps the canonical form. -/
theorem nwf_nset {α : Type} [DecidableEq α] (d : α) (m : NMap α) (a : Nat) (x : α) (h : nwf d m = true) :
    nwf d (nset d m a x) = true := by
  unfold nset
  split
  · exact nwf_filter d m _ h
  · next hx =>
    cases m with
    | nil => simp [nput, nwf, nwfAbove, hx]
    | cons e t =>
      obtain ⟨k, v⟩ := e
      simp only [nwf, Bool.and_eq_true, decide_eq_true_eq] at h
      simp only [nput]
      split
      · simp [nwf, nwfAbove, hx, h.1, h.2, *]
      · split
        · next hak => subst hak; simp [nwf, hx, h.2]
        · simp only [nwf, Bool.and_eq_true, decide_eq_true_eq]
          exact ⟨h.1, nwfAbove_nput d t k a x h.2 (by omega) hx⟩

theorem nget_nput {α : Type} (d : α) (m : NMap α) (a c : Nat) (x : α) :
    nget d (nput m a x) c = if c = a then x else nget d m c := by
  induction m with
  | nil => simp [nput, nget]
  | cons e t ih =>
    obtain ⟨k, v⟩ := e
    simp only [nput]
    split
    · simp [nget]
    · split
      · next hak => subst hak; by_cases hc : c = a <;> simp [nget, hc]
      · next hak =>
        simp only [nget, ih]
        by_cases hc : c = a
        · subst hc; simp [hak]
        · simp [hc]

theorem nget_filter {α : Type} (d : α) (m : NMap α) (a c : Nat) :
    nget d (m.filter fun e => e.1 != a) c = if c = a then d else nget d m c := by
  induction m with
  | nil => simp [nget]
  | cons e t ih =>
    obtain ⟨k, v⟩ := e
    rw [List.filter_cons]
    by_cases hk : k = a
    · subst hk
      simp only [bne_self_eq_false, Bool.false_eq_true, if_false, ih, nget]
      by_cases hc : c = k <;> simp [hc]
    · simp only [bne_iff_ne, ne_eq, hk, not_false_eq_true, if_true, nget, ih]
      by_cases hc : c = a
      · subst hc; simp [Ne.symm hk]
      · simp [hc]

/-- A read after a write gives what was written at that key and what stood there at every other, in any map. -/
theorem nget_nset {α : Type} [DecidableEq α] (d : α) (m : NMap α) (a c : Nat) (x : α) :
    nget d (nset d m a x) c = if c = a then x else nget d m c := by
  unfold nset
  split
  · next hx => subst hx; exact nget_filter x m a c
  · exact nget_nput d m a c x

/-- Every other key reads as before. -/
theorem nget_nset_other {α : Type} [DecidableEq α] (d : α) (m : NMap α) (a c : Nat) (x : α) (h : c ≠ a) :
    nget d (nset d m a x) c = nget d m c := by rw [nget_nset, if_neg h]

/-- Writing consecutive keys keeps the canonical form. -/
theorem nwf_nsetRange {α : Type} [DecidableEq α] (d : α) (m : NMap α) (a : Nat) (xs : List α) (h : nwf d m = true) :
    nwf d (nsetRange d m a xs) = true := by
  induction xs generalizing m a with
  | nil => exact h
  | cons x xs ih => exact ih (nset d m a x) (a + 1) (nwf_nset d m a x h)

/-- Writing consecutive keys: what each key reads afterwards. -/
theorem nget_nsetRange {α : Type} [DecidableEq α] (d : α) (m : NMap α) (a c : Nat) (xs : List α) :
    nget d (nsetRange d m a xs) c = if a ≤ c ∧ c < a + xs.length then xs.getD (c - a) d else nget d m c := by
  induction xs generalizing m a with
  | nil => simp [nsetRange]
  | cons x xs ih =>
    simp only [nsetRange]
    rw [ih (nset d m a x) (a + 1), nget_nset d m a c x]
    by_cases hc : c = a
    · subst hc; simp
    · by_cases h1 : a + 1 ≤ c ∧ c < a + 1 + xs.length
      · have h2 : a ≤ c ∧ c < a + (x :: xs).length := by simp; omega
        rw [if_pos h1, if_pos h2]
        obtain ⟨k, hk⟩ : ∃ k, c - a = k + 1 := ⟨c - a - 1, by omega⟩
        have : c - (a + 1) = k := by omega
        simp [hk, this]
      · have h2 : ¬ (a ≤ c ∧ c < a + (x :: xs).length) := by simp; omega
        rw [if_neg h1, if_neg h2]; simp [hc]

/-- Keys outside a range read as before. -/
theorem nget_nsetRange_other {α : Type} [DecidableEq α] (d : α) (m : NMap α) (a c : Nat) (xs : List α)
    (h : c < a ∨ a + xs.length ≤ c) : nget d (nsetRange d m a xs) c = nget d m c := by
  rw [nget_nsetRange, if_neg (by omega)]

/-- Dropping a range of keys keeps the canonical form. -/
theorem nwf_ndrop {α : Type} [DecidableEq α] (d : α) (m : NMap α) (lo hi : Nat) (h : nwf d m = true) :
    nwf d (ndrop m lo hi) = true := nwf_filter d m _ h

end Sys2Proof.Machine
end

