-- ==== Sys2Proof/Laws/Memory.lean ====
section
/-! SUPPORT. Reading after writing, and the canonical form, of the registers, the pool and the management registers. -/

namespace Sys2Proof.Machine

theorem vget_vset (w : Warp) (r lane r' lane' : Nat) (x : Word) :
    vget (vset w r lane x) r' lane' = if 32 * r' + lane' = 32 * r + lane then x else vget w r' lane' :=
  nget_nset 0 w.v _ _ x

theorem sget_sset (w : Warp) (r r' : Nat) (x : Word) : sget (sset w r x) r' = if r' = r then x else sget w r' :=
  nget_nset 0 w.s _ _ x

/-- A byte of the pool after a store: the stored byte inside the range, else as before. -/
theorem poolStore_byte (s : State) (core off : Nat) (bs : List Byte) (k : Nat) :
    nget 0 (poolStore s core off bs).pool k =
      if poolKey core off ≤ k ∧ k < poolKey core off + bs.length then bs.getD (k - poolKey core off) 0 else nget 0 s.pool k :=
  nget_nsetRange 0 s.pool _ _ bs

theorem poolStore_wf (s : State) (core off : Nat) (bs : List Byte) (h : Memory.wf s.pool = true) :
    Memory.wf (poolStore s core off bs).pool = true := nwf_nsetRange 0 s.pool _ bs h

theorem mget_mput (s : State) (n m : Nat) (v : DWord) : mget (mput s n v) m = if m = n then v else mget s m := by
  simp only [mget, mput, nget_nset]
  by_cases h : m = n
  · subst h
    by_cases hv : v = mregReset m <;> simp [hv]
  · simp [h]

/-- The named memories of the state after reset list nothing. -/
theorem reset_pool_wf : Memory.wf State.reset.pool = true ∧ Memory.wf State.reset.dram = true ∧ Memory.wf State.reset.l2b = true ∧
    Memory.wf State.reset.cstore = true := ⟨rfl, rfl, rfl, rfl⟩

end Sys2Proof.Machine
end

