-- ==== Sys2Proof/Laws/Ops.lean ====
section
/-! SUPPORT. What the shared operations answer: issue, going on, release, the Causeway. -/

namespace Sys2Proof.Machine

theorem firstBad_nil : firstBad [] = none := rfl

/-- No early value where no product of the warp may come early. -/
theorem earlyWrites_self (s : State) (regs : List (Nat × Nat)) (h : ∀ p ∈ s.products, p.warp ≠ s.cur.uid ∨ p.dcSel = 0) :
    earlyWrites s regs = s := by
  have : ∀ (l : List Product) (t : State), t.cur.uid = s.cur.uid → (∀ p ∈ l, p.warp ≠ s.cur.uid ∨ p.dcSel = 0) →
      l.foldl (fun s p =>
        if p.warp ≠ s.cur.uid || p.dcSel = 0 then s
        else
          (p.vals.filter fun e => regs.contains (0, e.1 / 32)).foldl (fun s e =>
            let (k, s) := choose s 2
            if k = 0 then s
            else
              { s with
                cur := vset s.cur (e.1 / 32) (e.1 % 32) e.2
                products := s.products.map fun q =>
                  if q.id == p.id then { q with vals := q.vals.filter fun x => x.1 != e.1 } else q }) s) t = t := by
    intro l
    induction l with
    | nil => intros; rfl
    | cons p l ih =>
      intro t ht hl
      rw [List.foldl_cons]
      have hp := hl p (by simp)
      rw [if_pos (by rw [ht]; simpa using hp)]
      exact ih t ht fun q hq => hl q (by simp [hq])
  exact this s.products s rfl h

/-- An instruction that may issue takes its effect. -/
theorem issue_ready (it : Item) (sp : State → Warp → Run → Spec) (s : State) (k : State → Warp → Run → State) (r : Run)
    (h : Ready s r it (sp s s.cur r)) : issue it sp s k = .next (k s s.cur r) := by
  obtain ⟨hr, ht, hb, hp, hs, he, hl⟩ := h
  simp only [issue, hr, ht, hb, hp, hs, hl, firstBad_nil, ne_eq, not_true_eq_false, if_false, Bool.false_eq_true]
  rw [earlyWrites_self s _ he]

/-- A failing check of R355 stops the group with the fault it names, unless it looks at operands and a register is lost. -/
theorem issue_bad (it : Item) (sp : State → Warp → Run → Spec) (s : State) (k : State → Warp → Run → State) (r : Run) (b : Bad)
    (hr : s.cur.run = some r) (ht : r.transit = false) (hb : breakLanes s s.cur r = 0)
    (hp : blocked s.cur r (sp s s.cur r).wide (specRegs it (sp s s.cur r)) = false)
    (hs : firstBad (specBads s s.cur r it (sp s s.cur r)) = some b)
    (hl : b.enc = true ∨ lostRead s s.cur r it (sp s s.cur r) = none) : issue it sp s k = .next (badTrap s r it b) := by
  simp only [issue, hr, ht, hb, hp, hs, ne_eq, not_true_eq_false, if_false, Bool.false_eq_true]
  rcases hl with h | h <;> simp [h]

/-- A register that is read after its parity failed stops the group with cause 0x83, unless an encoding check fails first. -/
theorem issue_lost (it : Item) (sp : State → Warp → Run → Spec) (s : State) (k : State → Warp → Run → State) (r : Run) (c : Nat × Nat)
    (hr : s.cur.run = some r) (ht : r.transit = false) (hb : breakLanes s s.cur r = 0)
    (hp : blocked s.cur r (sp s s.cur r).wide (specRegs it (sp s s.cur r)) = false)
    (hl : lostRead s s.cur r it (sp s s.cur r) = some c)
    (he : ∀ b, firstBad (specBads s s.cur r it (sp s s.cur r)) = some b → b.enc = false) :
    issue it sp s k = .next (parityTrap s r c) := by
  simp only [issue, hr, ht, hb, hp, hl, ne_eq, not_true_eq_false, if_false, Bool.false_eq_true]
  cases hf : firstBad (specBads s s.cur r it (sp s s.cur r)) with
  | none => rfl
  | some b => simp [he b hf]

/-- No stop at a boundary of a quiet warp. -/
theorem boundaryStops_quiet (s : State) (h : Quiet s) : boundaryStops s = s := by
  obtain ⟨hd, hh, _, _⟩ := h
  unfold boundaryStops
  simp only [hd, hh]
  split <;> rfl

theorem foldl_forget (ls : List Nat) : ls.foldl (fun (m : NMap (Option (DWord × Bool))) l => nset none m l none) [] = [] := by
  induction ls with
  | nil => rfl
  | cons l ls ih => simpa [nset] using ih

/-- No stop after an instruction of a quiet warp that met no data watch. -/
theorem afterStops_quiet (s : State) (r : Run) (ret : Bool) (h : Quiet s) : afterStops s r false ret = s := by
  have hq := h
  obtain ⟨_, _, hs, hk⟩ := h
  have e : (lanesOf r.grp).foldl (fun m l => nset none m l none) s.cur.skip = s.cur.skip := by rw [hk]; exact foldl_forget _
  unfold afterStops
  dsimp only
  rw [e]
  split
  · rfl
  · split
    · rfl
    · rw [if_neg (by simp), if_neg (by simp [hs])]
      split
      · exact boundaryStops_quiet s hq
      · rfl

/-- Going on in a quiet warp. -/
theorem finish_quiet (s : State) (r : Run) (it : Item) (h : Quiet s) :
    finish s r it = { s with cur := nextSlot s.cur r it } := by
  unfold finish goOn nextSlot
  by_cases hb : (advance r it).body.isEmpty
  · simp only [hb, if_true]
    rw [endClause, afterStops_quiet _ _ _ (by exact h)]
  · have hs := h.2.2.1
    dsimp only
    rw [if_neg hb, if_neg (by simp [hs]), if_neg hb, afterStops_quiet _ _ _ (by exact h)]

theorem raiseEntries_clear (s : State) (core lvl : Nat) (h : ∀ e ∈ s.staging, belowLevel core lvl e = false) :
    raiseEntries s core lvl = s := by
  unfold raiseEntries
  have : (s.staging.map fun e => if belowLevel core lvl e then startPublish s lvl e else e) = s.staging := by
    conv_rhs => rw [← List.map_id s.staging]
    apply List.map_congr_left
    intro e he
    simp [h e he]
  rw [this]

/-- With nothing to release the effect follows at once. -/
theorem boundary_clear (s : State) (r : Run) (scs : List Nat) (k : State → Run → State) (h : Clear s r scs) :
    boundary s s.cur r scs k = k (past s r scs) r := by
  obtain ⟨hb, ho, he⟩ := h
  have hw : waitingEntries s s.cur.core ((scs.map (scopeLevel s s.cur)).foldl max 0) = false := by
    unfold waitingEntries
    rw [List.any_eq_false]
    intro e hm
    simp [he e hm]
  simp only [boundary, hb, ho, raiseEntries_clear s _ _ he, hw, past]
  rfl

/-- An access that does not go out, or one delivered at its target, is performed at once. -/
theorem overCauseway_here (atTarget : Bool) (cores : List Nat) (s : State) (r : Run) (k : Unit → State)
    (h : goesOut s s.cur cores = false ∨ atTarget = true) : overCauseway atTarget cores s r k = k () := by
  rcases h with h | rfl <;> simp [overCauseway, *]

/-- What a Row of an instruction made by `issue` is. -/
theorem row_completes (e : Row) (h : ∀ s, exec e.i s = issue e.it e.sp s e.eff) : e.Completes := by
  intro s r hr
  rw [h s]
  exact issue_ready e.it e.sp s e.eff r hr

end Sys2Proof.Machine
end

