-- ==== Sys2Proof/Laws/Sched.lean ====
section
/-! SUPPORT. What choosing a place does: it draws free choices and changes nothing else; and when a grant can be made. -/

namespace Sys2Proof.Machine

/-- A free choice changes only the count of those drawn. -/
theorem choose_free (s : State) (n : Nat) : ∃ k, (choose s n).2 = { s with free := k } := by
  unfold choose
  split
  · exact ⟨s.free, rfl⟩
  · exact ⟨_, rfl⟩

theorem chooseFrom_free {α : Type} (d : α) (s : State) (l : List α) : ∃ k, (chooseFrom d s l).2 = { s with free := k } :=
  choose_free s l.length

theorem pickFrom_free (o : Occ) (q : Ask) (f : Placed → Bool) (m : Nat) (rest : List (Nat × Nat × Nat)) (p : Placed) (s : State) :
    ∃ k, (pickFrom o q f m rest p s).2 = { s with free := k } := by
  induction m generalizing rest p s with
  | zero => exact ⟨s.free, rfl⟩
  | succ m ih =>
    unfold pickFrom
    dsimp only
    obtain ⟨a, ha⟩ := chooseFrom_free ((0, 0, []) : Nat × Nat × List (Nat × Nat × Nat)) s
      ((o.ways q q.colsAll rest p).filter fun e => o.canFrom q f m e.2.2 (p.put q.x e.1 e.2.1))
    rw [ha]
    obtain ⟨b, hb⟩ := ih _ _ { s with free := a }
    exact ⟨b, hb⟩

/-- Choosing a place changes only the count of free choices. -/
theorem choosePlace_free (s : State) (q : Ask) (t : List Ask) (p : Placed) (u : State) (h : choosePlace s q t = some (p, u)) :
    ∃ k, u = { s with free := k } := by
  unfold choosePlace at h
  dsimp only at h
  split at h
  · cases h
  · have h2 : _ = u := congrArg Prod.snd (Option.some.inj h)
    obtain ⟨a, ha⟩ := pickFrom_free (occOf s) q _ q.x.nc _ _ _
    rw [ha] at h2
    obtain ⟨b, hb⟩ := chooseFrom_free (α := Nat) 0 _ _
    rw [hb] at h2
    obtain ⟨c, hc⟩ := chooseFrom_free (α := Region) [] s _
    rw [hc] at h2
    exact ⟨a, h2.symm⟩

/-- A place is chosen wherever some region leaves room for what follows. -/
theorem choosePlace_some (s : State) (q : Ask) (t : List Ask) (h : ((occOf s).regionsBefore q t).isEmpty = false) :
    ∃ p u, choosePlace s q t = some (p, u) := by
  unfold choosePlace
  simp only [h, Bool.false_eq_true, if_false]
  exact ⟨_, _, rfl⟩

/-- The next grant of a launch that is no cooperative one can be made wherever its cluster has a place. -/
theorem grantNext_some (s : State) (c : Ctx) (hc : recCoop c.record = false) (hf : (findCtx s c.id).isSome = true)
    (h : ((occOf s).regionsBefore (askOf c.record c.khdr c.dies c.granted) []).isEmpty = false) : ∃ t, grantNext s c = some t := by
  obtain ⟨p, u, hp⟩ := choosePlace_some s _ [] h
  obtain ⟨k, hu⟩ := choosePlace_free s _ _ p u hp
  have hx : findCtx u c.id = findCtx s c.id := by rw [hu]; rfl
  obtain ⟨x, hx'⟩ := Option.isSome_iff_exists.1 (hx ▸ hf : (findCtx u c.id).isSome = true)
  refine ⟨placeCluster u x p, ?_⟩
  have ha : nextAsks c = [askOf c.record c.khdr c.dies c.granted] := by simp [nextAsks, hc]
  unfold grantNext
  rw [ha]
  simp only [grantAll, hp, hx']

/-- One saved cluster is resumed wherever it has a place. -/
theorem resumeAll_one (s : State) (c : Ctx) (v : Saved) (h : ((occOf s).regionsBefore (resumeAsk c v) []).isEmpty = false) :
    ∃ t, resumeAll s c [v] = some t := by
  obtain ⟨p, u, hp⟩ := choosePlace_some s _ [] h
  exact ⟨restore u v p, by simp [resumeAll, hp]⟩

end Sys2Proof.Machine
end

