-- ==== Sys2Proof/Laws/State.lean ====
section
/-! SUPPORT. What each update of the state and of a warp leaves in each field, all by rfl. -/

namespace Sys2Proof.Machine

/-! vset writes the field v of a warp and its parity marks alone. -/

@[simp] theorem vset_uid (w : Warp) (r lane : Nat) (x : Word) : (vset w r lane x).uid = w.uid := rfl
@[simp] theorem vset_core (w : Warp) (r lane : Nat) (x : Word) : (vset w r lane x).core = w.core := rfl
@[simp] theorem vset_quad (w : Warp) (r lane : Nat) (x : Word) : (vset w r lane x).quad = w.quad := rfl
@[simp] theorem vset_slot (w : Warp) (r lane : Nat) (x : Word) : (vset w r lane x).slot = w.slot := rfl
@[simp] theorem vset_ctx (w : Warp) (r lane : Nat) (x : Word) : (vset w r lane x).ctx = w.ctx := rfl
@[simp] theorem vset_clu (w : Warp) (r lane : Nat) (x : Word) : (vset w r lane x).clu = w.clu := rfl
@[simp] theorem vset_bid (w : Warp) (r lane : Nat) (x : Word) : (vset w r lane x).bid = w.bid := rfl
@[simp] theorem vset_wid (w : Warp) (r lane : Nat) (x : Word) : (vset w r lane x).wid = w.wid := rfl
@[simp] theorem vset_handler (w : Warp) (r lane : Nat) (x : Word) : (vset w r lane x).handler = w.handler := rfl
@[simp] theorem vset_serves (w : Warp) (r lane : Nat) (x : Word) : (vset w r lane x).serves = w.serves := rfl
@[simp] theorem vset_tcause (w : Warp) (r lane : Nat) (x : Word) : (vset w r lane x).tcause = w.tcause := rfl
@[simp] theorem vset_trec (w : Warp) (r lane : Nat) (x : Word) : (vset w r lane x).trec = w.trec := rfl
@[simp] theorem vset_live (w : Warp) (r lane : Nat) (x : Word) : (vset w r lane x).live = w.live := rfl
@[simp] theorem vset_dbg (w : Warp) (r lane : Nat) (x : Word) : (vset w r lane x).dbg = w.dbg := rfl
@[simp] theorem vset_trap (w : Warp) (r lane : Nat) (x : Word) : (vset w r lane x).trap = w.trap := rfl
@[simp] theorem vset_park (w : Warp) (r lane : Nat) (x : Word) : (vset w r lane x).park = w.park := rfl
@[simp] theorem vset_pc (w : Warp) (r lane : Nat) (x : Word) : (vset w r lane x).pc = w.pc := rfl
@[simp] theorem vset_hint (w : Warp) (r lane : Nat) (x : Word) : (vset w r lane x).hint = w.hint := rfl
@[simp] theorem vset_heldFor (w : Warp) (r lane : Nat) (x : Word) : (vset w r lane x).heldFor = w.heldFor := rfl
@[simp] theorem vset_age (w : Warp) (r lane : Nat) (x : Word) : (vset w r lane x).age = w.age := rfl
@[simp] theorem vset_depth (w : Warp) (r lane : Nat) (x : Word) : (vset w r lane x).depth = w.depth := rfl
@[simp] theorem vset_phase (w : Warp) (r lane : Nat) (x : Word) : (vset w r lane x).phase = w.phase := rfl
@[simp] theorem vset_rel (w : Warp) (r lane : Nat) (x : Word) : (vset w r lane x).rel = w.rel := rfl
@[simp] theorem vset_obs (w : Warp) (r lane : Nat) (x : Word) : (vset w r lane x).obs = w.obs := rfl
@[simp] theorem vset_obsAny (w : Warp) (r lane : Nat) (x : Word) : (vset w r lane x).obsAny = w.obsAny := rfl
@[simp] theorem vset_hwn (w : Warp) (r lane : Nat) (x : Word) : (vset w r lane x).hwn = w.hwn := rfl
@[simp] theorem vset_rctr (w : Warp) (r lane : Nat) (x : Word) : (vset w r lane x).rctr = w.rctr := rfl
@[simp] theorem vset_p (w : Warp) (r lane : Nat) (x : Word) : (vset w r lane x).p = w.p := rfl
@[simp] theorem vset_s (w : Warp) (r lane : Nat) (x : Word) : (vset w r lane x).s = w.s := rfl
@[simp] theorem vset_q (w : Warp) (r lane : Nat) (x : Word) : (vset w r lane x).q = w.q := rfl
@[simp] theorem vset_part (w : Warp) (r lane : Nat) (x : Word) : (vset w r lane x).part = w.part := rfl
@[simp] theorem vset_vcnt (w : Warp) (r lane : Nat) (x : Word) : (vset w r lane x).vcnt = w.vcnt := rfl
@[simp] theorem vset_rseed (w : Warp) (r lane : Nat) (x : Word) : (vset w r lane x).rseed = w.rseed := rfl
@[simp] theorem vset_xcause (w : Warp) (r lane : Nat) (x : Word) : (vset w r lane x).xcause = w.xcause := rfl
@[simp] theorem vset_xuser (w : Warp) (r lane : Nat) (x : Word) : (vset w r lane x).xuser = w.xuser := rfl
@[simp] theorem vset_txn (w : Warp) (r lane : Nat) (x : Word) : (vset w r lane x).txn = w.txn := rfl
@[simp] theorem vset_dc (w : Warp) (r lane : Nat) (x : Word) : (vset w r lane x).dc = w.dc := rfl
@[simp] theorem vset_iter (w : Warp) (r lane : Nat) (x : Word) : (vset w r lane x).iter = w.iter := rfl
@[simp] theorem vset_olog (w : Warp) (r lane : Nat) (x : Word) : (vset w r lane x).olog = w.olog := rfl
@[simp] theorem vset_seq (w : Warp) (r lane : Nat) (x : Word) : (vset w r lane x).seq = w.seq := rfl
@[simp] theorem vset_pend (w : Warp) (r lane : Nat) (x : Word) : (vset w r lane x).pend = w.pend := rfl
@[simp] theorem vset_run (w : Warp) (r lane : Nat) (x : Word) : (vset w r lane x).run = w.run := rfl
@[simp] theorem vset_paused (w : Warp) (r lane : Nat) (x : Word) : (vset w r lane x).paused = w.paused := rfl
@[simp] theorem vset_skip (w : Warp) (r lane : Nat) (x : Word) : (vset w r lane x).skip = w.skip := rfl
@[simp] theorem vset_yielded (w : Warp) (r lane : Nat) (x : Word) : (vset w r lane x).yielded = w.yielded := rfl
@[simp] theorem vset_active (w : Warp) (r lane : Nat) (x : Word) : (vset w r lane x).active = w.active := rfl
@[simp] theorem vset_since (w : Warp) (r lane : Nat) (x : Word) : (vset w r lane x).since = w.since := rfl
@[simp] theorem vset_step (w : Warp) (r lane : Nat) (x : Word) : (vset w r lane x).step = w.step := rfl
@[simp] theorem vset_stepm (w : Warp) (r lane : Nat) (x : Word) : (vset w r lane x).stepm = w.stepm := rfl
@[simp] theorem vset_halt (w : Warp) (r lane : Nat) (x : Word) : (vset w r lane x).halt = w.halt := rfl
@[simp] theorem vset_deferred (w : Warp) (r lane : Nat) (x : Word) : (vset w r lane x).deferred = w.deferred := rfl
@[simp] theorem vset_seen (w : Warp) (r lane : Nat) (x : Word) : (vset w r lane x).seen = w.seen := rfl

/-! sset writes the field s of a warp and its parity marks alone. -/

@[simp] theorem sset_uid (w : Warp) (r : Nat) (x : Word) : (sset w r x).uid = w.uid := rfl
@[simp] theorem sset_core (w : Warp) (r : Nat) (x : Word) : (sset w r x).core = w.core := rfl
@[simp] theorem sset_quad (w : Warp) (r : Nat) (x : Word) : (sset w r x).quad = w.quad := rfl
@[simp] theorem sset_slot (w : Warp) (r : Nat) (x : Word) : (sset w r x).slot = w.slot := rfl
@[simp] theorem sset_ctx (w : Warp) (r : Nat) (x : Word) : (sset w r x).ctx = w.ctx := rfl
@[simp] theorem sset_clu (w : Warp) (r : Nat) (x : Word) : (sset w r x).clu = w.clu := rfl
@[simp] theorem sset_bid (w : Warp) (r : Nat) (x : Word) : (sset w r x).bid = w.bid := rfl
@[simp] theorem sset_wid (w : Warp) (r : Nat) (x : Word) : (sset w r x).wid = w.wid := rfl
@[simp] theorem sset_handler (w : Warp) (r : Nat) (x : Word) : (sset w r x).handler = w.handler := rfl
@[simp] theorem sset_serves (w : Warp) (r : Nat) (x : Word) : (sset w r x).serves = w.serves := rfl
@[simp] theorem sset_tcause (w : Warp) (r : Nat) (x : Word) : (sset w r x).tcause = w.tcause := rfl
@[simp] theorem sset_trec (w : Warp) (r : Nat) (x : Word) : (sset w r x).trec = w.trec := rfl
@[simp] theorem sset_live (w : Warp) (r : Nat) (x : Word) : (sset w r x).live = w.live := rfl
@[simp] theorem sset_dbg (w : Warp) (r : Nat) (x : Word) : (sset w r x).dbg = w.dbg := rfl
@[simp] theorem sset_trap (w : Warp) (r : Nat) (x : Word) : (sset w r x).trap = w.trap := rfl
@[simp] theorem sset_park (w : Warp) (r : Nat) (x : Word) : (sset w r x).park = w.park := rfl
@[simp] theorem sset_pc (w : Warp) (r : Nat) (x : Word) : (sset w r x).pc = w.pc := rfl
@[simp] theorem sset_hint (w : Warp) (r : Nat) (x : Word) : (sset w r x).hint = w.hint := rfl
@[simp] theorem sset_heldFor (w : Warp) (r : Nat) (x : Word) : (sset w r x).heldFor = w.heldFor := rfl
@[simp] theorem sset_age (w : Warp) (r : Nat) (x : Word) : (sset w r x).age = w.age := rfl
@[simp] theorem sset_depth (w : Warp) (r : Nat) (x : Word) : (sset w r x).depth = w.depth := rfl
@[simp] theorem sset_phase (w : Warp) (r : Nat) (x : Word) : (sset w r x).phase = w.phase := rfl
@[simp] theorem sset_rel (w : Warp) (r : Nat) (x : Word) : (sset w r x).rel = w.rel := rfl
@[simp] theorem sset_obs (w : Warp) (r : Nat) (x : Word) : (sset w r x).obs = w.obs := rfl
@[simp] theorem sset_obsAny (w : Warp) (r : Nat) (x : Word) : (sset w r x).obsAny = w.obsAny := rfl
@[simp] theorem sset_hwn (w : Warp) (r : Nat) (x : Word) : (sset w r x).hwn = w.hwn := rfl
@[simp] theorem sset_rctr (w : Warp) (r : Nat) (x : Word) : (sset w r x).rctr = w.rctr := rfl
@[simp] theorem sset_v (w : Warp) (r : Nat) (x : Word) : (sset w r x).v = w.v := rfl
@[simp] theorem sset_p (w : Warp) (r : Nat) (x : Word) : (sset w r x).p = w.p := rfl
@[simp] theorem sset_q (w : Warp) (r : Nat) (x : Word) : (sset w r x).q = w.q := rfl
@[simp] theorem sset_part (w : Warp) (r : Nat) (x : Word) : (sset w r x).part = w.part := rfl
@[simp] theorem sset_vcnt (w : Warp) (r : Nat) (x : Word) : (sset w r x).vcnt = w.vcnt := rfl
@[simp] theorem sset_rseed (w : Warp) (r : Nat) (x : Word) : (sset w r x).rseed = w.rseed := rfl
@[simp] theorem sset_xcause (w : Warp) (r : Nat) (x : Word) : (sset w r x).xcause = w.xcause := rfl
@[simp] theorem sset_xuser (w : Warp) (r : Nat) (x : Word) : (sset w r x).xuser = w.xuser := rfl
@[simp] theorem sset_txn (w : Warp) (r : Nat) (x : Word) : (sset w r x).txn = w.txn := rfl
@[simp] theorem sset_dc (w : Warp) (r : Nat) (x : Word) : (sset w r x).dc = w.dc := rfl
@[simp] theorem sset_iter (w : Warp) (r : Nat) (x : Word) : (sset w r x).iter = w.iter := rfl
@[simp] theorem sset_olog (w : Warp) (r : Nat) (x : Word) : (sset w r x).olog = w.olog := rfl
@[simp] theorem sset_seq (w : Warp) (r : Nat) (x : Word) : (sset w r x).seq = w.seq := rfl
@[simp] theorem sset_pend (w : Warp) (r : Nat) (x : Word) : (sset w r x).pend = w.pend := rfl
@[simp] theorem sset_run (w : Warp) (r : Nat) (x : Word) : (sset w r x).run = w.run := rfl
@[simp] theorem sset_paused (w : Warp) (r : Nat) (x : Word) : (sset w r x).paused = w.paused := rfl
@[simp] theorem sset_skip (w : Warp) (r : Nat) (x : Word) : (sset w r x).skip = w.skip := rfl
@[simp] theorem sset_yielded (w : Warp) (r : Nat) (x : Word) : (sset w r x).yielded = w.yielded := rfl
@[simp] theorem sset_active (w : Warp) (r : Nat) (x : Word) : (sset w r x).active = w.active := rfl
@[simp] theorem sset_since (w : Warp) (r : Nat) (x : Word) : (sset w r x).since = w.since := rfl
@[simp] theorem sset_step (w : Warp) (r : Nat) (x : Word) : (sset w r x).step = w.step := rfl
@[simp] theorem sset_stepm (w : Warp) (r : Nat) (x : Word) : (sset w r x).stepm = w.stepm := rfl
@[simp] theorem sset_halt (w : Warp) (r : Nat) (x : Word) : (sset w r x).halt = w.halt := rfl
@[simp] theorem sset_deferred (w : Warp) (r : Nat) (x : Word) : (sset w r x).deferred = w.deferred := rfl
@[simp] theorem sset_seen (w : Warp) (r : Nat) (x : Word) : (sset w r x).seen = w.seen := rfl

/-! onCur changes the focused warp alone. -/

@[simp] theorem onCur_agenda (s : State) (f : Warp → Warp) : (onCur s f).agenda = s.agenda := rfl
@[simp] theorem onCur_free (s : State) (f : Warp → Warp) : (onCur s f).free = s.free := rfl
@[simp] theorem onCur_fresh (s : State) (f : Warp → Warp) : (onCur s f).fresh = s.fresh := rfl
@[simp] theorem onCur_clk (s : State) (f : Warp → Warp) : (onCur s f).clk = s.clk := rfl
@[simp] theorem onCur_readyClk (s : State) (f : Warp → Warp) : (onCur s f).readyClk = s.readyClk := rfl
@[simp] theorem onCur_cur (s : State) (f : Warp → Warp) : (onCur s f).cur = f s.cur := rfl
@[simp] theorem onCur_warps (s : State) (f : Warp → Warp) : (onCur s f).warps = s.warps := rfl
@[simp] theorem onCur_ctxs (s : State) (f : Warp → Warp) : (onCur s f).ctxs = s.ctxs := rfl
@[simp] theorem onCur_clusters (s : State) (f : Warp → Warp) : (onCur s f).clusters = s.clusters := rfl
@[simp] theorem onCur_blocks (s : State) (f : Warp → Warp) : (onCur s f).blocks = s.blocks := rfl
@[simp] theorem onCur_saved (s : State) (f : Warp → Warp) : (onCur s f).saved = s.saved := rfl
@[simp] theorem onCur_pool (s : State) (f : Warp → Warp) : (onCur s f).pool = s.pool := rfl
@[simp] theorem onCur_poolPoison (s : State) (f : Warp → Warp) : (onCur s f).poolPoison = s.poolPoison := rfl
@[simp] theorem onCur_tiles (s : State) (f : Warp → Warp) : (onCur s f).tiles = s.tiles := rfl
@[simp] theorem onCur_cstore (s : State) (f : Warp → Warp) : (onCur s f).cstore = s.cstore := rfl
@[simp] theorem onCur_csPoison (s : State) (f : Warp → Warp) : (onCur s f).csPoison = s.csPoison := rfl
@[simp] theorem onCur_staging (s : State) (f : Warp → Warp) : (onCur s f).staging = s.staging := rfl
@[simp] theorem onCur_dram (s : State) (f : Warp → Warp) : (onCur s f).dram = s.dram := rfl
@[simp] theorem onCur_l2b (s : State) (f : Warp → Warp) : (onCur s f).l2b = s.l2b := rfl
@[simp] theorem onCur_l2 (s : State) (f : Warp → Warp) : (onCur s f).l2 = s.l2 := rfl
@[simp] theorem onCur_ver (s : State) (f : Warp → Warp) : (onCur s f).ver = s.ver := rfl
@[simp] theorem onCur_replicas (s : State) (f : Warp → Warp) : (onCur s f).replicas = s.replicas := rfl
@[simp] theorem onCur_poison (s : State) (f : Warp → Warp) : (onCur s f).poison = s.poison := rfl
@[simp] theorem onCur_hist (s : State) (f : Warp → Warp) : (onCur s f).hist = s.hist := rfl
@[simp] theorem onCur_order (s : State) (f : Warp → Warp) : (onCur s f).order = s.order := rfl
@[simp] theorem onCur_host (s : State) (f : Warp → Warp) : (onCur s f).host = s.host := rfl
@[simp] theorem onCur_peer (s : State) (f : Warp → Warp) : (onCur s f).peer = s.peer := rfl
@[simp] theorem onCur_fmeta (s : State) (f : Warp → Warp) : (onCur s f).fmeta = s.fmeta := rfl
@[simp] theorem onCur_packets (s : State) (f : Warp → Warp) : (onCur s f).packets = s.packets := rfl
@[simp] theorem onCur_watches (s : State) (f : Warp → Warp) : (onCur s f).watches = s.watches := rfl
@[simp] theorem onCur_tlb (s : State) (f : Warp → Warp) : (onCur s f).tlb = s.tlb := rfl
@[simp] theorem onCur_icache (s : State) (f : Warp → Warp) : (onCur s f).icache = s.icache := rfl
@[simp] theorem onCur_reqs (s : State) (f : Warp → Warp) : (onCur s f).reqs = s.reqs := rfl
@[simp] theorem onCur_cmds (s : State) (f : Warp → Warp) : (onCur s f).cmds = s.cmds := rfl
@[simp] theorem onCur_held (s : State) (f : Warp → Warp) : (onCur s f).held = s.held := rfl
@[simp] theorem onCur_wants (s : State) (f : Warp → Warp) : (onCur s f).wants = s.wants := rfl
@[simp] theorem onCur_credits (s : State) (f : Warp → Warp) : (onCur s f).credits = s.credits := rfl
@[simp] theorem onCur_products (s : State) (f : Warp → Warp) : (onCur s f).products = s.products := rfl
@[simp] theorem onCur_migrs (s : State) (f : Warp → Warp) : (onCur s f).migrs = s.migrs := rfl
@[simp] theorem onCur_remotes (s : State) (f : Warp → Warp) : (onCur s f).remotes = s.remotes := rfl
@[simp] theorem onCur_answers (s : State) (f : Warp → Warp) : (onCur s f).answers = s.answers := rfl
@[simp] theorem onCur_retired (s : State) (f : Warp → Warp) : (onCur s f).retired = s.retired := rfl
@[simp] theorem onCur_mreg (s : State) (f : Warp → Warp) : (onCur s f).mreg = s.mreg := rfl
@[simp] theorem onCur_seq (s : State) (f : Warp → Warp) : (onCur s f).seq = s.seq := rfl
@[simp] theorem onCur_lost (s : State) (f : Warp → Warp) : (onCur s f).lost = s.lost := rfl
@[simp] theorem onCur_links (s : State) (f : Warp → Warp) : (onCur s f).links = s.links := rfl
@[simp] theorem onCur_boot (s : State) (f : Warp → Warp) : (onCur s f).boot = s.boot := rfl
@[simp] theorem onCur_flash (s : State) (f : Warp → Warp) : (onCur s f).flash = s.flash := rfl
@[simp] theorem onCur_sram (s : State) (f : Warp → Warp) : (onCur s f).sram = s.sram := rfl
@[simp] theorem onCur_sigs (s : State) (f : Warp → Warp) : (onCur s f).sigs = s.sigs := rfl
@[simp] theorem onCur_tileSigs (s : State) (f : Warp → Warp) : (onCur s f).tileSigs = s.tileSigs := rfl
@[simp] theorem onCur_barSigs (s : State) (f : Warp → Warp) : (onCur s f).barSigs = s.barSigs := rfl
@[simp] theorem onCur_sets (s : State) (f : Warp → Warp) : (onCur s f).sets = s.sets := rfl
@[simp] theorem onCur_rows (s : State) (f : Warp → Warp) : (onCur s f).rows = s.rows := rfl
@[simp] theorem onCur_congest (s : State) (f : Warp → Warp) : (onCur s f).congest = s.congest := rfl
@[simp] theorem onCur_drr (s : State) (f : Warp → Warp) : (onCur s f).drr = s.drr := rfl
@[simp] theorem onCur_starve (s : State) (f : Warp → Warp) : (onCur s f).starve = s.starve := rfl
@[simp] theorem onCur_placeable (s : State) (f : Warp → Warp) : (onCur s f).placeable = s.placeable := rfl
@[simp] theorem onCur_lastIssue (s : State) (f : Warp → Warp) : (onCur s f).lastIssue = s.lastIssue := rfl
@[simp] theorem onCur_boosted (s : State) (f : Warp → Warp) : (onCur s f).boosted = s.boosted := rfl
@[simp] theorem onCur_refresh (s : State) (f : Warp → Warp) : (onCur s f).refresh = s.refresh := rfl
@[simp] theorem onCur_wctl (s : State) (f : Warp → Warp) : (onCur s f).wctl = s.wctl := rfl
@[simp] theorem onCur_shoot (s : State) (f : Warp → Warp) : (onCur s f).shoot = s.shoot := rfl
@[simp] theorem onCur_discarded (s : State) (f : Warp → Warp) : (onCur s f).discarded = s.discarded := rfl
@[simp] theorem onCur_corr (s : State) (f : Warp → Warp) : (onCur s f).corr = s.corr := rfl
@[simp] theorem onCur_under (s : State) (f : Warp → Warp) : (onCur s f).under = s.under := rfl
@[simp] theorem onCur_failing (s : State) (f : Warp → Warp) : (onCur s f).failing = s.failing := rfl
@[simp] theorem onCur_rowErrs (s : State) (f : Warp → Warp) : (onCur s f).rowErrs = s.rowErrs := rfl
@[simp] theorem onCur_lostTold (s : State) (f : Warp → Warp) : (onCur s f).lostTold = s.lostTold := rfl
@[simp] theorem onCur_ring (s : State) (f : Warp → Warp) : (onCur s f).ring = s.ring := rfl
@[simp] theorem onCur_shots (s : State) (f : Warp → Warp) : (onCur s f).shots = s.shots := rfl
@[simp] theorem onCur_early (s : State) (f : Warp → Warp) : (onCur s f).early = s.early := rfl

/-! mput writes the management registers alone. -/

@[simp] theorem mput_agenda (s : State) (n : Nat) (v : DWord) : (mput s n v).agenda = s.agenda := rfl
@[simp] theorem mput_free (s : State) (n : Nat) (v : DWord) : (mput s n v).free = s.free := rfl
@[simp] theorem mput_fresh (s : State) (n : Nat) (v : DWord) : (mput s n v).fresh = s.fresh := rfl
@[simp] theorem mput_clk (s : State) (n : Nat) (v : DWord) : (mput s n v).clk = s.clk := rfl
@[simp] theorem mput_readyClk (s : State) (n : Nat) (v : DWord) : (mput s n v).readyClk = s.readyClk := rfl
@[simp] theorem mput_cur (s : State) (n : Nat) (v : DWord) : (mput s n v).cur = s.cur := rfl
@[simp] theorem mput_warps (s : State) (n : Nat) (v : DWord) : (mput s n v).warps = s.warps := rfl
@[simp] theorem mput_ctxs (s : State) (n : Nat) (v : DWord) : (mput s n v).ctxs = s.ctxs := rfl
@[simp] theorem mput_clusters (s : State) (n : Nat) (v : DWord) : (mput s n v).clusters = s.clusters := rfl
@[simp] theorem mput_blocks (s : State) (n : Nat) (v : DWord) : (mput s n v).blocks = s.blocks := rfl
@[simp] theorem mput_saved (s : State) (n : Nat) (v : DWord) : (mput s n v).saved = s.saved := rfl
@[simp] theorem mput_pool (s : State) (n : Nat) (v : DWord) : (mput s n v).pool = s.pool := rfl
@[simp] theorem mput_poolPoison (s : State) (n : Nat) (v : DWord) : (mput s n v).poolPoison = s.poolPoison := rfl
@[simp] theorem mput_tiles (s : State) (n : Nat) (v : DWord) : (mput s n v).tiles = s.tiles := rfl
@[simp] theorem mput_cstore (s : State) (n : Nat) (v : DWord) : (mput s n v).cstore = s.cstore := rfl
@[simp] theorem mput_csPoison (s : State) (n : Nat) (v : DWord) : (mput s n v).csPoison = s.csPoison := rfl
@[simp] theorem mput_staging (s : State) (n : Nat) (v : DWord) : (mput s n v).staging = s.staging := rfl
@[simp] theorem mput_dram (s : State) (n : Nat) (v : DWord) : (mput s n v).dram = s.dram := rfl
@[simp] theorem mput_l2b (s : State) (n : Nat) (v : DWord) : (mput s n v).l2b = s.l2b := rfl
@[simp] theorem mput_l2 (s : State) (n : Nat) (v : DWord) : (mput s n v).l2 = s.l2 := rfl
@[simp] theorem mput_ver (s : State) (n : Nat) (v : DWord) : (mput s n v).ver = s.ver := rfl
@[simp] theorem mput_replicas (s : State) (n : Nat) (v : DWord) : (mput s n v).replicas = s.replicas := rfl
@[simp] theorem mput_poison (s : State) (n : Nat) (v : DWord) : (mput s n v).poison = s.poison := rfl
@[simp] theorem mput_hist (s : State) (n : Nat) (v : DWord) : (mput s n v).hist = s.hist := rfl
@[simp] theorem mput_order (s : State) (n : Nat) (v : DWord) : (mput s n v).order = s.order := rfl
@[simp] theorem mput_host (s : State) (n : Nat) (v : DWord) : (mput s n v).host = s.host := rfl
@[simp] theorem mput_peer (s : State) (n : Nat) (v : DWord) : (mput s n v).peer = s.peer := rfl
@[simp] theorem mput_fmeta (s : State) (n : Nat) (v : DWord) : (mput s n v).fmeta = s.fmeta := rfl
@[simp] theorem mput_packets (s : State) (n : Nat) (v : DWord) : (mput s n v).packets = s.packets := rfl
@[simp] theorem mput_watches (s : State) (n : Nat) (v : DWord) : (mput s n v).watches = s.watches := rfl
@[simp] theorem mput_tlb (s : State) (n : Nat) (v : DWord) : (mput s n v).tlb = s.tlb := rfl
@[simp] theorem mput_icache (s : State) (n : Nat) (v : DWord) : (mput s n v).icache = s.icache := rfl
@[simp] theorem mput_reqs (s : State) (n : Nat) (v : DWord) : (mput s n v).reqs = s.reqs := rfl
@[simp] theorem mput_cmds (s : State) (n : Nat) (v : DWord) : (mput s n v).cmds = s.cmds := rfl
@[simp] theorem mput_held (s : State) (n : Nat) (v : DWord) : (mput s n v).held = s.held := rfl
@[simp] theorem mput_wants (s : State) (n : Nat) (v : DWord) : (mput s n v).wants = s.wants := rfl
@[simp] theorem mput_credits (s : State) (n : Nat) (v : DWord) : (mput s n v).credits = s.credits := rfl
@[simp] theorem mput_products (s : State) (n : Nat) (v : DWord) : (mput s n v).products = s.products := rfl
@[simp] theorem mput_migrs (s : State) (n : Nat) (v : DWord) : (mput s n v).migrs = s.migrs := rfl
@[simp] theorem mput_remotes (s : State) (n : Nat) (v : DWord) : (mput s n v).remotes = s.remotes := rfl
@[simp] theorem mput_answers (s : State) (n : Nat) (v : DWord) : (mput s n v).answers = s.answers := rfl
@[simp] theorem mput_retired (s : State) (n : Nat) (v : DWord) : (mput s n v).retired = s.retired := rfl
@[simp] theorem mput_seq (s : State) (n : Nat) (v : DWord) : (mput s n v).seq = s.seq := rfl
@[simp] theorem mput_lost (s : State) (n : Nat) (v : DWord) : (mput s n v).lost = s.lost := rfl
@[simp] theorem mput_links (s : State) (n : Nat) (v : DWord) : (mput s n v).links = s.links := rfl
@[simp] theorem mput_boot (s : State) (n : Nat) (v : DWord) : (mput s n v).boot = s.boot := rfl
@[simp] theorem mput_flash (s : State) (n : Nat) (v : DWord) : (mput s n v).flash = s.flash := rfl
@[simp] theorem mput_sram (s : State) (n : Nat) (v : DWord) : (mput s n v).sram = s.sram := rfl
@[simp] theorem mput_sigs (s : State) (n : Nat) (v : DWord) : (mput s n v).sigs = s.sigs := rfl
@[simp] theorem mput_tileSigs (s : State) (n : Nat) (v : DWord) : (mput s n v).tileSigs = s.tileSigs := rfl
@[simp] theorem mput_barSigs (s : State) (n : Nat) (v : DWord) : (mput s n v).barSigs = s.barSigs := rfl
@[simp] theorem mput_sets (s : State) (n : Nat) (v : DWord) : (mput s n v).sets = s.sets := rfl
@[simp] theorem mput_rows (s : State) (n : Nat) (v : DWord) : (mput s n v).rows = s.rows := rfl
@[simp] theorem mput_congest (s : State) (n : Nat) (v : DWord) : (mput s n v).congest = s.congest := rfl
@[simp] theorem mput_drr (s : State) (n : Nat) (v : DWord) : (mput s n v).drr = s.drr := rfl
@[simp] theorem mput_starve (s : State) (n : Nat) (v : DWord) : (mput s n v).starve = s.starve := rfl
@[simp] theorem mput_placeable (s : State) (n : Nat) (v : DWord) : (mput s n v).placeable = s.placeable := rfl
@[simp] theorem mput_lastIssue (s : State) (n : Nat) (v : DWord) : (mput s n v).lastIssue = s.lastIssue := rfl
@[simp] theorem mput_boosted (s : State) (n : Nat) (v : DWord) : (mput s n v).boosted = s.boosted := rfl
@[simp] theorem mput_refresh (s : State) (n : Nat) (v : DWord) : (mput s n v).refresh = s.refresh := rfl
@[simp] theorem mput_wctl (s : State) (n : Nat) (v : DWord) : (mput s n v).wctl = s.wctl := rfl
@[simp] theorem mput_shoot (s : State) (n : Nat) (v : DWord) : (mput s n v).shoot = s.shoot := rfl
@[simp] theorem mput_discarded (s : State) (n : Nat) (v : DWord) : (mput s n v).discarded = s.discarded := rfl
@[simp] theorem mput_corr (s : State) (n : Nat) (v : DWord) : (mput s n v).corr = s.corr := rfl
@[simp] theorem mput_under (s : State) (n : Nat) (v : DWord) : (mput s n v).under = s.under := rfl
@[simp] theorem mput_failing (s : State) (n : Nat) (v : DWord) : (mput s n v).failing = s.failing := rfl
@[simp] theorem mput_rowErrs (s : State) (n : Nat) (v : DWord) : (mput s n v).rowErrs = s.rowErrs := rfl
@[simp] theorem mput_lostTold (s : State) (n : Nat) (v : DWord) : (mput s n v).lostTold = s.lostTold := rfl
@[simp] theorem mput_ring (s : State) (n : Nat) (v : DWord) : (mput s n v).ring = s.ring := rfl
@[simp] theorem mput_shots (s : State) (n : Nat) (v : DWord) : (mput s n v).shots = s.shots := rfl
@[simp] theorem mput_early (s : State) (n : Nat) (v : DWord) : (mput s n v).early = s.early := rfl

/-! poolStore writes pool bytes and their poison alone. -/

@[simp] theorem poolStore_agenda (s : State) (core off : Nat) (bs : List Byte) : (poolStore s core off bs).agenda = s.agenda := rfl
@[simp] theorem poolStore_free (s : State) (core off : Nat) (bs : List Byte) : (poolStore s core off bs).free = s.free := rfl
@[simp] theorem poolStore_fresh (s : State) (core off : Nat) (bs : List Byte) : (poolStore s core off bs).fresh = s.fresh := rfl
@[simp] theorem poolStore_clk (s : State) (core off : Nat) (bs : List Byte) : (poolStore s core off bs).clk = s.clk := rfl
@[simp] theorem poolStore_readyClk (s : State) (core off : Nat) (bs : List Byte) : (poolStore s core off bs).readyClk = s.readyClk := rfl
@[simp] theorem poolStore_cur (s : State) (core off : Nat) (bs : List Byte) : (poolStore s core off bs).cur = s.cur := rfl
@[simp] theorem poolStore_warps (s : State) (core off : Nat) (bs : List Byte) : (poolStore s core off bs).warps = s.warps := rfl
@[simp] theorem poolStore_ctxs (s : State) (core off : Nat) (bs : List Byte) : (poolStore s core off bs).ctxs = s.ctxs := rfl
@[simp] theorem poolStore_clusters (s : State) (core off : Nat) (bs : List Byte) : (poolStore s core off bs).clusters = s.clusters := rfl
@[simp] theorem poolStore_blocks (s : State) (core off : Nat) (bs : List Byte) : (poolStore s core off bs).blocks = s.blocks := rfl
@[simp] theorem poolStore_saved (s : State) (core off : Nat) (bs : List Byte) : (poolStore s core off bs).saved = s.saved := rfl
@[simp] theorem poolStore_tiles (s : State) (core off : Nat) (bs : List Byte) : (poolStore s core off bs).tiles = s.tiles := rfl
@[simp] theorem poolStore_cstore (s : State) (core off : Nat) (bs : List Byte) : (poolStore s core off bs).cstore = s.cstore := rfl
@[simp] theorem poolStore_csPoison (s : State) (core off : Nat) (bs : List Byte) : (poolStore s core off bs).csPoison = s.csPoison := rfl
@[simp] theorem poolStore_staging (s : State) (core off : Nat) (bs : List Byte) : (poolStore s core off bs).staging = s.staging := rfl
@[simp] theorem poolStore_dram (s : State) (core off : Nat) (bs : List Byte) : (poolStore s core off bs).dram = s.dram := rfl
@[simp] theorem poolStore_l2b (s : State) (core off : Nat) (bs : List Byte) : (poolStore s core off bs).l2b = s.l2b := rfl
@[simp] theorem poolStore_l2 (s : State) (core off : Nat) (bs : List Byte) : (poolStore s core off bs).l2 = s.l2 := rfl
@[simp] theorem poolStore_ver (s : State) (core off : Nat) (bs : List Byte) : (poolStore s core off bs).ver = s.ver := rfl
@[simp] theorem poolStore_replicas (s : State) (core off : Nat) (bs : List Byte) : (poolStore s core off bs).replicas = s.replicas := rfl
@[simp] theorem poolStore_poison (s : State) (core off : Nat) (bs : List Byte) : (poolStore s core off bs).poison = s.poison := rfl
@[simp] theorem poolStore_hist (s : State) (core off : Nat) (bs : List Byte) : (poolStore s core off bs).hist = s.hist := rfl
@[simp] theorem poolStore_order (s : State) (core off : Nat) (bs : List Byte) : (poolStore s core off bs).order = s.order := rfl
@[simp] theorem poolStore_host (s : State) (core off : Nat) (bs : List Byte) : (poolStore s core off bs).host = s.host := rfl
@[simp] theorem poolStore_peer (s : State) (core off : Nat) (bs : List Byte) : (poolStore s core off bs).peer = s.peer := rfl
@[simp] theorem poolStore_fmeta (s : State) (core off : Nat) (bs : List Byte) : (poolStore s core off bs).fmeta = s.fmeta := rfl
@[simp] theorem poolStore_packets (s : State) (core off : Nat) (bs : List Byte) : (poolStore s core off bs).packets = s.packets := rfl
@[simp] theorem poolStore_watches (s : State) (core off : Nat) (bs : List Byte) : (poolStore s core off bs).watches = s.watches := rfl
@[simp] theorem poolStore_tlb (s : State) (core off : Nat) (bs : List Byte) : (poolStore s core off bs).tlb = s.tlb := rfl
@[simp] theorem poolStore_icache (s : State) (core off : Nat) (bs : List Byte) : (poolStore s core off bs).icache = s.icache := rfl
@[simp] theorem poolStore_reqs (s : State) (core off : Nat) (bs : List Byte) : (poolStore s core off bs).reqs = s.reqs := rfl
@[simp] theorem poolStore_cmds (s : State) (core off : Nat) (bs : List Byte) : (poolStore s core off bs).cmds = s.cmds := rfl
@[simp] theorem poolStore_held (s : State) (core off : Nat) (bs : List Byte) : (poolStore s core off bs).held = s.held := rfl
@[simp] theorem poolStore_wants (s : State) (core off : Nat) (bs : List Byte) : (poolStore s core off bs).wants = s.wants := rfl
@[simp] theorem poolStore_credits (s : State) (core off : Nat) (bs : List Byte) : (poolStore s core off bs).credits = s.credits := rfl
@[simp] theorem poolStore_products (s : State) (core off : Nat) (bs : List Byte) : (poolStore s core off bs).products = s.products := rfl
@[simp] theorem poolStore_migrs (s : State) (core off : Nat) (bs : List Byte) : (poolStore s core off bs).migrs = s.migrs := rfl
@[simp] theorem poolStore_remotes (s : State) (core off : Nat) (bs : List Byte) : (poolStore s core off bs).remotes = s.remotes := rfl
@[simp] theorem poolStore_answers (s : State) (core off : Nat) (bs : List Byte) : (poolStore s core off bs).answers = s.answers := rfl
@[simp] theorem poolStore_retired (s : State) (core off : Nat) (bs : List Byte) : (poolStore s core off bs).retired = s.retired := rfl
@[simp] theorem poolStore_mreg (s : State) (core off : Nat) (bs : List Byte) : (poolStore s core off bs).mreg = s.mreg := rfl
@[simp] theorem poolStore_seq (s : State) (core off : Nat) (bs : List Byte) : (poolStore s core off bs).seq = s.seq := rfl
@[simp] theorem poolStore_lost (s : State) (core off : Nat) (bs : List Byte) : (poolStore s core off bs).lost = s.lost := rfl
@[simp] theorem poolStore_links (s : State) (core off : Nat) (bs : List Byte) : (poolStore s core off bs).links = s.links := rfl
@[simp] theorem poolStore_boot (s : State) (core off : Nat) (bs : List Byte) : (poolStore s core off bs).boot = s.boot := rfl
@[simp] theorem poolStore_flash (s : State) (core off : Nat) (bs : List Byte) : (poolStore s core off bs).flash = s.flash := rfl
@[simp] theorem poolStore_sram (s : State) (core off : Nat) (bs : List Byte) : (poolStore s core off bs).sram = s.sram := rfl
@[simp] theorem poolStore_sigs (s : State) (core off : Nat) (bs : List Byte) : (poolStore s core off bs).sigs = s.sigs := rfl
@[simp] theorem poolStore_tileSigs (s : State) (core off : Nat) (bs : List Byte) : (poolStore s core off bs).tileSigs = s.tileSigs := rfl
@[simp] theorem poolStore_barSigs (s : State) (core off : Nat) (bs : List Byte) : (poolStore s core off bs).barSigs = s.barSigs := rfl
@[simp] theorem poolStore_sets (s : State) (core off : Nat) (bs : List Byte) : (poolStore s core off bs).sets = s.sets := rfl
@[simp] theorem poolStore_rows (s : State) (core off : Nat) (bs : List Byte) : (poolStore s core off bs).rows = s.rows := rfl
@[simp] theorem poolStore_congest (s : State) (core off : Nat) (bs : List Byte) : (poolStore s core off bs).congest = s.congest := rfl
@[simp] theorem poolStore_drr (s : State) (core off : Nat) (bs : List Byte) : (poolStore s core off bs).drr = s.drr := rfl
@[simp] theorem poolStore_starve (s : State) (core off : Nat) (bs : List Byte) : (poolStore s core off bs).starve = s.starve := rfl
@[simp] theorem poolStore_placeable (s : State) (core off : Nat) (bs : List Byte) : (poolStore s core off bs).placeable = s.placeable := rfl
@[simp] theorem poolStore_lastIssue (s : State) (core off : Nat) (bs : List Byte) : (poolStore s core off bs).lastIssue = s.lastIssue := rfl
@[simp] theorem poolStore_boosted (s : State) (core off : Nat) (bs : List Byte) : (poolStore s core off bs).boosted = s.boosted := rfl
@[simp] theorem poolStore_refresh (s : State) (core off : Nat) (bs : List Byte) : (poolStore s core off bs).refresh = s.refresh := rfl
@[simp] theorem poolStore_wctl (s : State) (core off : Nat) (bs : List Byte) : (poolStore s core off bs).wctl = s.wctl := rfl
@[simp] theorem poolStore_shoot (s : State) (core off : Nat) (bs : List Byte) : (poolStore s core off bs).shoot = s.shoot := rfl
@[simp] theorem poolStore_discarded (s : State) (core off : Nat) (bs : List Byte) : (poolStore s core off bs).discarded = s.discarded := rfl
@[simp] theorem poolStore_corr (s : State) (core off : Nat) (bs : List Byte) : (poolStore s core off bs).corr = s.corr := rfl
@[simp] theorem poolStore_under (s : State) (core off : Nat) (bs : List Byte) : (poolStore s core off bs).under = s.under := rfl
@[simp] theorem poolStore_failing (s : State) (core off : Nat) (bs : List Byte) : (poolStore s core off bs).failing = s.failing := rfl
@[simp] theorem poolStore_rowErrs (s : State) (core off : Nat) (bs : List Byte) : (poolStore s core off bs).rowErrs = s.rowErrs := rfl
@[simp] theorem poolStore_lostTold (s : State) (core off : Nat) (bs : List Byte) : (poolStore s core off bs).lostTold = s.lostTold := rfl
@[simp] theorem poolStore_ring (s : State) (core off : Nat) (bs : List Byte) : (poolStore s core off bs).ring = s.ring := rfl
@[simp] theorem poolStore_shots (s : State) (core off : Nat) (bs : List Byte) : (poolStore s core off bs).shots = s.shots := rfl
@[simp] theorem poolStore_early (s : State) (core off : Nat) (bs : List Byte) : (poolStore s core off bs).early = s.early := rfl

/-! tileSet writes the tile counts alone. -/

@[simp] theorem tileSet_agenda (s : State) (core tile n : Nat) : (tileSet s core tile n).agenda = s.agenda := rfl
@[simp] theorem tileSet_free (s : State) (core tile n : Nat) : (tileSet s core tile n).free = s.free := rfl
@[simp] theorem tileSet_fresh (s : State) (core tile n : Nat) : (tileSet s core tile n).fresh = s.fresh := rfl
@[simp] theorem tileSet_clk (s : State) (core tile n : Nat) : (tileSet s core tile n).clk = s.clk := rfl
@[simp] theorem tileSet_readyClk (s : State) (core tile n : Nat) : (tileSet s core tile n).readyClk = s.readyClk := rfl
@[simp] theorem tileSet_cur (s : State) (core tile n : Nat) : (tileSet s core tile n).cur = s.cur := rfl
@[simp] theorem tileSet_warps (s : State) (core tile n : Nat) : (tileSet s core tile n).warps = s.warps := rfl
@[simp] theorem tileSet_ctxs (s : State) (core tile n : Nat) : (tileSet s core tile n).ctxs = s.ctxs := rfl
@[simp] theorem tileSet_clusters (s : State) (core tile n : Nat) : (tileSet s core tile n).clusters = s.clusters := rfl
@[simp] theorem tileSet_blocks (s : State) (core tile n : Nat) : (tileSet s core tile n).blocks = s.blocks := rfl
@[simp] theorem tileSet_saved (s : State) (core tile n : Nat) : (tileSet s core tile n).saved = s.saved := rfl
@[simp] theorem tileSet_pool (s : State) (core tile n : Nat) : (tileSet s core tile n).pool = s.pool := rfl
@[simp] theorem tileSet_poolPoison (s : State) (core tile n : Nat) : (tileSet s core tile n).poolPoison = s.poolPoison := rfl
@[simp] theorem tileSet_cstore (s : State) (core tile n : Nat) : (tileSet s core tile n).cstore = s.cstore := rfl
@[simp] theorem tileSet_csPoison (s : State) (core tile n : Nat) : (tileSet s core tile n).csPoison = s.csPoison := rfl
@[simp] theorem tileSet_staging (s : State) (core tile n : Nat) : (tileSet s core tile n).staging = s.staging := rfl
@[simp] theorem tileSet_dram (s : State) (core tile n : Nat) : (tileSet s core tile n).dram = s.dram := rfl
@[simp] theorem tileSet_l2b (s : State) (core tile n : Nat) : (tileSet s core tile n).l2b = s.l2b := rfl
@[simp] theorem tileSet_l2 (s : State) (core tile n : Nat) : (tileSet s core tile n).l2 = s.l2 := rfl
@[simp] theorem tileSet_ver (s : State) (core tile n : Nat) : (tileSet s core tile n).ver = s.ver := rfl
@[simp] theorem tileSet_replicas (s : State) (core tile n : Nat) : (tileSet s core tile n).replicas = s.replicas := rfl
@[simp] theorem tileSet_poison (s : State) (core tile n : Nat) : (tileSet s core tile n).poison = s.poison := rfl
@[simp] theorem tileSet_hist (s : State) (core tile n : Nat) : (tileSet s core tile n).hist = s.hist := rfl
@[simp] theorem tileSet_order (s : State) (core tile n : Nat) : (tileSet s core tile n).order = s.order := rfl
@[simp] theorem tileSet_host (s : State) (core tile n : Nat) : (tileSet s core tile n).host = s.host := rfl
@[simp] theorem tileSet_peer (s : State) (core tile n : Nat) : (tileSet s core tile n).peer = s.peer := rfl
@[simp] theorem tileSet_fmeta (s : State) (core tile n : Nat) : (tileSet s core tile n).fmeta = s.fmeta := rfl
@[simp] theorem tileSet_packets (s : State) (core tile n : Nat) : (tileSet s core tile n).packets = s.packets := rfl
@[simp] theorem tileSet_watches (s : State) (core tile n : Nat) : (tileSet s core tile n).watches = s.watches := rfl
@[simp] theorem tileSet_tlb (s : State) (core tile n : Nat) : (tileSet s core tile n).tlb = s.tlb := rfl
@[simp] theorem tileSet_icache (s : State) (core tile n : Nat) : (tileSet s core tile n).icache = s.icache := rfl
@[simp] theorem tileSet_reqs (s : State) (core tile n : Nat) : (tileSet s core tile n).reqs = s.reqs := rfl
@[simp] theorem tileSet_cmds (s : State) (core tile n : Nat) : (tileSet s core tile n).cmds = s.cmds := rfl
@[simp] theorem tileSet_held (s : State) (core tile n : Nat) : (tileSet s core tile n).held = s.held := rfl
@[simp] theorem tileSet_wants (s : State) (core tile n : Nat) : (tileSet s core tile n).wants = s.wants := rfl
@[simp] theorem tileSet_credits (s : State) (core tile n : Nat) : (tileSet s core tile n).credits = s.credits := rfl
@[simp] theorem tileSet_products (s : State) (core tile n : Nat) : (tileSet s core tile n).products = s.products := rfl
@[simp] theorem tileSet_migrs (s : State) (core tile n : Nat) : (tileSet s core tile n).migrs = s.migrs := rfl
@[simp] theorem tileSet_remotes (s : State) (core tile n : Nat) : (tileSet s core tile n).remotes = s.remotes := rfl
@[simp] theorem tileSet_answers (s : State) (core tile n : Nat) : (tileSet s core tile n).answers = s.answers := rfl
@[simp] theorem tileSet_retired (s : State) (core tile n : Nat) : (tileSet s core tile n).retired = s.retired := rfl
@[simp] theorem tileSet_mreg (s : State) (core tile n : Nat) : (tileSet s core tile n).mreg = s.mreg := rfl
@[simp] theorem tileSet_seq (s : State) (core tile n : Nat) : (tileSet s core tile n).seq = s.seq := rfl
@[simp] theorem tileSet_lost (s : State) (core tile n : Nat) : (tileSet s core tile n).lost = s.lost := rfl
@[simp] theorem tileSet_links (s : State) (core tile n : Nat) : (tileSet s core tile n).links = s.links := rfl
@[simp] theorem tileSet_boot (s : State) (core tile n : Nat) : (tileSet s core tile n).boot = s.boot := rfl
@[simp] theorem tileSet_flash (s : State) (core tile n : Nat) : (tileSet s core tile n).flash = s.flash := rfl
@[simp] theorem tileSet_sram (s : State) (core tile n : Nat) : (tileSet s core tile n).sram = s.sram := rfl
@[simp] theorem tileSet_sigs (s : State) (core tile n : Nat) : (tileSet s core tile n).sigs = s.sigs := rfl
@[simp] theorem tileSet_tileSigs (s : State) (core tile n : Nat) : (tileSet s core tile n).tileSigs = s.tileSigs := rfl
@[simp] theorem tileSet_barSigs (s : State) (core tile n : Nat) : (tileSet s core tile n).barSigs = s.barSigs := rfl
@[simp] theorem tileSet_sets (s : State) (core tile n : Nat) : (tileSet s core tile n).sets = s.sets := rfl
@[simp] theorem tileSet_rows (s : State) (core tile n : Nat) : (tileSet s core tile n).rows = s.rows := rfl
@[simp] theorem tileSet_congest (s : State) (core tile n : Nat) : (tileSet s core tile n).congest = s.congest := rfl
@[simp] theorem tileSet_drr (s : State) (core tile n : Nat) : (tileSet s core tile n).drr = s.drr := rfl
@[simp] theorem tileSet_starve (s : State) (core tile n : Nat) : (tileSet s core tile n).starve = s.starve := rfl
@[simp] theorem tileSet_placeable (s : State) (core tile n : Nat) : (tileSet s core tile n).placeable = s.placeable := rfl
@[simp] theorem tileSet_lastIssue (s : State) (core tile n : Nat) : (tileSet s core tile n).lastIssue = s.lastIssue := rfl
@[simp] theorem tileSet_boosted (s : State) (core tile n : Nat) : (tileSet s core tile n).boosted = s.boosted := rfl
@[simp] theorem tileSet_refresh (s : State) (core tile n : Nat) : (tileSet s core tile n).refresh = s.refresh := rfl
@[simp] theorem tileSet_wctl (s : State) (core tile n : Nat) : (tileSet s core tile n).wctl = s.wctl := rfl
@[simp] theorem tileSet_shoot (s : State) (core tile n : Nat) : (tileSet s core tile n).shoot = s.shoot := rfl
@[simp] theorem tileSet_discarded (s : State) (core tile n : Nat) : (tileSet s core tile n).discarded = s.discarded := rfl
@[simp] theorem tileSet_corr (s : State) (core tile n : Nat) : (tileSet s core tile n).corr = s.corr := rfl
@[simp] theorem tileSet_under (s : State) (core tile n : Nat) : (tileSet s core tile n).under = s.under := rfl
@[simp] theorem tileSet_failing (s : State) (core tile n : Nat) : (tileSet s core tile n).failing = s.failing := rfl
@[simp] theorem tileSet_rowErrs (s : State) (core tile n : Nat) : (tileSet s core tile n).rowErrs = s.rowErrs := rfl
@[simp] theorem tileSet_lostTold (s : State) (core tile n : Nat) : (tileSet s core tile n).lostTold = s.lostTold := rfl
@[simp] theorem tileSet_ring (s : State) (core tile n : Nat) : (tileSet s core tile n).ring = s.ring := rfl
@[simp] theorem tileSet_shots (s : State) (core tile n : Nat) : (tileSet s core tile n).shots = s.shots := rfl
@[simp] theorem tileSet_early (s : State) (core tile n : Nat) : (tileSet s core tile n).early = s.early := rfl

end Sys2Proof.Machine
end

