-- ==== Sys2Proof/Laws/Step.lean ====
section
/-! SUPPORT. What a home that holds an access until DRAIN clears does to a step (R57). -/

namespace Sys2Proof.Machine

/-- An access reaches its homes and changes nothing, or is counted as held. -/
theorem reachHome_cases (s : State) (pa n : Nat) : reachHome s pa n = s ∨ reachHome s pa n = { s with early := s.early + 1 } := by
  unfold reachHome
  split
  · exact .inr rfl
  · exact .inl rfl

/-- With DRAIN clear no access is held. -/
theorem reachHome_clear (s : State) (pa n : Nat) (h : draining s = false) : reachHome s pa n = s := by
  simp [reachHome, h]

/-- A step that no home holds stands. -/
theorem heldBack_stands (s t : State) (h : t.early = s.early) : heldBack s (.next t) = .next t := by
  simp [heldBack, h]

/-- A step that a home holds waits. -/
theorem heldBack_waits (s t : State) (h : t.early ≠ s.early) : heldBack s (.next t) = .next s := by
  simp [heldBack, h]

/-- What follows a step that may be held: its own result, or the state as it was. -/
theorem heldBack_next {s t : State} {o : Out} (h : heldBack s o = .next t) : o = .next t ∨ t = s := by
  unfold heldBack at h
  split at h
  · split at h
    · exact .inl h
    · cases h
      exact .inr rfl
  · exact .inl h

end Sys2Proof.Machine
end

