-- ==== Sys2Proof/Laws/Sync.lean ====
section
/-! SUPPORT. What dooming a transaction leaves, and what an access to barrier objects does where it performs at once. -/

namespace Sys2Proof.Machine

/-- Dooming a transaction changes the warp's transaction and its cause, and drops its staged entries. -/
theorem doom_eq (s : State) (c : Nat) :
    doom s c = { s with cur := (doomWarp s s.cur c).1, staging := (doomWarp s s.cur c).2.staging } := by
  by_cases h : (s.cur.txn.isOpen && !s.cur.txn.doomed) = true <;> simp [doom, doomWarp, h]

@[simp] theorem doom_clusters (s : State) (c : Nat) : (doom s c).clusters = s.clusters := by rw [doom_eq]
@[simp] theorem doom_blocks (s : State) (c : Nat) : (doom s c).blocks = s.blocks := by rw [doom_eq]
@[simp] theorem doom_ctxs (s : State) (c : Nat) : (doom s c).ctxs = s.ctxs := by rw [doom_eq]
@[simp] theorem doom_warps (s : State) (c : Nat) : (doom s c).warps = s.warps := by rw [doom_eq]
@[simp] theorem doom_pool (s : State) (c : Nat) : (doom s c).pool = s.pool := by rw [doom_eq]
@[simp] theorem doom_reqs (s : State) (c : Nat) : (doom s c).reqs = s.reqs := by rw [doom_eq]
@[simp] theorem doom_cmds (s : State) (c : Nat) : (doom s c).cmds = s.cmds := by rw [doom_eq]
@[simp] theorem doom_credits (s : State) (c : Nat) : (doom s c).credits = s.credits := by rw [doom_eq]
@[simp] theorem doom_tileSigs (s : State) (c : Nat) : (doom s c).tileSigs = s.tileSigs := by rw [doom_eq]

theorem doomWarp_uid (s : State) (w : Warp) (c : Nat) : (doomWarp s w c).1.uid = w.uid := by unfold doomWarp; split <;> rfl
theorem doomWarp_core (s : State) (w : Warp) (c : Nat) : (doomWarp s w c).1.core = w.core := by unfold doomWarp; split <;> rfl
theorem doomWarp_ctx (s : State) (w : Warp) (c : Nat) : (doomWarp s w c).1.ctx = w.ctx := by unfold doomWarp; split <;> rfl
theorem doomWarp_clu (s : State) (w : Warp) (c : Nat) : (doomWarp s w c).1.clu = w.clu := by unfold doomWarp; split <;> rfl
theorem doomWarp_bid (s : State) (w : Warp) (c : Nat) : (doomWarp s w c).1.bid = w.bid := by unfold doomWarp; split <;> rfl
theorem doomWarp_olog (s : State) (w : Warp) (c : Nat) : (doomWarp s w c).1.olog = w.olog := by unfold doomWarp; split <;> rfl
theorem doomWarp_hwn (s : State) (w : Warp) (c : Nat) : (doomWarp s w c).1.hwn = w.hwn := by unfold doomWarp; split <;> rfl

@[simp] theorem doom_uid (s : State) (c : Nat) : (doom s c).cur.uid = s.cur.uid := by rw [doom_eq]; exact doomWarp_uid _ _ _
@[simp] theorem doom_core (s : State) (c : Nat) : (doom s c).cur.core = s.cur.core := by rw [doom_eq]; exact doomWarp_core _ _ _
@[simp] theorem doom_ctx (s : State) (c : Nat) : (doom s c).cur.ctx = s.cur.ctx := by rw [doom_eq]; exact doomWarp_ctx _ _ _
@[simp] theorem doom_clu (s : State) (c : Nat) : (doom s c).cur.clu = s.cur.clu := by rw [doom_eq]; exact doomWarp_clu _ _ _
@[simp] theorem doom_bid (s : State) (c : Nat) : (doom s c).cur.bid = s.cur.bid := by rw [doom_eq]; exact doomWarp_bid _ _ _
@[simp] theorem doom_olog (s : State) (c : Nat) : (doom s c).cur.olog = s.cur.olog := by rw [doom_eq]; exact doomWarp_olog _ _ _
@[simp] theorem doom_hwn (s : State) (c : Nat) : (doom s c).cur.hwn = s.cur.hwn := by rw [doom_eq]; exact doomWarp_hwn _ _ _

/-- A pool place is the clusters' and the warp's place among them. -/
theorem poolAt_congr (s t : State) (w v : Warp) (a n : Nat) (h : t.clusters = s.clusters) (hc : v.core = w.core) (hx : v.ctx = w.ctx)
    (hk : v.clu = w.clu) : poolAt t v a n = poolAt s w a n := by
  have e : clusterOf t v = clusterOf s w := by simp only [clusterOf, findCluster, h, hx, hk]
  have m : memberCore t v = memberCore s w := by funext m; simp only [memberCore, e, hc]
  unfold poolAt
  rw [e, m]

theorem poolLoc_congr (s t : State) (w v : Warp) (a n : Nat) (h : t.clusters = s.clusters) (hc : v.core = w.core) (hx : v.ctx = w.ctx)
    (hk : v.clu = w.clu) : poolLoc t v a n = poolLoc s w a n := by
  unfold poolLoc
  rw [poolAt_congr s t w v a n h hc hx hk, hc]

@[simp] theorem poolLoc_onCur (s : State) (f : Warp → Warp) (w : Warp) (a n : Nat) : poolLoc (onCur s f) w a n = poolLoc s w a n := rfl
@[simp] theorem barRead_onCur (s : State) (f : Warp → Warp) (core off : Nat) : barRead (onCur s f) core off = barRead s core off := rfl
@[simp] theorem phaseSigs_onCur (s : State) (f : Warp → Warp) (core off p : Nat) :
    phaseSigs (onCur s f) core off p = phaseSigs s core off p := rfl
@[simp] theorem poolLoc_doom (s : State) (c a n : Nat) : poolLoc (doom s c) (doom s c).cur a n = poolLoc s s.cur a n :=
  poolLoc_congr _ _ _ _ _ _ (by simp) (by simp) (by simp) (by simp)
@[simp] theorem poolLoc_doom_who (s : State) (c : Nat) (w : Warp) (a n : Nat) : poolLoc (doom s c) w a n = poolLoc s w a n :=
  poolLoc_congr _ _ _ _ _ _ (by simp) rfl rfl rfl

/-- No object that lanes name is out of order: each is initialised and nothing else is wrong with it. -/
theorem objects_ok (s t : State) (lanes : List Nat) (loc : Nat → Nat × Nat) (bad : State → Nat → Option Nat) (h : t.pool = s.pool)
    (hv : ∀ l ∈ lanes, barV (barRead s (loc l).1 (loc l).2).1 = true) (hbad : ∀ l ∈ lanes, bad t l = none) :
    (lanes.findSome? fun l =>
      if barV (barRead t (loc l).1 (loc l).2).1 then (bad t l).map fun k => (l, k) else some (l, 1)) = none := by
  rw [List.findSome?_eq_none_iff]
  intro l hl
  have hb : ∀ a b, barRead t a b = barRead s a b := by intro a b; simp only [barRead, poolNat, poolBytes, h]
  rw [hb, if_pos (hv l hl), hbad l hl]
  rfl

/-- No lane's access fails its checks. -/
theorem firstLane_none (lanes : List Nat) (f : Nat → Option LaneBad) (h : ∀ l ∈ lanes, f l = none) : firstLane lanes f = none := by
  unfold firstLane
  rw [List.findSome?_eq_none_iff]
  intro l hl
  simp [h l hl]

/-- An access to objects that performs at once: each lane's object passes the checks and is initialised, nothing else is wrong with
it, and the pool is the core's own. -/
theorem barAccess_here (s : State) (r : Run) (it : Item) (lanes : List Nat) (addr : Nat → Nat)
    (bad : State → Nat → Option Nat) (go : State → Run → State)
    (hchk : ∀ l ∈ lanes, poolReadCheck s s.cur (addr l) 16 16 = none)
    (hv : ∀ l ∈ lanes, barV (barRead s (poolLoc s s.cur (addr l) 16).1 (poolLoc s s.cur (addr l) 16).2).1 = true)
    (ht : r.transit = false) (hgo : goesOut s s.cur (poolCores s s.cur lanes addr 16) = false)
    (hbad : ∀ l ∈ lanes, bad s l = none) :
    barAccess false false s s.cur r it lanes addr bad go =
      go (onCur s (metTiles s lanes (fun l => poolLoc s s.cur (addr l) 16) 16)) r := by
  simp only [barAccess, firstLane_none lanes _ hchk, ht, Bool.false_eq_true, if_false]
  rw [overCauseway_here false _ _ _ _ (.inl hgo), objects_ok s s lanes _ bad rfl hv hbad]

/-- The same for an access that releases first, where nothing is left to release (R73). -/
theorem barAccess_released (s : State) (r : Run) (it : Item) (lanes : List Nat) (addr : Nat → Nat)
    (bad : State → Nat → Option Nat) (go : State → Run → State) (scs : List Nat)
    (hs : scs = objScopes s (lanes.map fun l => poolLoc s s.cur (addr l) 16))
    (hchk : ∀ l ∈ lanes, poolReadCheck s s.cur (addr l) 16 16 = none)
    (hv : ∀ l ∈ lanes, barV (barRead s (poolLoc s s.cur (addr l) 16).1 (poolLoc s s.cur (addr l) 16).2).1 = true)
    (ht : r.transit = false) (hgo : goesOut s s.cur (poolCores s s.cur lanes addr 16) = false)
    (hrel : Clear s r scs) (hbad : ∀ l ∈ lanes, bad (past s r scs) l = none) :
    barAccess true false s s.cur r it lanes addr bad go =
      go (onCur (past s r scs) (metTiles (past s r scs) lanes (fun l => poolLoc s s.cur (addr l) 16) 16)) r := by
  subst hs
  simp only [barAccess, firstLane_none lanes _ hchk, ht, Bool.false_eq_true, if_false, if_true]
  rw [boundary_clear _ _ _ _ hrel, overCauseway_here false _ (past s r _) _ _ (.inl ?_),
    objects_ok s (past s r _) lanes (fun l => poolLoc s s.cur (addr l) 16) bad rfl hv hbad]
  exact hgo

end Sys2Proof.Machine
end

