-- ==== Sys2Proof/Tests/Slice0.lean ====
section
/-! SUPPORT. Tests of the model: words decoded by hand, terms that are not well formed, one step on small states, and for every
statement of Obligations with hypotheses a state and operands that meet them together. -/

namespace Sys2Proof.Tests

open Sys2Proof.Machine

set_option Elab.async false

/-- A small machine: one warp of 32 lanes on core 0 in a launch with every role, at a NOP clause. -/
def demo : State := State.reset.withFetchWord 64 0x0007000000000021

/-- Its clause. -/
def demoRun : Run := fetchRun [0x21, 0x70000]

/-- What Ready says, as a test. -/
def readyB (s : State) (r : Run) (it : Item) (sp : Spec) : Bool :=
  s.cur.run == some r && !r.transit && breakLanes s s.cur r == 0 && !blocked s.cur r sp.wide (specRegs it sp) &&
    (specBads s s.cur r it sp).isEmpty && (s.products.all fun p => p.warp != s.cur.uid || p.dcSel == 0) &&
      (lostRead s s.cur r it sp).isNone

theorem ready_of {s r it sp} (h : readyB s r it sp = true) : Ready s r it sp := by
  simp only [readyB, Bool.and_eq_true, beq_iff_eq, Bool.not_eq_true', List.isEmpty_iff, List.all_eq_true, Bool.or_eq_true,
    bne_iff_ne, Option.isNone_iff_eq_none] at h
  obtain ⟨⟨⟨⟨⟨⟨a, z⟩, b⟩, c⟩, d⟩, e⟩, f⟩ := h
  exact ⟨a, z, b, c, d, e, f⟩

/-- A long form's fields. -/
def long (md a b c d : Nat) (lit : Option Word := none) : Long :=
  { md := BitVec.ofNat 12 md, gn := false, gp := 7, c := BitVec.ofNat 9 c, b := BitVec.ofNat 9 b, a := BitVec.ofNat 9 a, nowb := false,
    dst := BitVec.ofNat 8 d, lit := lit }

/-- A short form's fields. -/
def short (b7 a d : Nat) : Short := { b7 := BitVec.ofNat 7 b7, a := BitVec.ofNat 9 a, dst := BitVec.ofNat 8 d }

/-- Setting the focused warp. -/
def withWarp (s : State) (f : Warp → Warp) : State := { s with cur := f s.cur }

/-- s registers of the focused warp. -/
def withS (s : State) (l : List (Nat × Nat)) : State := withWarp s fun w => l.foldl (fun w e => sset w e.1 (w32 e.2)) w

/-- A v register, the same in every lane. -/
def withV (s : State) (n x : Nat) : State := withWarp s fun w => (List.range 32).foldl (fun w l => vset w n l (w32 x)) w

/-- Words of memory at a device address. -/
def dramWord (m : NMap Byte) (a : Nat) (x : Nat) : NMap Byte := nsetRange 0 m a (bytesOf 8 x)

/-- Page tables of tenant 0 from 0x10000 on: the page at 0 is the writable, executable frame 2, the code there two NOP
clauses; the page at 0x10000 is frame 3, striped. -/
def mapped (s : State) : State :=
  { bothPut s 0x11 0 0x10001 with
    dram := ([(0x10000, 2 ^ 63 + 0x14000), (0x14000, 2 ^ 63 + 0x18000), (0x18000, 2 ^ 63 + 0x1C000), (0x1C000, 2 ^ 63 + 2 ^ 60 + 2), (0x1C008, 2 ^ 63 + 2 ^ 58 + 3),
      (0x20000, 128 + 3), (0x20008, 0x0007000000000021), (0x20010, 128 + 3), (0x20018, 0x0007000000000021)] : List (Nat × Nat)).foldl
        (fun m e => dramWord m e.1 e.2) [] }

/-- A tensor record of 32 FP32 elements at `base`, in the pool where `space`. -/
def record (base : Nat) (space : Bool) : List Byte :=
  ([base, 32, 0, if space then 2 ^ 31 else 0, 0, 2 ^ 27 + 31, 2 ^ 21 + 2 ^ 25 + 3 * 2 ^ 27 + 2 ^ 32 + 2 * 2 ^ 33, 0] : List Nat).flatMap (bytesOf 8)

/-- A key-value segment record of 64 BF16 tokens of head dimension 16 at 0x10000. -/
def kvRecord : List Byte := ([0x10000, 4 * 2 ^ 35 + 64, 0, 0x3F800000, 0, 0, 0, 0] : List Nat).flatMap (bytesOf 8)

/-- A chain that copies its first input. -/
def chain1 : List DWord := [dw (1 + 32 + 2 * 128), dw (8 * 256 + 9 * 8192)]

/-- The machine with a tensor record of the page 0 at pool 0x1000, one of the pool at 0x1040, a segment record at 0x1080, a chain in
slot 0, iterators, a swept product's registers, and a control word with its barrier object at 0x4000. -/
def eng : State :=
  let s := poolStore (poolStore (poolStore (mapped demo) 0 0x1000 (record 0x100 false)) 0 0x1040 (record 0x3000 true)) 0 0x1080 kvRecord
  let s := withS s [(1, 0x4000 * 4096), (2, 0x1000), (3, 0x1040), (4, 0x2000), (5, 0x5000), (6, 0x10000), (7, 0), (16, 0x1080), (17, 0), (18, 64), (20, 0x8000),
    (21, 16 * 65536 + 32), (22, 64 * 65536 + 32), (23, 0), (24, 0)]
  let s := withWarp s fun w => { w with iter := [(0, some ⟨parseTensor (wordsOf (record 0x3000 true) 8), [0, 0, 0, 0, 0], 0x1040, 2⟩),
    (1, some ⟨parseTensor (wordsOf (record 0x100 false) 8), [0, 0, 0, 0, 0], 0x1000, 2⟩)] }
  { s with
    ctxs := s.ctxs.map fun c => { c with khdr := c.khdr ++ [0, 1], chains := [chain1] }
    blocks := s.blocks.map fun b => { b with chains := [(0, some chain1)] } }

/-- Whether the issue steps of a command find no fault and nothing to wait for. -/
def okB (x : Iss State) : Bool := match x with | .ok _ _ => true | _ => false

/-! Decoding: words composed by hand from the fields of Table 6.5 (MOD 63:52, GN 51, GP 50:48, C 47:39, B 38:30, A 29:21,
NOWB 20, DST 19:12, OPC 11:2, LC 1:0) and of Table 6.6 (B7 31:25, A 24:16, DST 15:8, SOP 7:2, LC 1:0); opcodes of Tables 6.10
and 6.11. -/

/-- Control: BRA forward 5 words, guard !p2. -/
theorem test_decode_bra : decodeTableWord 96 0x00000005000A000000000002 =
    some (.bra { md := 0x0, gn := true, gp := 2, c := 0x0, b := 0x0, a := 0x0, nowb := false, dst := 0x0, lit := some 0x5 }) := by decide +kernel

/-- Control: EXIT under p0. -/
theorem test_decode_exit : decodeTableWord 64 0x0000000000000015 =
    some (.exit { md := 0x0, gn := false, gp := 0, c := 0x0, b := 0x0, a := 0x0, nowb := false, dst := 0x0, lit := none }) := by decide +kernel

/-- Control: LAUNCH A = v4. -/
theorem test_decode_launch : decodeTableWord 64 0x0007000000808025 =
    some (.launch { md := 0x0, gn := false, gp := 7, c := 0x0, b := 0x0, a := 0x4, nowb := false, dst := 0x8, lit := none }) := by decide +kernel

/-- Uniform: SADD.n64 s12 = s3 + s5. -/
theorem test_decode_sadd : decodeTableWord 64 0x180700416060C085 =
    some (.sadd { md := 0x180, gn := false, gp := 7, c := 0x0, b := 0x105, a := 0x103, nowb := false, dst := 0xC, lit := none }) := by decide +kernel

/-- Uniform: SLDP. -/
theorem test_decode_sldp : decodeTableWord 64 0x40070041A0A080B5 =
    some (.sldp { md := 0x400, gn := false, gp := 7, c := 0x0, b := 0x106, a := 0x105, nowb := false, dst := 0x8, lit := none }) := by decide +kernel

/-- Integer: ISUB.i32 v9 = v1 - v2, guard q? p1. -/
theorem test_decode_isub : decodeTableWord 64 0x0001000080209109 =
    some (.isub { md := 0x0, gn := false, gp := 1, c := 0x0, b := 0x2, a := 0x1, nowb := false, dst := 0x9, lit := none }) := by decide +kernel

/-- Integer: the last opcode of the group. -/
theorem test_decode_isel : decodeTableWord 64 0x1007018080209159 =
    some (.isel { md := 0x100, gn := false, gp := 7, c := 0x3, b := 0x2, a := 0x1, nowb := false, dst := 0x9, lit := none }) := by decide +kernel

/-- Address: LEA. -/
theorem test_decode_lea : decodeTableWord 64 0x04070200E2014181 =
    some (.lea { md := 0x40, gn := false, gp := 7, c := 0x4, b := 0x3, a := 0x110, nowb := false, dst := 0x14, lit := none }) := by decide +kernel

/-- FP32: FADD v7 = v8 + v9. -/
theorem test_decode_fadd : decodeTableWord 64 0x5807000241007201 =
    some (.fadd { md := 0x580, gn := false, gp := 7, c := 0x0, b := 0x9, a := 0x8, nowb := false, dst := 0x7, lit := none }) := by decide +kernel

/-- Packed: HADD2. -/
theorem test_decode_hadd2 : decodeTableWord 64 0x6007000241007281 =
    some (.hadd2 { md := 0x600, gn := false, gp := 7, c := 0x0, b := 0x9, a := 0x8, nowb := false, dst := 0x7, lit := none }) := by decide +kernel

/-- Packed: DFMA. -/
theorem test_decode_dfma : decodeTableWord 64 0x7007060281006299 =
    some (.dfma { md := 0x700, gn := false, gp := 7, c := 0xC, b := 0xA, a := 0x8, nowb := false, dst := 0x6, lit := none }) := by decide +kernel

/-- Conversion: CVTP. -/
theorem test_decode_cvtp : decodeTableWord 64 0x0007000140806305 =
    some (.cvtp { md := 0x0, gn := false, gp := 7, c := 0x0, b := 0x5, a := 0x4, nowb := false, dst := 0x6, lit := none }) := by decide +kernel

/-- Lanes: SHFL. -/
theorem test_decode_shfl : decodeTableWord 64 0x0207EF814080638D =
    some (.shfl { md := 0x20, gn := false, gp := 7, c := 0x1DF, b := 0x5, a := 0x4, nowb := false, dst := 0x6, lit := none }) := by decide +kernel

/-- Lanes: PART 8. -/
theorem test_decode_part : decodeTableWord 64 0x00070000386003A9 =
    some (.part { md := 0x0, gn := false, gp := 7, c := 0x0, b := 0x0, a := 0x1C3, nowb := false, dst := 0x0, lit := none }) := by decide +kernel

/-- Pool: LDS. -/
theorem test_decode_lds : decodeTableWord 64 0x0807030100408401 =
    some (.lds { md := 0x80, gn := false, gp := 7, c := 0x6, b := 0x4, a := 0x2, nowb := false, dst := 0x8, lit := none }) := by decide +kernel

/-- Pool: ATOMS. -/
theorem test_decode_atoms : decodeTableWord 64 0x042703010050840D =
    some (.atoms { md := 0x42, gn := false, gp := 7, c := 0x6, b := 0x4, a := 0x2, nowb := true, dst := 0x8, lit := none }) := by decide +kernel

/-- Global: STG. -/
theorem test_decode_stg : decodeTableWord 64 0x0807030100408481 =
    some (.stg { md := 0x80, gn := false, gp := 7, c := 0x6, b := 0x4, a := 0x2, nowb := false, dst := 0x8, lit := none }) := by decide +kernel

/-- Engine: TSTORE. -/
theorem test_decode_tstore : decodeTableWord 64 0x00078440A0801505 =
    some (.tstore { md := 0x0, gn := false, gp := 7, c := 0x108, b := 0x102, a := 0x104, nowb := false, dst := 0x1, lit := none }) := by decide +kernel

/-- DRAM: ROWZF. -/
theorem test_decode_rowzf : decodeTableWord 64 0x0007000026001581 =
    some (.rowzf { md := 0x0, gn := false, gp := 7, c := 0x0, b := 0x0, a := 0x130, nowb := false, dst := 0x1, lit := none }) := by decide +kernel

/-- Matrix: KSET. -/
theorem test_decode_kset : decodeTableWord 64 0x0037004160800609 =
    some (.kset { md := 0x3, gn := false, gp := 7, c := 0x0, b := 0x105, a := 0x104, nowb := false, dst := 0x0, lit := none }) := by decide +kernel

/-- Matrix: ITSET. -/
theorem test_decode_itset : decodeTableWord 64 0x0007894462002619 =
    some (.itset { md := 0x0, gn := false, gp := 7, c := 0x112, b := 0x111, a := 0x110, nowb := false, dst := 0x2, lit := none }) := by decide +kernel

/-- Synchronisation: BINIT. -/
theorem test_decode_binit : decodeTableWord 64 0x0007007060800681 =
    some (.binit { md := 0x0, gn := false, gp := 7, c := 0x0, b := 0x1C1, a := 0x104, nowb := false, dst := 0x0, lit := none }) := by decide +kernel

/-- Synchronisation: XABORT 9. -/
theorem test_decode_xabort : decodeTableWord 64 0x00970000000006B1 =
    some (.xabort { md := 0x9, gn := false, gp := 7, c := 0x0, b := 0x0, a := 0x0, nowb := false, dst := 0x0, lit := none }) := by decide +kernel

/-- System: RDSR sr number 0x0A. -/
theorem test_decode_rdsr : decodeTableWord 64 0x00A7000000003701 =
    some (.rdsr { md := 0xA, gn := false, gp := 7, c := 0x0, b := 0x0, a := 0x0, nowb := false, dst := 0x3, lit := none }) := by decide +kernel

/-- System: BAREDIT. -/
theorem test_decode_baredit : decodeTableWord 64 0x00070041A080071D =
    some (.baredit { md := 0x0, gn := false, gp := 7, c := 0x0, b := 0x106, a := 0x104, nowb := false, dst := 0x0, lit := none }) := by decide +kernel

/-- Short forms: one of each quarter of Table 6.11, and EXIT. -/
theorem test_decode_shorts :
    decodeTableWord 32 0xA2020708 = some (.iaddShort { b7 := 0x51, a := 0x2, dst := 7 }) ∧
    decodeTableWord 32 0x06020744 = some (.lop3XorShort { b7 := 0x3, a := 0x2, dst := 7 }) ∧
    decodeTableWord 32 0x08050688 = some (.hmul2Bf16Short { b7 := 0x4, a := 0x5, dst := 6 }) ∧
    decodeTableWord 32 0xA20505C0 = some (.shflXorShort { b7 := 0x51, a := 0x5, dst := 5 }) ∧
    decodeTableWord 32 0x000000FC = some (.exitShort { b7 := 0x0, a := 0x0, dst := 0 }) := by decide +kernel

/-- Opcodes past the end of a group and words that are clause headers are no instruction (R105, R108, R124). -/
theorem test_reserved_words :
    decodeTableWord 64 0x0007000000000029 = none ∧ decodeTableWord 64 0x00070000000005E1 = none ∧
    decodeTableWord 64 0x0007000000000F81 = none ∧ decodeTableWord 64 3 = none := by decide +kernel

/-! Terms that are not well formed: each check of WellFormed refuses one. -/

theorem test_wf_forms :
    (Instr.pcopy (long 0x100 0 0 0 0)).wf = false ∧ (Instr.pcopyR (long 0 0 0 0 0)).wf = false ∧
    (Instr.chrun (long 0x100 0 0 0 0)).wf = false ∧ (Instr.chrunTile (long 0 0 0 0 0)).wf = false ∧
    (Instr.pcopyR (long 0x100 0 0 0 0)).wf = true := by decide +kernel

theorem test_wf_agents :
    (Instr.clauseIssue 384 0 0).wf = false ∧ (Instr.rcvHoldExpiry 0 4 0).wf = false ∧ (Instr.warpRetire 0 0 17).wf = false ∧
    (Instr.poolAccessAtTarget 384 0 0).wf = false ∧ (Instr.boundaryReleaseComplete 0 4 0).wf = false ∧
    (Instr.operandLogReplay 0 0 17).wf = false ∧ (Instr.ageSwap 384 0).wf = false ∧ (Instr.handlerStart 0 4).wf = false ∧
    (Instr.congestionLevel 0 0 4).wf = false ∧ (Instr.congestionLevelExpiry 0 384).wf = false ∧
    (Instr.wctlResume 384).wf = false ∧ (Instr.wctlKill 384).wf = false ∧ (Instr.wctlHalt 384).wf = false ∧
    (Instr.wctlStepOn 384).wf = false ∧ (Instr.wctlStepOff 384).wf = false ∧ (Instr.clauseIssue 383 3 16).wf = true := by
  decide +kernel

theorem test_wf_memory :
    (Instr.stackRefresh 8 0 0).wf = false ∧ (Instr.frameRetire (2 ^ 31)).wf = false ∧
    (Instr.faultUnitMigrate 0 (2 ^ 60)).wf = false ∧ (Instr.pageRevive 16 0).wf = false ∧
    (Instr.remoteHomeRequest 0 (2 ^ 60)).wf = false ∧ (Instr.remoteHomeReply 16 0 false 0).wf = false ∧
    (Instr.remoteHomeTimeout 16 0).wf = false := by decide +kernel

theorem test_wf_launches :
    (Instr.launchRecordRead 16 0).wf = false ∧ (Instr.starvationBoost 0 8).wf = false ∧ (Instr.qidxWidxWrite 0 8 0).wf = false ∧
    (Instr.tctlSuspWrite 16 1).wf = false ∧ (Instr.tenantReset 16).wf = false ∧ (Instr.tenantResetComplete 16).wf = false ∧
    (Instr.eqidxCidxWrite 17 0).wf = false ∧ (Instr.eqctlClr 17).wf = false ∧ (Instr.registerWrite (2 ^ 32) 0).wf = false := by
  decide +kernel

/-- A cell with `n` payload bytes. -/
def cellOf (n : Nat) : Cell := { seq := 0, aseq := 0, vc := 0, kind := 0, fvc := 0, free := 0, payload := List.replicate n 0, crc := 0 }

theorem test_wf_links :
    (Instr.tarsorCellSend 18 (cellOf 52)).wf = false ∧ (Instr.tarsorCellSend 0 (cellOf 51)).wf = false ∧
    (Instr.tarsorDataCell 0 (cellOf 53)).wf = false ∧ (Instr.tarsorDedupReference 18 (cellOf 52)).wf = false ∧
    (Instr.tarsorReplayRequest 18 (cellOf 52)).wf = false ∧ (Instr.tarsorIdleCell 18 (cellOf 52)).wf = false ∧
    (Instr.linkReplayLimit 18).wf = false ∧ (Instr.linkAckTimeout 18).wf = false ∧ (Instr.linkTrainingDone 18 true).wf = false ∧
    (Instr.tlctlRetrain 18).wf = false ∧ (Instr.tlctlEnWrite 18 1).wf = false ∧
    (Instr.tarsorDataCell 17 (cellOf 52)).wf = true := by decide +kernel

theorem test_wf_dies :
    (Instr.electionIdentifier 6 0 0).wf = false ∧ (Instr.electionTimeout 6).wf = false ∧ (Instr.thermalTrip 6).wf = false ∧
    (Instr.powerTokenPass 4).wf = false := by decide +kernel

/-! One step from the machine after reset with one instruction placed. The expected values are the spec's own examples and
boundary tables, or follow by hand from the rule named. -/

/-- One step of a placed instruction from registers set by `f`. -/
def after (nbits w : Nat) (f : State → State) : State :=
  match step (f (State.reset.withFetchWord nbits w)) with
  | .next s => s
  | _ => State.reset

/-- A v register with its own value in each lane. -/
def lanes (s : State) (n : Nat) (x : Nat → Nat) : State :=
  withWarp s fun w => (List.range 32).foldl (fun w l => vset w n l (w32 (x l))) w

/-- p0 in lanes 0 to 3. -/
def four (w : Warp) : Warp := (List.range 4).foldl (fun w l => pset w 0 l true) w

/-- Cause and stopped lanes of the trap taken. -/
def stops (s : State) : Option (BitVec 8 × Lanes) := s.cur.trap.map fun t => (t.cause, t.stopped)

/-- Table 7.9: IADD.i32 wraps, saturates under .sat, and IADD.i64 carries into the odd register. -/
theorem test_iadd :
    (let w := (after 64 0x1007000080209101 fun s => withV (withV s 1 0x7FFFFFFF) 2 0x1).cur; vget w 9 3 = 0x80000000) ∧
    (let w := (after 64 0x1017000080209101 fun s => withV (withV s 1 0x7FFFFFFF) 2 0x1).cur; vget w 9 3 = 0x7FFFFFFF) ∧
    (let w := (after 64 0x1807000100408101 fun s => withV (withV (withV s 2 0xFFFFFFFF) 4 0x1) 9 0x5).cur; vget w 8 3 = 0x0 ∧ vget w 9 3 = 0x1) := by decide +kernel

/-- Table 7.9: ISUB.n32.sat of 0 and 1 is 0; the destination is also the first source. -/
theorem test_isub_saturates :
    (let w := (after 64 0x3017000080201109 fun s => withV (withV s 1 0x0) 2 0x1).cur; vget w 1 3 = 0x0) := by decide +kernel

/-- Table 7.9: IABS.i32 of 0x80000000 with and without .sat. -/
theorem test_iabs :
    (let w := (after 64 0x1007000000209125 fun s => withV s 1 0x80000000).cur; vget w 9 3 = 0x80000000) ∧
    (let w := (after 64 0x1017000000209125 fun s => withV s 1 0x80000000).cur; vget w 9 3 = 0x7FFFFFFF) := by decide +kernel

/-- Table 7.9: IMULH of all ones, signed and unsigned. -/
theorem test_imulh :
    (let w := (after 64 0x1007000040209111 fun s => withV (withV s 1 0xFFFFFFFF) 9 0x7).cur; vget w 9 3 = 0x0) ∧
    (let w := (after 64 0x3007000040209111 fun s => withV s 1 0xFFFFFFFF).cur; vget w 9 3 = 0xFFFFFFFE) := by decide +kernel

/-- The worked example of R148. -/
theorem test_imadw :
    (let w := (after 64 0x10070300C0404119 fun s => withV (withV (withV s 2 0xFFFFFFFD) 3 0x80000000) 6 0xFFFFFFFF).cur; vget w 4 3 = 0x7FFFFFFF ∧ vget w 5 3 = 0x2) := by decide +kernel

/-- Table 7.9: ISAD.n32 of 3, 0xFFFFFFFF and 0. -/
theorem test_isad :
    (let w := (after 64 0x3007018080209129 fun s => withV (withV s 1 0x3) 2 0xFFFFFFFF).cur; vget w 9 3 = 0xFFFFFFFC) := by decide +kernel

/-- The examples of R149. -/
theorem test_shifts :
    (let w := (after 64 0x400700008020912D fun s => withV (withV (withV s 1 0xFFFFFFFF) 2 0x20) 9 0x7).cur; vget w 9 3 = 0x0) ∧
    (let w := (after 64 0x1007000080209135 fun s => withV (withV s 1 0x80000000) 2 0x28).cur; vget w 9 3 = 0xFFFFFFFF) ∧
    (let w := (after 64 0x1017000080209135 fun s => withV (withV s 1 0x80000000) 2 0x28).cur; vget w 9 3 = 0xFF800000) := by decide +kernel

/-- The example of R154. -/
theorem test_lea64 :
    (let w := (after 64 0x0227004280608185 fun s => withS (withV s 3 0xFFFFFFFF) [(11, 1)]).cur; vget w 8 0 = 0xFFFFFFFC ∧ vget w 9 0 = 0) := by decide +kernel

/-- R119, Table 6.11: IADD.i32 short with the immediate of B7 0x48 adds -8. -/
theorem test_iadd_short :
    (let w := (after 32 0x90020708 fun s => withV s 2 0x3).cur; vget w 7 3 = 0xFFFFFFFB) := by decide +kernel

/-- R116: where the guard is false nothing is written. -/
theorem test_false_guard :
    (let w := (after 64 0x1000000040209101 fun s => withV (withV s 1 0x5) 9 0x4D).cur; vget w 9 3 = 0x4D) := by decide +kernel

/-- R157: 1.5 + 0.75 is 2.25, and 2^24 + 1 is a tie that goes to 2^24. -/
theorem test_fadd :
    (let w := (after 64 0x5807000241007201 fun s => withV (withV s 8 0x3FC00000) 9 0x3F400000).cur; vget w 7 3 = 0x40100000) ∧
    (let w := (after 64 0x5807000241007201 fun s => withV (withV s 8 0x4B800000) 9 0x3F800000).cur; vget w 7 3 = 0x4B800000) := by decide +kernel

/-- The worked example of R163 and rows of Table 8.7. -/
theorem test_cvt :
    (let w := (after 64 0x78070002C0E03301 fun s => withV s 7 0x43960000).cur; vget w 3 3 = 0x79) ∧
    (let w := (after 64 0x78070002C0E03301 fun s => withV s 7 0x43FA0000).cur; vget w 3 3 = 0x7E) ∧
    (let w := (after 64 0x78470002C0E03301 fun s => withV s 7 0x43FA0000).cur; vget w 3 3 = 0x7F) ∧
    (let w := (after 64 0x6007000080E03301 fun s => withV s 7 0x11170).cur; vget w 3 3 = 0x7BFF) ∧
    (let w := (after 64 0x68070002C0E03301 fun s => withV s 7 0x3F808000).cur; vget w 3 3 = 0x3F80) ∧
    (let w := (after 64 0x2807000080E03301 fun s => withV (withV s 7 0xFFFFFFFB) 3 0x9).cur; vget w 3 3 = 0x0) := by decide +kernel

/-- The worked example of R164: e2m1 with a shared scale. -/
theorem test_cvtp :
    (let w := (after 64 0x901706800100C305 fun s => lanes s 8 fun i => [0xC1000000, 0xC0F00000, 0xC0E00000, 0xC0D00000, 0xC0C00000, 0xC0B00000, 0xC0A00000, 0xC0900000, 0xC0800000, 0xC0600000, 0xC0400000, 0xC0200000, 0xC0000000, 0xBFC00000, 0xBF800000, 0xBF000000, 0, 0x3F000000, 0x3F800000, 0x3FC00000, 0x40000000, 0x40200000, 0x40400000, 0x40600000, 0x40800000, 0x40900000, 0x40A00000, 0x40B00000, 0x40C00000, 0x40D00000, 0x40E00000, 0x40F00000].getD i 0).cur
     vget w 12 0 = 0xCCDDDEEE ∧ vget w 12 2 = 0x43222100 ∧ vget w 12 4 = 0 ∧ vget w 13 31 = 0x80) := by decide +kernel

/-- The example of R169. -/
theorem test_prmt :
    (let w := (after 64 0x4007018080209389 fun s => withV (withV (withV s 1 0x44332211) 2 0x88776655) 3 0xA704).cur; vget w 9 3 = 0xFF881155) := by decide +kernel

/-- R170: the short form 0xA20505C0 swaps v5 between the lanes of each pair. -/
theorem test_shfl :
    (let w := (after 32 0xA20505C0 fun s => lanes s 5 (· + 10)).cur; vget w 5 0 = 11 ∧ vget w 5 1 = 10 ∧ vget w 5 31 = 40) := by decide +kernel

/-- R171: the ballot of p1 in lanes 1, 4 and 5, with its count. -/
theorem test_vote_ballot :
    (let w := (after 64 0x0037020000209391 fun s => withWarp s fun w => pset (pset (pset w 1 1 true) 1 4 true) 1 5 true).cur; vget w 9 0 = 0x32 ∧ vget w 4 7 = 3) := by decide +kernel

/-- The example of R172: exact sums in tiles of 4. -/
theorem test_redux_scan :
    (let w := (after 64 0x5807000001007395 fun s => withWarp (lanes s 8 fun i => [0x3F800000, 0x4B800000, 0x3F800000, 0xCB800000].getD i 0) fun w => { w with part := 2 }).cur; vget w 7 0 = 0x40000000 ∧ vget w 7 3 = 0x40000000) ∧
    (let w := (after 64 0x5807000001007399 fun s => withWarp (lanes s 8 fun i => [0x3F800000, 0x4B800000, 0x3F800000, 0xCB800000].getD i 0) fun w => { w with part := 2 }).cur; vget w 7 0 = 0x3F800000 ∧ vget w 7 1 = 0x4B800000 ∧ vget w 7 2 = 0x4B800001 ∧ vget w 7 3 = 0x40000000) := by decide +kernel

/-- The example of R173: p1 in lanes 1, 4 and 5 of a tile of 8. -/
theorem test_compress :
    (let w := (after 64 0x40170280404043A1 fun s => withWarp (lanes s 2 (· + 10)) fun w => pset (pset (pset { w with part := 3 } 1 1 true) 1 4 true) 1 5 true).cur
     vget w 4 0 = 11 ∧ vget w 4 1 = 14 ∧ vget w 4 2 = 15 ∧ vget w 4 3 = 0 ∧ vget w 5 7 = 3) := by decide +kernel

/-- R174: PART 8 sets the field TSZ of sr.part to 0b011. -/
theorem test_part :
    (after 64 0x00070000390003A9 id).cur.part = 3 := by decide +kernel

/-- The example of R155: PMOV of p0 and p3 writes 9; LUT 0x80 of p0, !p3 and pt is false. -/
theorem test_pmov_plop :
    (let w := (after 64 0x07F7000000001191 fun s => withWarp s fun w => pset (pset w 0 2 true) 3 2 true).cur; vget w 1 2 = 9) ∧
    (let w := (after 64 0x08070382C000418D fun s => withWarp s fun w => pset (pset (pset w 0 2 true) 3 2 true) 4 2 true).cur; pget w 4 2 = false) := by decide +kernel

/-- R114, R146: SMOV of the constant 7; SADD.n64 carries into the high register of the pair. -/
theorem test_smov_sadd :
    sget (after 64 0x4007000038E0C081 id).cur 12 = 7 ∧
    (let w := (after 64 0x380700412040C085 fun s => withS s [(2, 0xFFFFFFFF), (4, 1), (13, 9)]).cur; sget w 12 = 0 ∧ sget w 13 = 1) := by decide +kernel

/-- R106, R139: every lane at the literal-relative target 0x10 of a literal at 0x10; under ?!pt all lanes fall through. -/
theorem test_bra :
    (let s := after 96 0x000000000007000000000002 mapped; nget 0 s.cur.pc 0 = 0x10 ∧ nget 0 s.cur.pc 31 = 0x10 ∧ s.cur.run = none) ∧
    (let s := after 96 0x00000000000F000000000002 mapped; nget 0 s.cur.pc 0 = 0x18 ∧ s.cur.run = none) := by decide +kernel

/-- R140: EXIT under p0 where only lane 4 holds p0 leaves the other lanes live. -/
theorem test_exit :
    (after 64 0x0000000000000015 fun s => withWarp s fun w => pset w 0 4 true).cur.live = 0xFFFFFFEF := by decide +kernel

/-- R177, R175: the highest lane of one STS to one word holds; LDS.i8 extends the sign. -/
theorem test_sts_lds :
    poolNat (after 64 0x0807E07000408409 fun s => lanes (withV s 2 0x200) 8 (· + 10)) 0 0x200 4 = 41 ∧
    (let w := (after 64 0x0007E07040408401 fun s => withV (poolStore s 0 0x204 [0x80]) 2 0x203).cur; vget w 8 0 = 0xFFFFFF80) := by decide +kernel

/-- The example of R178 on the pool: four lanes add 2^24, 1, 1 and -2^24 to 1.0. -/
theorem test_atoms :
    (let s := after 64 0x0B0003700040840D fun s => withWarp (lanes (withV (poolStore s 0 0x300 [0, 0, 0x80, 0x3F]) 2 0x300) 6 fun i => [0x4B800000, 0x3F800000, 0x3F800000, 0xCB800000].getD i 0) four
     poolNat s 0 0x300 4 = 0x40400000 ∧ vget s.cur 8 0 = 0x3F800000 ∧ vget s.cur 8 1 = 0x4B800000 ∧ vget s.cur 8 2 = 0x4B800001 ∧ vget s.cur 8 3 = 0x4B800002) := by decide +kernel

/-- R176: a 4-byte load at an address not a multiple of 4 takes cause 0x06 and writes nothing. -/
theorem test_misaligned :
    (let s := after 64 0x0807E07000408401 fun s => withV s 2 0x202; vget s.cur 8 0 = 0 ∧ stops s = some (0x06, 0xFFFFFFFF)) := by decide +kernel

/-- Table 11.3: BINIT.cluster of 3 writes word 0 0x0000000C00000013. -/
theorem test_binit :
    poolNat (after 64 0x00370070E0800681 fun s => withS s [(4, 0x400)]) 0 0x400 16 = 0x0000000C00000013 := by decide +kernel

/-- R255: TRAP 3 under p1 takes cause 0xE3 in the lanes where p1 holds. -/
theorem test_trap :
    (let s := after 64 0x0001000038600709 fun s => withWarp s fun w => pset w 1 4 true; stops s = some (0xE3, 0x10)) := by decide +kernel

/-- R124, R319: the assigned groups end; opcode 0x00A takes the illegal-encoding fault, cause 0x02, in every lane. -/
theorem test_reserved_opcode :
    (let s := after 64 0x0007000000000029 id; stops s = some (0x02, 0xFFFFFFFF)) := by decide +kernel

/-! Instructions on registers. -/

/-- Candidate fields for the rows: long form and short form. -/
def candidates : List (Long × Short) :=
  ([(256, 450, 0, 0, 0, 0, 256, 8), (0, 2, 0, 0, 8, 85, 258, 8), (0, 2, 0, 0, 8, 0, 480, 8),
     (1024, 2, 4, 0, 8, 4, 2, 8), (768, 2, 4, 0, 8, 4, 2, 8), (1024, 2, 4, 6, 8, 4, 2, 8),
     (1024, 2, 0, 0, 8, 0, 2, 8), (256, 258, 260, 0, 1, 4, 258, 1), (1024, 258, 260, 0, 8, 4, 258, 8),
     (1024, 0, 0, 0, 0, 0, 0, 0), (0, 0, 0, 0, 0, 0, 0, 0), (1024, 258, 0, 0, 8, 0, 258, 8),
     (256, 258, 260, 0, 8, 4, 258, 8), (256, 258, 260, 262, 8, 4, 258, 8), (768, 258, 260, 0, 8, 4, 258, 8),
     (1408, 2, 4, 0, 8, 4, 2, 8), (1408, 2, 4, 6, 8, 4, 2, 8), (1408, 0, 0, 0, 0, 0, 0, 0),
     (1280, 0, 0, 0, 0, 0, 0, 0), (1280, 2, 0, 0, 8, 0, 2, 8), (1280, 2, 4, 0, 8, 4, 2, 8),
     (1536, 2, 4, 0, 8, 4, 2, 8), (1536, 2, 4, 6, 8, 4, 2, 8), (1280, 2, 4, 6, 8, 4, 2, 8),
     (1408, 2, 0, 0, 8, 0, 2, 8), (0, 450, 0, 0, 0, 0, 0, 8), (1536, 2, 0, 0, 8, 0, 2, 8),
     (2432, 2, 0, 0, 8, 0, 2, 8), (128, 450, 0, 0, 0, 0, 128, 8), (27, 450, 0, 0, 0, 0, 27, 8)] :
    List (Nat × Nat × Nat × Nat × Nat × Nat × Nat × Nat)).map fun (m, a, b, c, d, x, y, z) => (long m a b c d, short x y z)

/-- For the row of number `k` some candidate may issue in `demo`, where it answers a next state. -/
def rowFound (rows : Long → Short → List Row) (k : Nat) : Bool :=
  candidates.any fun p => ((rows p.1 p.2)[k]?).any fun e =>
    readyB demo demoRun e.it (e.sp demo demo.cur demoRun) && (match exec e.i demo with | .next _ => true | _ => false)

theorem witness_integerRows : (List.range (integerRows (long 0 0 0 0 0) (short 0 0 0)).length).all (rowFound integerRows) = true := by
  decide +kernel
theorem witness_uniformRows : (List.range (uniformRows (long 0 0 0 0 0) (short 0 0 0)).length).all (rowFound uniformRows) = true := by
  decide +kernel
theorem witness_floatRows : (List.range (floatRows (long 0 0 0 0 0) (short 0 0 0)).length).all (rowFound floatRows) = true := by
  decide +kernel
theorem witness_warpRows : (List.range (warpRows (long 0 0 0 0 0) (short 0 0 0)).length).all (rowFound warpRows) = true := by
  decide +kernel
theorem witness_idleRows : (List.range (idleRows (long 0 0 0 0 0) (short 0 0 0)).length).all (rowFound idleRows) = true := by
  decide +kernel
theorem witness_systemRows : (List.range (systemRows (long 0 0 0 0 0) (short 0 0 0)).length).all (rowFound systemRows) = true := by
  decide +kernel
theorem witness_transactionRows :
    (List.range (transactionRows (long 0 0 0 0 0)).length).all (rowFound fun f _ => transactionRows f) = true := by
  decide +kernel
theorem witness_quiet : Quiet demo := ⟨rfl, rfl, rfl, rfl⟩

/-! The engine commands. -/

/-- The hypotheses of commandStarts. -/
def startB (it : Item) (sp : State → Warp → Item → Spec) (steps : State → Warp → Run → Item → Iss State) : Bool :=
  readyB eng demoRun it (sp eng eng.cur it) && guardU eng.cur it && !dcFull eng.cur it.dc && okB (steps eng eng.cur demoRun it)

theorem witness_tcopy : startB (longItem 0x140 true (long 0 0x104 0x102 0x108 1)) tcopyNeeds tcopySteps = true := by decide +kernel
theorem witness_tstore : startB (longItem 0x141 true (long 0 0x104 0x102 0x108 1)) tstoreNeeds tstoreSteps = true := by decide +kernel
theorem witness_pcopyR : startB (longItem 0x142 true (long 0x100 0x104 0x103 0x108 1)) pcopyRNeeds pcopyRSteps = true := by decide +kernel
theorem witness_bload : startB (longItem 0x143 true (long 0 0x130 0x103 0x108 1)) bloadNeeds bloadSteps = true := by decide +kernel
theorem witness_rowzf : startB (longItem 0x160 true (long 0 0x130 0 0 1)) (rowNeeds false) (rowSteps .rowzf) = true := by decide +kernel
theorem witness_rowcp : startB (longItem 0x161 true (long 0 0x130 0x106 0 1)) (rowNeeds true) (rowSteps .rowcp) = true := by decide +kernel
theorem witness_qpost : startB (longItem 0x162 true (long 0 0x105 0x104 0x110 1)) qpostNeeds qpostSteps = true := by decide +kernel
theorem witness_mmas : startB (longItem 0x181 true (long 0x0D0 0x104 0x1C0 0x114 1 (some 0x340))) mmasNeeds mmasSteps = true := by decide +kernel
theorem witness_chrunTile : startB (longItem 0x185 true (long 0x104 0 0 0 1 (some 0x4000))) chrunTileNeeds chrunTileSteps = true := by
  decide +kernel

/-! The completions of the engine commands. -/

/-- The words of the record at `a` of the pool, where it can be read. -/
def recordB (s : State) (a : Nat) : Option (List DWord) :=
  if (poolReadCheck s s.cur a 64 64).isNone then
    some (wordsOf (poolBytes s (poolLoc s s.cur a 64).1 (poolLoc s s.cur a 64).2 64) 8)
  else none

/-- The well-formed tensor record at `a` of the pool. -/
def tensorB (s : State) (g p rb : Bool) (a : Nat) : Option Tensor :=
  (recordB s a).bind fun ws => if (tensorBads ws g p rb).isEmpty then some (parseTensor ws) else none

/-- Whether the origin's registers are there. -/
def originB (it : Item) (t : Tensor) : Bool := (sRegsBad eng eng.cur (originReg it) t.rank (it.code .c)).isEmpty

/-- The answer of issue steps. -/
def got {α : Type} (x : Iss α) : Option (α × State) := match x with | .ok a s => some (a, s) | _ => none

/-- Room as a test. -/
def roomB (s : State) (tiles : List (Nat × Nat)) : Bool := !tileFull s tiles && !heldBefore s s.cur && !transitOut s s.cur tiles

/-- What every command needs. -/
def issuesB (it : Item) (sp : State → Warp → Item → Spec) : Bool :=
  readyB eng demoRun it (sp eng eng.cur it) && guardU eng.cur it && !dcFull eng.cur it.dc

theorem witness_tcopyCompletes :
    (let it := longItem 0x140 true (long 0 0x104 0x102 0x108 1)
     let a := uniVal eng eng.cur demoRun it .a
     let b := uniVal eng eng.cur demoRun it .b
     let ctl := sget eng.cur it.d
     issuesB it tcopyNeeds && !it.mb 59 && (tensorB eng true false (it.mb 55) b).any fun t =>
       let bar := barOffset it ctl t
       let mems := destMembers ctl (w32 a)
       let c : Cmd := { newCmd eng.cur demoRun it .tcopy with
         ctl := ctl, a := w32 a, b := w32 b, tens := some t, org := originOf eng.cur it t.rank, fmt := t.fmt, geo := t.geo,
         vc := if it.mb 58 then (sget eng.cur (it.code .c - 0x100 + 5)).toNat % 2 ^ 16 else eng.cur.vcnt.toNat % 2 ^ 16
         graph := graphOf eng eng.cur it, bar := w32 bar }
       originB it t && a % 16 == 0 && bar % 16 == 0 && ctlMask ctl / 2 ^ ((clusterOf eng eng.cur).map (·.cores.length)).getD 0 == 0 &&
       (got (tableIssue eng eng.cur demoRun it c)).any (fun (x, _) => x == ([], [])) &&
       (got (fixFormat eng eng.cur demoRun it { c with iters := [] } { c with iters := [] }.live)).any fun (f, u) =>
         let k := underPage { c with iters := [] } f
         (graphBad k).isNone && (boxBad k k.live).isNone && (mems.all fun m => (packBad u eng.cur k (onMember m 0) a).isNone) &&
         (mems.all fun m => (barBad u eng.cur m bar (mems.flatMap fun m => rawTiles u eng.cur (onMember m a) 0 k.packed)).isNone) &&
         !boxLogged eng.cur k k.live && k.nodes.isEmpty && bitsN a 31 20 == 0 &&
         (got (graphBooks demoRun it f.cbi k u)).isSome &&
         roomB u (mems.flatMap (fun m => packTiles u eng.cur k (onMember m 0) a)).eraseDups) = true := by decide +kernel

theorem witness_tstoreCompletes :
    (let it := longItem 0x141 true (long 0 0x104 0x102 0x108 1)
     let a := uniVal eng eng.cur demoRun it .a
     let b := uniVal eng eng.cur demoRun it .b
     let ctl := sget eng.cur it.d
     issuesB it tstoreNeeds && !it.mb 59 && (tensorB eng true false (it.mb 55) b).any fun t =>
       let bar := barOffset it ctl t
       let c : Cmd := { newCmd eng.cur demoRun it .tstore with
         ctl := ctl, a := w32 a, b := w32 b, tens := some t, org := originOf eng.cur it t.rank, fmt := t.fmt, geo := t.geo,
         scope := it.m 58 56, graph := graphOf eng eng.cur it, bar := w32 bar, vc := 0x10000 }
       originB it t && a % 16 == 0 && bar % 16 == 0 && (got (fixFormat eng eng.cur demoRun it c c.live)).any fun (f, u) =>
         let k := underPage c f
         (graphBad k).isNone && (boxBad k k.live).isNone && (packBad u eng.cur k (a - bitsN a 19 0) (bitsN a 19 0)).isNone &&
         (barBad u eng.cur 14 bar (rawTiles u eng.cur a 0 k.packed)).isNone && !boxLogged eng.cur k k.live && k.nodes.isEmpty &&
         (got (graphBooks demoRun it 0 k u)).isSome && roomB u (packTiles u eng.cur k (a - bitsN a 19 0) (bitsN a 19 0))) = true := by decide +kernel

theorem witness_pcopyRCompletes :
    (let it := longItem 0x142 true (long 0x100 0x104 0x103 0x108 1)
     let a := uniVal eng eng.cur demoRun it .a
     let b := uniVal eng eng.cur demoRun it .b
     let ctl := sget eng.cur it.d
     issuesB it pcopyRNeeds && !it.mb 59 && (tensorB eng false true (it.mb 55) b).any fun t =>
       let bar := barOffset it ctl t
       let c : Cmd := { newCmd eng.cur demoRun it .pcopyR with
         ctl := ctl, a := w32 a, b := w32 b, tens := some t, org := originOf eng.cur it t.rank, fmt := t.fmt, geo := t.geo
         bar := w32 bar, vc := 0x10000 }
       originB it t && a % 16 == 0 && bar % 16 == 0 && (got (fixFormat eng eng.cur demoRun it c c.live)).any fun (f, u) =>
         let k := underPage c f
         (graphBad k).isNone && (boxBad k k.live).isNone && (packBad u eng.cur k (a - bitsN a 19 0) (bitsN a 19 0)).isNone &&
         (boxSpanBad u eng.cur k).isNone && (sharedBytes (k.fullRanges u eng.cur) (rawRange u eng.cur a 0 k.packed).toList).isEmpty &&
         (barBad u eng.cur (bitsN a 23 20) bar (rawTiles u eng.cur a 0 k.packed ++ rangeTiles (k.fullRanges u eng.cur))).isNone &&
         roomB u (copyTiles u eng.cur k (boxTiles u eng.cur k))) = true := by decide +kernel

theorem witness_bloadCompletes :
    (let it := longItem 0x143 true (long 0 0x130 0x103 0x108 1)
     let a := uniVal eng eng.cur demoRun it .a
     let b := uniVal eng eng.cur demoRun it .b
     let ctl := sget eng.cur it.d
     issuesB it bloadNeeds && !it.mb 59 && (tensorB eng true true (it.mb 55) b).any fun t =>
       let bar := barOffset it ctl t
       let c : Cmd := { newCmd eng.cur demoRun it .bload with
         ctl := ctl, a := w32 a, b := w32 b, tens := some t, org := originOf eng.cur it t.rank, fmt := t.fmt, geo := t.geo
         bar := w32 bar, vc := 0x10000 }
       originB it t && a % 16 == 0 && bar % 16 == 0 && (got (fixFormat eng eng.cur demoRun it c c.live)).any fun (f, u) =>
         let k := underPage c f
         let tiles := if t.space then boxTiles u eng.cur k else []
         (graphBad k).isNone && (boxBad k k.live).isNone &&
         (columnBad u eng.cur a (bitsN a 21 16) (t.dims.getD 1 1) (a % 65536) k.columnBytes).isNone && t.space &&
         (boxSpanBad u eng.cur k).isNone && (barBad u eng.cur 14 bar (rangeTiles (k.fullRanges u eng.cur))).isNone &&
         !boxLogged eng.cur k k.live && (got (columnBooks demoRun it f.cbi k u)).isSome && roomB u tiles) = true := by decide +kernel

theorem witness_rowCompletes :
    ([(false, 0x160, long 0 0x130 0 0 1), (true, 0x161, long 0 0x130 0x106 0 1)] : List (Bool × Nat × Long)).all (fun (cp, opc, f) =>
      let it := longItem opc true f
      let a := operand eng eng.cur demoRun it (.int 64 false) .a 0
      let b := operand eng eng.cur demoRun it (.int 64 false) .b 0
      let bar := ctlBar (sget eng.cur it.d)
      issuesB it (rowNeeds cp) && (framesBad (if cp then [a, b] else [a])).isNone && (!cp || a != b) && bar % 16 == 0 &&
        (got (frameAt eng eng.cur demoRun it a .write)).any fun (pa, u) =>
        (got (if cp then frameAt u eng.cur demoRun it b .read else .ok none u)).any fun (pb, u) =>
          (!cp || pa != pb) && (barBad u eng.cur 14 bar []).isNone && !pageLogged eng.cur a && !pageLogged eng.cur b &&
            roomB u []) = true := by decide +kernel

theorem witness_qpostCompletes :
    (let it := longItem 0x162 true (long 0 0x105 0x104 0x110 1)
     let a := uniVal eng eng.cur demoRun it .a
     let b := uniVal eng eng.cur demoRun it .b
     let ctl := sget eng.cur it.d
     issuesB it qpostNeeds && !it.mb 59 && (recordB eng (sget eng.cur 16).toNat).any fun ws =>
       let hd := kvHd ws
       let frames := kvFrames ws 0 64
       let size := 16 * frames * tripleBytes hd
       let pb := spanLoc eng eng.cur b 0 (4 * hd)
       let pa := spanLoc eng eng.cur a 0 size
       let tiles := (rawTiles eng eng.cur b 0 (4 * hd) ++ rawTiles eng eng.cur a 0 size).eraseDups
       (sget eng.cur 17).toNat == 0 && (sget eng.cur 18).toNat == 64 && (kvBad ws).isNone && decide (64 ≤ kvTok ws) && decide (frames ≤ 16) &&
       a % 16 == 0 && b % 16 == 0 && ctlBar ctl % 16 == 0 && (spanBad eng eng.cur b 0 (4 * hd)).isNone &&
       (spanBad eng eng.cur a 0 size).isNone && (sharedBytes [(pb.1, pb.2, 4 * hd)] [(pa.1, pa.2, size)]).isEmpty &&
       (barBad eng eng.cur (bitsN a 23 20) (ctlBar ctl) tiles).isNone && (got (readBooks eng eng.cur demoRun it [])).isSome && kvFmt ws != 12 &&
       (got (windowFrames eng eng.cur demoRun it ws 0 (List.range frames))).any fun (_, u) =>
         !poolPoisoned u pb.1 pb.2 (4 * hd) && ((List.range frames).all fun i => !pageLogged eng.cur (kvFrameVa ws 0 i)) && roomB u tiles) =
      true := by decide +kernel

theorem witness_mmasCompletes :
    (let it := longItem 0x181 true (long 0x0D0 0x104 0x1C0 0x114 1 (some 0x340))
     let lit := mmaLit it
     let a := uniVal eng eng.cur demoRun it .a
     let n := it.code .c - 0x100
     let bar := ctlBar (sget eng.cur it.d)
     let at_ := (bitsN (uniVal eng eng.cur demoRun it .b) 21 16, bitsN (uniVal eng eng.cur demoRun it .b) 15 0)
     let c : Cmd := { newCmd eng.cur demoRun it .mmas with
       ctl := sget eng.cur it.d, a := w32 a, b := w32 (at_.1 * 65536 + at_.2), desc := (List.range 5).map (fun j => sget eng.cur (n + j))
       vc := if lit.testBit 17 then (sget eng.cur (n + 5)).toNat % 2 ^ 16 else eng.cur.vcnt.toNat % 2 ^ 16
       bar := w32 bar }
     let p := c.sweep
     let ra := rowsAt eng eng.cur a (c.aSpans p.rows)
     let rd := rowsAt eng eng.cur p.d (c.dSpans p.rows)
     let rs := rowsAt eng eng.cur p.asc (c.scSpans p.rows)
     let tiles := fun rows => (rowsTiles eng eng.cur a (c.aSpans rows) ++ rowsTiles eng eng.cur p.d (c.dSpans rows) ++
       rowsTiles eng eng.cur p.asc (c.scSpans rows)).eraseDups
     issuesB it mmasNeeds && a % 16 == 0 && at_.2 % 16 == 0 && p.d % 16 == 0 && !mmasMx lit && bar % 16 == 0 &&
     (rowsBad eng eng.cur a (c.aSpans c.liveRows)).isNone && (rowsBad eng eng.cur p.d (c.dSpans c.liveRows)).isNone &&
     (rowsBad eng eng.cur p.asc (c.scSpans c.liveRows)).isNone && (groupsBad eng eng.cur lit at_.1 at_.2 p).isNone &&
     (sharedBytes ra rd).isEmpty && (sharedBytes ra rs).isEmpty && (sharedBytes rd rs).isEmpty &&
     (barBad eng eng.cur 14 bar (tiles p.rows)).isNone && mmasTb lit != 0x13 && roomB eng (tiles c.liveRows)) = true := by decide +kernel

theorem witness_chrunTileCompletes :
    (let it := longItem 0x185 true (long 0x104 0 0 0 1 (some 0x4000))
     let ch := chrChain eng eng.cur it
     let thread := lowLane demoRun.grp
     let ctl := sget eng.cur it.d
     let bar := ctlBar ctl
     let iters := (chrIters it (chNin ch)).filterMap fun n => nget none eng.cur.iter n
     let is := List.range iters.length
     let c : Cmd := { newCmd eng.cur demoRun it .chrun with
       ctl := ctl, bar := w32 bar, iters := iters, chain := ch, params := chrParams eng.cur it, vc := chrCount eng.cur it
       gpos := gridPos eng eng.cur thread, rctr := nget 0 eng.cur.rctr thread, rseed := eng.cur.rseed
       kv := iters.map fun i => dw (i.tens.fmt + 16 * i.tens.geo) }
     issuesB it chrunTileNeeds && iters.length == 2 && (iters.head?.any fun d => d.tens.space && (iters.drop 1).all fun x =>
       (d.tens.dims.zip x.tens.dims).all fun e => e.2 == e.1 || e.2 == 1) && bar % 16 == 0 &&
     (got (fixSides eng eng.cur demoRun it c (chOfmt ch) is)).any fun (l, u) =>
       let k : Cmd := { c with kv := l.map fun (e : DWord × Nat) => e.1 }
       let live := k.rowsPos k.rowsLive
       (is.all fun i => (k.sideBad u eng.cur i live).isNone) && ((iters.drop 1).all fun x => !x.tens.space) &&
       (barBad u eng.cur 14 bar (rangeTiles (is.flatMap fun i => if (k.side i).tensor.space then (k.side i).fullRanges u eng.cur else []))).isNone &&
       (is.all fun i => !boxLogged eng.cur (k.side i) (k.sidePos i live)) &&
       (got (sideBooks demoRun it (l.map fun (e : DWord × Nat) => e.2) live k u)).isSome &&
       roomB u (is.flatMap fun i => k.sideTiles u i (k.rowsPos k.rowsLive)).eraseDups) = true := by decide +kernel

/-! Control. -/

/-- The mapped machine. -/
def here : State := mapped demo

/-- A clause run by lane 0 alone. -/
def oneRun : Run := { demoRun with grp := 1 }

/-- Changing the run. -/
def withRun (s : State) (r : Run) : State := withWarp s fun w => { w with run := some r }

theorem witness_sldp :
    (let it := longItem 0x02D true (long 0x400 0x105 0x106 0 8)
     readyB demo demoRun it (sldpNeeds it) && numOf it .a demo demo.cur demoRun 0 == 0) = true ∧
    (let it := shortItem 0x3C true 0x400 (short 0x54 0x105 8)
     readyB demo demoRun it (sldpNeeds it) && (numOf it .a demo demo.cur demoRun 0 + numOf it .b demo demo.cur demoRun 0) % 4 == 0) = true := by
  decide +kernel

/-- A transfer to the clause at 0x10. -/
def transferB (opc : Nat) (f : Long) (lit link : Bool) : Bool :=
  let it := longItem opc false f
  readyB here demoRun it (transferNeeds it lit link) &&
    (firstBadTarget (fun l => if lit then literalTarget demoRun it else dw (operand here here.cur demoRun it (.int 64 false) .a l))
      (lanesOf (activeLanes here.cur demoRun it)) here).1.isNone

theorem witness_transfers :
    transferB 0x000 (long 0 0 0 0 0 (some 0)) true false = true ∧ transferB 0x001 (long 0 2 0 0 0) false false = true ∧
    transferB 0x002 (long 0 0 0 0 4 (some 0)) true true = true ∧ transferB 0x003 (long 0 2 0 0 4) false true = true ∧
    transferB 0x004 (long 0 2 0 0 0) false false = true := by decide +kernel

theorem witness_rcv : (let it := longItem 0x006 false (long 0 0 0 0 0 (some 0))
    readyB here demoRun it { uses := [.unused .a, .unused .b, .unused .c, .dstNone], usesLit := true
                             bads := encBad (it.m 63 52 ≠ 0) 7 52 ++ encBad it.f.lit.isNone 10 0 } &&
      (firstBadTarget (fun _ => literalTarget demoRun it) (List.range 32) here).1.isNone) = true := by decide +kernel

theorem witness_exit :
    (let it := longItem 0x005 false (long 0 0 0 0 0)
     readyB demo demoRun it (emptySpec it true) && (exitLanes demo demo.cur (activeLanes demo.cur demoRun it)).isSome) = true ∧
    (let it := shortItem 0x3F false 0x0 (short 0 0 0)
     readyB demo demoRun it (emptySpec it true) && (exitLanes demo demo.cur (activeLanes demo.cur demoRun it)).isSome) = true := by
  decide +kernel

theorem witness_falseGuard :
    ([(0x140, tcopyNeeds, long 0 0x104 0x102 0x108 1), (0x141, tstoreNeeds, long 0 0x104 0x102 0x108 1),
      (0x142, pcopyRNeeds, long 0x100 0x104 0x103 0x108 1), (0x143, bloadNeeds, long 0 0x130 0x103 0x108 1),
      (0x160, rowNeeds false, long 0 0x130 0 0 1), (0x161, rowNeeds true, long 0 0x130 0x106 0 1),
      (0x162, qpostNeeds, long 0 0x105 0x104 0x110 1), (0x181, mmasNeeds, long 0x0D0 0x104 0x1C0 0x114 1 (some 0x340)),
      (0x185, chrunTileNeeds, long 0x104 0 0 0 1 (some 0x4000))] :
      List (Nat × (State → Warp → Item → Spec) × Long)).all (fun (opc, sp, f) =>
        let it := longItem opc true { f with gp := 0 }
        readyB eng demoRun it (sp eng eng.cur it) && !guardU eng.cur it) = true := by decide +kernel

/-! Memory. -/

/-- Every active lane's pool address passes its checks and lies in the core's own pool; no data watch is met. -/
def poolB (s : State) (r : Run) (it : Item) (sp : Spec) (addr : Nat → Nat) (n align : Nat) (rd : Bool) : Bool :=
  let act := lanesOf (activeLanes s.cur r it)
  readyB s r it sp && !act.isEmpty && !goesOut s s.cur (poolCores s s.cur act addr n) && !dataWatch s s.cur act true rd true (fun l => addr l % 2 ^ 20) n &&
    act.all fun l => (if rd then poolReadCheck s s.cur (addr l) n align else poolCheck s s.cur (addr l) n n true).isNone

theorem witness_loads :
    (let it := longItem 0x100 false (long 0x080 2 4 6 8)
     poolB demo demoRun it (ldsNeeds it) (memAddr demo demoRun it) (accBytes it (ldsQ it)) (accBytes it (ldsQ it)) true) = true ∧
    (let it := shortItem 0x29 false 0x80 (short 4 2 8)
     poolB demo demoRun it (ldsNeeds it) (memAddr demo demoRun it) (accBytes it (ldsQ it)) (accBytes it (ldsQ it)) true) = true ∧
    (let it := shortItem 0x2A false 0x90 (short 4 2 8)
     poolB demo demoRun it (ldsNeeds it) (memAddr demo demoRun it) (accBytes it (ldsQ it)) (accBytes it (ldsQ it)) true) = true ∧
    (let it := longItem 0x101 false (long 0x080 2 4 6 8)
     poolB demo demoRun it (ldsmNeeds it) (memAddr demo demoRun it) (4 * ldsmN it) (min (4 * ldsmN it) 16) true) = true ∧
    (let it := longItem 0x145 false (long 0 2 0 0 8)
     poolB demo demoRun it { uses := [.src .a vtCount accMem, .unused .b, .unused .c, .dstData 1 1], bads := modZero it 63 52 }
       (operand demo demo.cur demoRun it vtCount .a) 1 1 false) = true := by decide +kernel

theorem witness_stores :
    (let it := longItem 0x102 false (long 0x080 2 4 6 8)
     poolB demo demoRun it (ldsNeeds it) (memAddr demo demoRun it) (accBytes it (ldsQ it)) 1 false) = true ∧
    (let it := shortItem 0x2B false 0x80 (short 4 2 8)
     poolB demo demoRun it (ldsNeeds it) (memAddr demo demoRun it) (accBytes it (ldsQ it)) 1 false) = true ∧
    (let it := shortItem 0x2C false 0x90 (short 4 2 8)
     poolB demo demoRun it (ldsNeeds it) (memAddr demo demoRun it) (accBytes it (ldsQ it)) 1 false) = true := by decide +kernel

theorem witness_atomics :
    (let it := longItem 0x103 false (long 0x060 2 4 6 8)
     poolB demo demoRun it (atomsNeeds it) (atomAddr demo demo.cur demoRun it) (tyBytes it.mty) (tyBytes it.mty) true) = true ∧
    (let it := longItem 0x104 false (long 0x060 2 4 6 0)
     poolB demo demoRun it (redsNeeds it) (atomAddr demo demo.cur demoRun it) (tyBytes it.mty) (tyBytes it.mty) true) = true := by
  decide +kernel

/-- A pool address of member 12, for lane 0. -/
def offMember : State := withRun (withV demo 2 0xC00000) oneRun
/-- A misaligned pool address, for lane 0. -/
def offAlign : State := withRun (withV demo 2 2) oneRun

/-- Subcode of a pool address that leads nowhere. -/
def poolError (x : Except Nat (Nat × Nat)) : Nat := match x with | .error k => k | .ok _ => 0

theorem witness_memberIndex :
    (clusterOf demo demo.cur).any (fun c => decide (c.cores.length ≤ 12)) = true ∧
    (poolAt demo demo.cur 0xE00000 4).toOption = some (0, 0) ∧ (poolAt demo demo.cur 0 4).toOption = some (0, 0) ∧
    poolError (poolAt demo demo.cur 0x100000 4) = 3 ∧
    ([0x100, 0x102] : List Nat).all (fun opc =>
      let it := longItem opc false (long 0x080 2 4 6 8)
      readyB offMember oneRun it (ldsNeeds it) && lanesOf (activeLanes offMember.cur oneRun it) == [0] &&
        memAddr offMember oneRun it 0 % 4 == 0 && poolError (poolAt offMember offMember.cur (memAddr offMember oneRun it 0) 4) == 3) = true := by
  decide +kernel

theorem witness_misaligned :
    (let it := longItem 0x102 false (long 0x080 2 4 6 8)
     readyB offAlign oneRun it (ldsNeeds it) && lanesOf (activeLanes offAlign.cur oneRun it) == [0] &&
       memAddr offAlign oneRun it 0 % accBytes it (ldsQ it) != 0) = true := by decide +kernel

/-- Lanes that translate. -/
def okLanes (x : Access) : Option (List (Nat × Option Nat × DWord)) := match x with | .ok l => some l | _ => none

theorem witness_stg :
    (let it := longItem 0x120 false (long 0x085 2 4 6 8)
     let act := lanesOf (activeLanes here.cur demoRun it)
     let va := globalAddr here here.cur demoRun it true
     let x := translateLanes here here.cur act (fun l => globalCheck (va l) 4) va .write 1 true
     readyB here demoRun it
       { uses := globalUses ++ [.dstData (regsOf (stgBytes it)) (regsOf (stgBytes it))]
         bads := memBads it (if it.mb 55 then [9] else [0, 4, 1, 5, 8, 9]) true 0 1 ++ opdBad (it.m 54 52 = 7) 6 7 } &&
       !dcFull here.cur it.dc && stgBytes it == 4 && (okLanes x.1).any fun loc => stageRoom x.2 (it.m 54 52) (blocksOf loc)) = true := by decide +kernel

/-- The hypotheses of atomgCompletes. -/
def atomgB (it : Item) (red : Bool) : Bool :=
  let act := lanesOf (activeLanes here.cur demoRun it)
  let va := globalAddr here here.cur demoRun it false
  readyB here demoRun it
    { uses := [.src .a (.int 64 false) accMem, .src .b (.int 32 true) accMem, .src .c (vtOf it.mty) accMem,
        if red then .dstNone else .dstData (regsOf (tyBytes it.mty)) (regsOf (tyBytes it.mty))]
      bads := atomBads it red red } &&
    !dcFull here.cur (if red then it.dc else 0) && demoRun.watching.isNone &&
    (okLanes (translateLanes here here.cur act (fun l => globalCheck (va l) (tyBytes it.mty)) va .write 1 true).1).any fun loc =>
      (firstLane act (atomHostBad (it.m 55 52) it.mty va loc)).isNone

theorem witness_atomg : atomgB (longItem 0x121 false (long 0x060 2 4 6 8)) false = true ∧
    atomgB (longItem 0x122 false (long 0x060 2 4 6 0)) true = true := by decide +kernel

theorem witness_gather :
    (let s := { withV here 4 0x2000 with l2 := [(0x200, ({ valid := 1 } : Line))] }
     let it := longItem 0x123 false (long 0x080 2 4 0x105 0)
     let act := lanesOf (activeLanes s.cur demoRun it)
     let va := operand s s.cur demoRun it (.int 64 false) .a
     let dst := operand s s.cur demoRun it vtCount .b
     let c := gatherStart it s demoRun
     let x := translateLanes s s.cur act
       (fun l => gatherPre s s.cur (tyBytes it.mty) (va l) (dst l) (operand s s.cur demoRun it vtCount .c 0)) va .read 1 true
     readyB s demoRun it
       { uses := [.src .a (.int 64 false) accMem, .src .b vtCount accMem, .src .c vtCount { accMem with v := false, uni := true }, .dstNone]
         bads := memBads it [4, 5, 8, 9] false 55 54 } && activeLanes s.cur demoRun it != 0 && !c.tiles.contains (0, 0) &&
       !tileFull s c.tiles && !transitOut s s.cur c.tiles &&
       demoRun.watching.isNone && (okLanes x.1).any fun loc =>
         !anyLocked x.2 (loc.filterMap (·.2.1)) && !behindAtomic x.2 { c with id := x.2.fresh } (loc.filterMap (·.2.1)) &&
         (missing x.2 s.cur.core (it.mb 52) (loc.filterMap fun e => e.2.1.map fun pa => (pa, tyBytes it.mty, e.2.2))).isEmpty) = true := by decide +kernel

theorem witness_pcopy :
    (let s := withS eng [(25, 0x6000), (26, 64)]
     let it := longItem 0x142 true (long 0 0x104 0x119 0x11A 1)
     let a := uniVal s s.cur demoRun it .a
     let b := uniVal s s.cur demoRun it .b
     let n := uniVal s s.cur demoRun it .c
     let bar := ctlBar (sget s.cur it.d)
     let c : Cmd := { newCmd s.cur demoRun it .pcopy with ctl := sget s.cur it.d, a := w32 a, b := w32 b, len := n, bar := w32 bar }
     let ts := copyTiles s s.cur c (rawTiles s s.cur b 0 n)
     readyB s demoRun it
       { uses := [.src .a vtCount accUni, .src .b vtCount accUni, .src .c vtCount accUni]
         bads := dcBads it ++ ctlBads s s.cur it ++ maskBads s.cur it ++ modZero it 60 60 ++ modZero it 58 56 ++ modZero it 54 52 ++
           opdBad (it.mb 55) 6 1 ++ opdBad (n % 16 ≠ 0 || n < 16 || 0x80000 < n) 8 n
         extra := [(1, it.d)] } && a % 16 == 0 && b % 16 == 0 && bar % 16 == 0 && (spanBad s s.cur a 0 n).isNone &&
       (spanBad s s.cur b 0 n).isNone &&
       (barBad s s.cur (bitsN a 23 20) bar (rawTiles s s.cur a 0 n ++ rawTiles s s.cur b 0 n)).isNone && guardU s.cur it &&
       !dcFull s.cur it.dc && roomB s ts && c.chunks.length != 0) = true := by decide +kernel

theorem witness_preft :
    (let it := longItem 0x144 true (long 0 0 0x102 0x108 0)
     readyB eng demoRun it
       { uses := [.unused .a, .src .b vtCount accUni, .src .c vtCount accS, .dstNone]
         bads := dcBads it ++ originBads it 4 ++ modZero it 60 60 ++ modZero it 58 52
         extra := engineRegs it 4 } && guardU eng.cur it && !dcFull eng.cur it.dc &&
       !it.mb 59 && (tensorB eng true false false (uniVal eng eng.cur demoRun it .b)).any fun t =>
         let c : Cmd := { newCmd eng.cur demoRun it .preft with
           b := w32 0x1000, tens := some t, org := originOf eng.cur it t.rank, fmt := t.fmt, geo := t.geo, vc := 0x10000 }
         match preftFormat eng eng.cur c with
         | .ok f => let k := underPage c f; (boxBad k k.live).isNone && !boxLogged eng.cur k k.live
         | .error _ => false) = true := by decide +kernel

theorem witness_qmerge :
    (let s := withS eng [(26, 2)]
     let it := longItem 0x163 true (long 0 0x104 0x105 0x11A 0)
     let a := uniVal s s.cur demoRun it .a
     let b := uniVal s s.cur demoRun it .b
     let n := uniVal s s.cur demoRun it .c
     readyB s demoRun it
       { uses := [.src .a vtCount accS, .src .b vtCount accS, .src .c vtCount { v := false, latch := false, sr := false, uni := true }, .dstNone]
         bads := modZero it 63 56 ++ opdBad (4 < it.m 54 52) 6 (it.m 54 52) ++ opdBad (n = 0 || 256 < n) 8 n } && guardU s.cur it &&
       n == 2 && a % 16 == 0 && b % 16 == 0 && (spanBad s s.cur b 0 160).isNone && (spanBad s s.cur a 0 80).isNone &&
       (ownedTile s 0 0x5000 160).isNone && (ownedTile s 0 0x2000 80).isNone && spanLoc s s.cur b 0 160 == (0, 0x5000) &&
       spanLoc s s.cur a 0 80 == (0, 0x2000) && !goesOut s s.cur [0, 0] && !poolPoisoned s 0 0x5000 160) = true := by decide +kernel

/-! Convergence, chains, synchronisation. -/

/-- The block of the focused warp with a convergence register set. -/
def withConv (s : State) (n : Nat) (k : Conv) : State := match blockOf s s.cur with | some b => convPut s b n k | none => s

theorem witness_kset :
    (let it := longItem 0x182 true (long 0 0x105 0 0 3)
     readyB demo demoRun it { uses := [.src .a vtCount accNum, .unused .b, .unused .c], bads := modZero it 63 52 ++ encBad (16 ≤ it.d) 5 12 } &&
       guardU demo.cur it && (blockOf demo demo.cur).any fun b => !((convOf b 3).v && (convOf b 3).isOpen)) = true := by decide +kernel

/-- A valid convergence register of the warp whose round needs lanes 0 and 1. -/
def conv : State := withConv (withRun demo oneRun) 3 { v := true, warp := 0, set := 3, signed := 1 }

theorem witness_sign :
    (let it := longItem 0x183 false (long 0 0 0 0 3)
     readyB conv oneRun it (signNeeds it) && !it.mb 52 && activeLanes conv.cur oneRun it != 0 &&
       (blockOf conv conv.cur).any fun b => (convOf b 3).v && (convOf b 3).warp == conv.cur.wid) = true ∧
    (let it := longItem 0x183 false (long 1 0 0 0 3)
     readyB conv oneRun it (signNeeds it) && it.mb 52 && activeLanes conv.cur oneRun it != 0 &&
       (blockOf conv conv.cur).any fun b =>
         let k := convOf b 3
         k.v && k.warp == conv.cur.wid &&
           (checkRound (convPut conv b 3 { k with dropped := k.dropped ||| 1, signed := k.signed &&& ~~~ 1 }) 0 0 0 3 none).isSome) = true ∧
    (let it := longItem 0x183 false (long 0 0 0 0 2)
     readyB conv oneRun it (signNeeds it) && activeLanes conv.cur oneRun it != 0 &&
       (blockOf conv conv.cur).any fun b => !(convOf b 2).v) = true := by decide +kernel

theorem witness_mma :
    (let it := longItem 0x180 false (long 0x0D0 4 0x1C0 0x1C0 0x20 (some 0x1A13))
     readyB conv oneRun it
       { uses := mmaUses it
         usesLit := true
         bads := mmaBads conv.cur it } && !dcFull conv.cur it.dc && (mmaLimits conv conv.cur it).isNone && mmaKreg it == 3 &&
       (lanesOf oneRun.grp).all (fun l => decide (l < mmaM it)) && (blockOf conv conv.cur).any fun b =>
         let k := convOf b 3
         k.v && k.warp == conv.cur.wid && oneRun.grp &&& ~~~ (k.set &&& k.signed) == 0 && k.mpc == 0 &&
           (checkRound (parkLanes (convPut (doom conv 0x05)
             { b with ecls := nset 0 b.ecls 3 (fld oneRun.hdr 25 23), mma := nset none b.mma 3 (some ⟨oneRun.pc.toNat, it.raw, it.f.lit, [oneRun]⟩) } 3
             { k with mpc := oneRun.pc.toNat, arrived := k.arrived ||| oneRun.grp }) oneRun.grp
             fun _ => { wait := .array 3, ft := dw (fallThrough oneRun), dst := 0, scope := 0 }) 0 0 0 3 (some it)).isSome) = true := by
  decide +kernel

theorem witness_chld :
    (let it := longItem 0x184 true (long 0 0x111 0 0 0)
     readyB eng demoRun it
       { uses := [.src .a vtCount accNum, .unused .b, .unused .c]
         bads := modZero it 63 52 ++ encBad (8 ≤ it.d) 5 12 ++ opdBad (chn eng eng.cur ≤ it.d) 12 it.d ++
           opdBad (chn eng eng.cur ≤ uniVal eng eng.cur demoRun it .a) 12 (uniVal eng eng.cur demoRun it .a) } &&
       (blockOf eng eng.cur).isSome && guardU eng.cur it && !slotBusy eng eng.cur it.d) = true := by decide +kernel

theorem witness_itset :
    (let it := longItem 0x186 true (long 0 0 0x102 0x108 2)
     readyB eng demoRun it
       { uses := [.unused .a, .src .b vtCount accUni, .src .c vtCount accS]
         bads := modZero it 63 60 ++ modZero it 58 52 ++ encBad (8 ≤ it.d) 5 12 ++ originBads it 4
         extra := (engineRegs it 4).drop 1 } && guardU eng.cur it &&
       (got (readTensor eng eng.cur demoRun it (it.mb 59) true true false (uniVal eng eng.cur demoRun it .b))).any fun e =>
         (sRegsBad eng eng.cur (originReg it) e.1.rank (it.code .c)).isEmpty) = true := by
  decide +kernel

theorem witness_chrun :
    (let it := longItem 0x185 false (long 0 2 0 0 8 (some 0))
     let ch := chrChain eng eng.cur it
     readyB eng demoRun it
       { uses := (chrIns.take (chNin ch)).map (fun x => .src x (.flt f32) { lit := false, sr := false }) ++ [.dstData 1 1]
         usesLit := true
         bads := chrBads eng eng.cur it ++ modZero it 55 52 ++ encBad (bitsN (mmaLit it) 22 8 ≠ 0) 7 8 ++
           ((chrBeyond eng eng.cur it chrIns).flatMap fun x => encBad (it.code x ≠ 0) 9 (fldLow it x)) ++
           opdBad (ch ≠ [] && chOfmt ch ≠ 2) 5 (chOfmt ch)
         extra := chrRegs it } && !dcFull eng.cur it.dc &&
       (charge eng 0 (energyClass eng 0 (fld demoRun.hdr 25 23) + 1)).isSome) = true := by decide +kernel

/-- A barrier object of 64 arrivals at 0x5000, its address in v2 and s5. -/
def obj : State := withV (barWrite eng 0 0x5000 (dw (64 * 2 ^ 34 + 16 + 2)) 0) 2 0x5000

/-- Every lane's object can be used, and its scope has nothing to release. -/
def usableB (s : State) (r : Run) (lanes : List Nat) (addr : Nat → Nat) : Bool :=
  !lanes.isEmpty && !r.transit && r.bnd.isNone && !outstanding s s.cur r.grp && s.staging.isEmpty &&
    !goesOut s s.cur (poolCores s s.cur lanes addr 16) && lanes.all fun l =>
    (poolReadCheck s s.cur (addr l) 16 16).isNone && barV (barRead s (poolLoc s s.cur (addr l) 16).1 (poolLoc s s.cur (addr l) 16).2).1

theorem witness_binit :
    (let it := longItem 0x1A0 true (long 2 0x105 0x112 0 0)
     let b := operand obj obj.cur demoRun it vtCount .b 0
     readyB obj demoRun it
       { uses := barUses accSync (.src .b vtCount accSync) .dstNone
         bads := modOutside it 54 52 ++ opdBad (it.m 54 52 < 2 || it.m 54 52 = 7) 6 (it.m 54 52) ++ opdBad (b = 0 || 16383 < b) 8 b } &&
       guardU obj.cur it && (poolCheck obj obj.cur (operand obj obj.cur demoRun it vtCount .a 0) 16 16 true).isNone &&
       !goesOut obj obj.cur [(poolLoc obj obj.cur 0x5000 16).1]) = true := by decide +kernel

theorem witness_expect :
    (let it := longItem 0x1A2 true (long 0 0x105 0x112 0 0)
     readyB obj demoRun it { uses := barUses accSync (.src .b vtCount accSync) .dstNone, bads := modNone it } && guardU obj.cur it &&
       usableB obj demoRun [lowLane demoRun.grp] fun _ => operand obj obj.cur demoRun it vtCount .a 0) = true := by decide +kernel

theorem witness_arrive :
    (let it := longItem 0x1A1 false (long 0 2 0 0 8)
     let act := lanesOf (activeLanes obj.cur demoRun it)
     let addr := operand obj obj.cur demoRun it vtCount .a
     let loc := fun l => poolLoc obj obj.cur (addr l) 16
     readyB obj demoRun it
       { uses := barUses (if it.mb 55 then accSync else accAny) (.unused .b) (if it.mb 56 then .dstNone else .dstV 1)
         bads := encBad (it.m 63 57 ≠ 0) 7 57 ++ encBad (it.mb 54) 7 54 ++ opdBad (it.m 53 52 = 3) 6 3 } && usableB obj demoRun act addr &&
       act.all fun l => (arriveBad (it.m 53 52) (arriveCount it act loc (loc l)) (barRead obj (loc l).1 (loc l).2).1).isNone) = true := by
  decide +kernel

theorem witness_waitp_btest :
    ([(0x1A3, Use.dstV 1), (0x1A4, Use.dstP false)] : List (Nat × Use)).all (fun (opc, d) =>
      let it := longItem opc false (long 0 2 4 0 1)
      readyB obj demoRun it { uses := barUses accAny (.src .b vtCount accAny) d, bads := modNone it } && !obj.cur.txn.isOpen &&
        usableB obj demoRun (lanesOf (activeLanes obj.cur demoRun it)) (operand obj obj.cur demoRun it vtCount .a)) = true := by decide +kernel

theorem witness_fence :
    (let it := longItem 0x1A5 false (long 5 0 0 0 0)
     readyB demo demoRun it (fenceNeeds it) && demoRun.bnd.isNone && !outstanding demo demo.cur demoRun.grp && demo.staging.isEmpty) = true := by
  decide +kernel

/-- A cooperative launch with a grid, a die and a thread level. -/
def coop : State := { demo with ctxs := demo.ctxs.map fun c =>
  { c with record := [0, 0, dw (31 * 2 ^ 26 + 2 ^ 21 + 3), 0, dw (41 + 64 * 34 + 4096 * 7), dw (32 * 2 ^ 32 + 2 ^ 16 + 1)] } }

theorem witness_hardwareBarriers :
    (let it := longItem 0x1A6 false (long 0 0 0 0 0)
     readyB demo demoRun it { uses := noUses, bads := ptBads it ++ modOutside it 52 52 }) = true ∧
    ([0x1A7, 0x1A8] : List Nat).all (fun opc => let it := longItem opc false (long 0 0 0 0 0)
      readyB coop demoRun it { uses := noUses, bads := ptBads it ++ modNone it }) = true ∧
    (hasDom (recOf coop coop.cur) 2 && recCoop (recOf coop coop.cur) && !coreEngines coop coop.cur && !coop.cur.txn.isOpen &&
      !outstanding coop coop.cur demoRun.grp && coop.staging.isEmpty) = true := by decide +kernel

theorem witness_twait :
    (let it := longItem 0x1A9 false (long 0x405 2 4 0 8 (some 1000))
     let act := lanesOf (activeLanes here.cur demoRun it)
     let va := operand here here.cur demoRun it (.int 64 false) .a
     readyB here demoRun it
       { uses := [.src .a (.int 64 false) accAny, .src .b (vtOf it.ty) { accAny with lit := false },
           if twCmp it = 6 then .src .c (vtOf it.ty) accAny else .unused .c, .dstV 1]
         bads := encBad (it.mb 55) 7 55 ++ encBad it.f.lit.isNone 10 0 ++
           opdBad (!([2, 6, 3, 7, 8, 9] : List Nat).contains it.ty) 5 it.ty ++
           opdBad (twCmp it = 7 || ((it.ty == 8 || it.ty == 9) && 2 ≤ twCmp it && twCmp it ≤ 5) ||
             (!(it.ty == 8 || it.ty == 9) && twCmp it = 6)) 6 (twCmp it) ++
           opdBad (twScope it < 2 || twScope it = 7) 6 (twScope it)
         usesLit := true } && !act.isEmpty && !here.cur.txn.isOpen && !outstanding here here.cur demoRun.grp &&
       (let q := { demoRun with begun := (timeOf here).toNat + 1 }
        let p := past (onCur (doom here 0x05) fun w => { w with run := some q }) q [twScope it]
        okLanes (translateLanes p p.cur act (fun l => globalCheck (va l) (tyBytes it.ty)) va .read 1 true).1).any fun loc =>
         (firstLane act (watchHostBad loc va)).isNone && act.all fun l => (locOf loc l).1.isSome) = true := by decide +kernel

/-- An open transaction that has read line 0x200 at write version `v`. -/
def txn (v : BitVec 16) (doomed : Bool) : State := withWarp demo fun w => { w with txn := { isOpen := true, doomed := doomed, reads := [(0x200, v)] } }

theorem witness_xend :
    ([demo, txn 0 true, txn 0 false, txn 5 false] : List State).all (fun s =>
      let it := longItem 0x1AB true (long 0 0 0 0 0)
      readyB s demoRun it { uses := [.unused .a, .unused .b, .unused .c, .dstP false], bads := modNone it ++ roleBads s s.cur 2 } &&
        guardU s.cur it && !anyLocked s ((writeSet s s.cur).map (·.pa) ++ s.cur.txn.reads.map fun e => e.1 * 256) &&
        !anyHeld s ((writeSet s s.cur).map (·.pa)) && (aheadOfSet s s.cur).isEmpty && s.cur.txn.reads.all fun e => !poisonedAt s (e.1 * 256) 256) = true ∧
    demo.cur.txn.isOpen = false ∧ nget 0 (txn 0 false).ver 0x200 = 0 ∧ nget 0 (txn 5 false).ver 0x200 ≠ 5 := by decide +kernel

/-! System instructions. -/

theorem witness_trap :
    (let it := longItem 0x1C2 false (long 0 0x1C3 0 0 0)
     readyB demo demoRun it (trapNeeds it demo demo.cur demoRun) && activeLanes demo.cur demoRun it != 0) = true ∧
    (let it := longItem 0x1C3 false (long 0 0 0 0 0)
     readyB demo demoRun it { uses := noUses, bads := modNone it } && activeLanes demo.cur demoRun it != 0) = true ∧
    (let it := longItem 0x1C2 false { long 0 0x1C3 0 0 0 with gp := 0 }
     readyB demo demoRun it (trapNeeds it demo demo.cur demoRun) && activeLanes demo.cur demoRun it == 0) = true := by decide +kernel

/-- A handler warp of the module's warp 2, which a trap has stopped in lane 0. -/
def handler : State :=
  { withWarp obj (fun w => { w with handler := true, slot := 16, serves := 2 }) with
    warps := [{ obj.cur with
      uid := 2, slot := 1, run := none
      trap := some { record := [], cause := 0xE0, stopped := 1, held := 0, run := none, phase := 1, moved := 0, entry := 0, order := 0 } }] }

theorem witness_tret :
    (let it := longItem 0x1C4 false (long 0 0 0 0 0)
     readyB handler demoRun it { uses := noUses, bads := ptBads it ++ modNone it ++ handlerBads handler.cur } &&
       !outstanding handler handler.cur demoRun.grp && handler.staging.isEmpty && (findWarp (past handler demoRun [2]) 2).any fun t =>
         (firstBadTarget (fun l => nget 0 t.pc l) (lanesOf (((t.trap.map (·.moved)).getD 0) &&& t.live)) (past handler demoRun [2])).1.isNone) =
      true := by
  decide +kernel

theorem witness_items :
    (let it := longItem 0x1C5 false (long 0 0x1C0 0 0 8)
     readyB handler demoRun it
       { uses := [.src .a vtCount accSync, .unused .b, .unused .c, .dstV 1]
         bads := modNone it ++ itemBads handler handler.cur (operand handler handler.cur demoRun it vtCount .a 0) false ++ handlerBads handler.cur }) =
      true ∧
    (let it := longItem 0x1C6 false (long 0 0x1C1 2 0 0)
     let a := operand handler handler.cur demoRun it vtCount .a 0
     readyB handler demoRun it
       { uses := [.src .a vtCount accSync, .src .b (.bits 32) accAny, .unused .c, .dstNone]
         bads := modNone it ++ itemBads handler handler.cur a true ++ handlerBads handler.cur ++ wrtrPart handler handler.cur demoRun it } &&
       ((List.range 32).foldl (fun acc l => acc.bind fun u =>
         itemWrite u 2 (a % 2 ^ 16) l (w32 (operand handler handler.cur demoRun it (.bits 32) .b l))) (some handler)).isSome && itemClass (a % 2 ^ 16) == 0 &&
       (findWarp handler handler.cur.serves).isSome && handler.cur.serves != handler.cur.uid) = true := by
  decide +kernel

theorem witness_baredit :
    (let it := longItem 0x1C7 true (long 0 0x105 0x1C1 0 0)
     readyB handler demoRun it
       { uses := barUses accSync (.src .b vtCount accSync) .dstNone
         bads := encBad (it.m 63 56 ≠ 0) 7 56 ++ opdBad (it.m 54 52 = 7) 6 7 ++ handlerBads handler.cur } && guardU handler.cur it &&
       usableB handler demoRun [0] fun _ => operand handler handler.cur demoRun it vtCount .a 0) = true := by decide +kernel

theorem witness_handlerOnly :
    (let it := longItem 0x1C4 false (long 0 0 0 0 0)
     (specBads obj obj.cur demoRun it { uses := noUses, bads := ptBads it ++ modNone it }).isEmpty) = true ∧
    (let it := longItem 0x1C7 true (long 0 0x105 0x112 0 0)
     (specBads obj obj.cur demoRun it
        { uses := barUses accSync (.src .b vtCount accSync) .dstNone
          bads := encBad (it.m 63 56 ≠ 0) 7 56 ++ opdBad (it.m 54 52 = 7) 6 7 }).isEmpty) = true ∧
    obj.cur.run = some demoRun ∧ obj.cur.handler = false ∧ breakLanes obj obj.cur demoRun = 0 ∧ obj.cur.pend = [] ∧
      nothingLost obj.cur demoRun = true := by decide +kernel

/-- The answer of appending a record. -/
def appended (x : Append) : Option Nat := match x with | .status d _ => some d | _ => none

theorem witness_launch :
    (let it := longItem 0x009 true (long 0 0x108 0x111 0 8)
     let a := operand here here.cur demoRun it (.int 64 false) .a 0
     let x := translateLanes (past here demoRun [5]) here.cur imageLanes (fun j => globalCheck (a + 64 * j) 64) (fun j => a + 64 * j) .read 1 true
     readyB here demoRun it
       { uses := [.src .a (.int 64 false) accS, .src .b vtCount { accSync with latch := false }, .unused .c, .dstS 1]
         bads := dcBads it ++ modZero it 60 52 ++ roleBads here here.cur 5 } && guardU here.cur it && !dcFull here.cur it.dc &&
       !outstanding here here.cur demoRun.grp && here.staging.isEmpty && (okLanes x.1).any fun loc =>
         !anyLocked x.2 (loc.filterMap (·.2.1)) &&
           (appended (appendRecord (imageFill x.2 loc) 0 (tenantOf x.2 here.cur) (operand here here.cur demoRun it vtCount .b 0) (imageBytes x.2 loc))).isSome) =
      true := by decide +kernel

/-! The whole machine. -/

theorem witness_turn :
    demo.agenda = .turn 0 0 0 :: [] ∧ (warpAt { demo with agenda := [] } 0 0 0).any (fun w => w.uid == 1) = true ∧
    (focus { demo with agenda := [] } 1).cur.run = some demoRun ∧
    (match decodeParcels demoRun.body with | .ok (i, rest) => i == .nop (long 0 0 0 0 0) && rest.isEmpty | .error _ => false) = true ∧
    (let ps := natParcels 3 (0x0007000000000021 % 2 ^ 64)
     match decodeParcels (ps.take (itemParcels (ps.getD 0 0))) with | .ok (i, _) => i == .nop (long 0 0 0 0 0) | .error _ => false) = true := by
  decide +kernel

/-- The clause that a fetch gives. -/
def fetched (x : Fetched × State) : Option (DWord × List Word) := match x.1 with | .clause h b => some (h, b) | _ => none

theorem witness_fetch :
    fetched (fetchClause here 0 0 0x10) = some (0x83, [0x21, 0x70000]) ∧
    (match (fetchParcels 0 0 2 0x10 here).1 with | .ok ws => ws == [0x83, 0] | _ => false) = true ∧
    (match (codeParcel here 0 0 0x10).1 with | .ok w => w == 0x83 | _ => false) = true := by decide +kernel

theorem witness_reserved :
    lengthCode 0x7D = 1 ∧ (longInstr (opcOf 0x7D) (long 0 0 0 0 0)).isNone = true ∧
    (let s := withRun demo (fetchRun [0x7D, 0])
     let u := { s with agenda := [] }
     s.agenda == [.turn 0 0 0] && (warpAt u 0 0 0).isSome && (focus u 1).cur.run == some (fetchRun [0x7D, 0]) &&
       breakLanes (focus u 1) (focus u 1).cur (fetchRun [0x7D, 0]) == 0 &&
       (match decodeParcels [0x7D, 0] with | .error _ => true | .ok _ => false)) = true := by decide +kernel

theorem witness_stepNeverStops : ∀ i, demo.agenda.head? = some (.event i) → i.form = .device := by
  intro i h
  have : demo.agenda.head? = some (.turn 0 0 0) := by decide +kernel
  simp [this] at h

theorem witness_issueOrder :
    (let it := longItem 0x040 false (long 0x100 2 4 0 8)
     let sp : Spec := aluSpec false [vtOf it.ty, vtOf it.ty] (vtOf it.ty).pair (commonBads it [2, 3, 6, 7] 1)
     let s := coreRegPut (withWarp demo fun w => { w with dbg := 1 }) 0 0x41 0 (dw (2 ^ 63 + 8))
     let t := withWarp demo fun w => { w with pend := [⟨allLanes, 0, 2, 9⟩] }
     let bad := longItem 0x040 false (long 0x400 2 4 0 8)
     let sb : Spec := aluSpec false [vtOf bad.ty, vtOf bad.ty] (vtOf bad.ty).pair (commonBads bad [2, 3, 6, 7] 1)
     breakLanes s s.cur demoRun != 0 && breakLanes t t.cur demoRun == 0 && blocked t.cur demoRun sp.wide (specRegs it sp) &&
       !blocked demo.cur demoRun sb.wide (specRegs bad sb) && (firstBad (specBads demo demo.cur demoRun bad sb)).isSome &&
       (lostRead demo demo.cur demoRun bad sb).isNone) = true := by
  decide +kernel

/-- v2 of lane 5 is lost, and the IADD that reads it meets no failing check. -/
def struck : State := strike (.parity demo.cur.uid 0 2 5) demo

theorem witness_lostRead :
    (let it := longItem 0x040 false (long 0x100 2 4 0 8)
     let sp : Spec := aluSpec false [vtOf it.ty, vtOf it.ty] (vtOf it.ty).pair (commonBads it [2, 3, 6, 7] 1)
     struck.cur.run == some demoRun && breakLanes struck struck.cur demoRun == 0 && !blocked struck.cur demoRun sp.wide (specRegs it sp) &&
       (firstBad (specBads struck struck.cur demoRun it sp)).isNone && lostRead struck struck.cur demoRun it sp == some (0, 2)) = true := by
  decide +kernel

/-- R383: reading a lost register stops the warp with cause 0x83, INFO0 0 for a v register, INFO1 its number. -/
theorem test_lost_register :
    (match exec (.iadd (long 0x100 2 4 0 8)) struck with
     | .next t => t.cur.trap.map fun x => (x.cause, fld (wordAt x.record 4) 31 2, fld (wordAt x.record 4) 63 32)
     | _ => none) = some (0x83, 0, 2) := by decide +kernel

/-- R382: an error in a pool word poisons that word alone. -/
theorem test_pool_upset :
    (match step { demo with agenda := [.upset (.poolWord 0 20)] } with
     | .next t => t.poolPoison
     | _ => []) = [(2, true)] := by decide +kernel

/-- A staging entry whose lower half is poisoned. -/
def badHalf : Stage :=
  { core := 0, pa := 0x20000, bytes := [], mask := 0, tenant := 0, ctx := 1, scope := 0, level := 0, going := none, applied := false
    txn := 0, gen := false, bad := 1 }

/-- What the soft errors' clauses ask for: a slice's sector, a staging entry, a written packet, a known warp. -/
theorem witness_softErrors :
    (nget (0, 0) demo.corr (65536 * 5)).2 = 0 ∧ 0 < Config.cores ∧ 20 < Config.poolBytes ∧ (∀ k ∈ demo.clusters, 300 ∉ k.cores) ∧
    300 < Config.cores ∧ (findWarp demo demo.cur.uid).isSome = true ∧
    sectorValid (fillSector demo 0x20000) 0x20000 = true ∧
    ({ demo with staging := [badHalf] } : State).staging[0]?.isSome = true ∧
    ({ demo with packets := [⟨0, 0, 1, false, 0x20000, 1, [], [], 0, 0⟩] } : State).packets[0]?.isSome = true := by decide +kernel

/-- ICMP's other checks pass. -/
def icmpB (md : Nat) (own : Item → Bool) : Bool :=
  let it := longItem 0x055 false (long md 2 4 0 1)
  breakLanes demo demo.cur demoRun == 0 && !blocked demo.cur demoRun false (specRegs it (icmpNeeds it [])) &&
    (specBads demo demo.cur demoRun it (icmpNeeds it [])).isEmpty && it.m 55 52 == 0 && nothingLost demo.cur demoRun && own it

theorem witness_compare :
    icmpB 0 (fun it => !([2, 3, 6, 7, 8, 9] : List Nat).contains it.ty) = true ∧
    icmpB 0x420 (fun it => ([8, 9] : List Nat).contains it.ty && decide (2 ≤ it.m 58 56)) = true ∧
    icmpB 0x160 (fun it => ([2, 3, 6, 7] : List Nat).contains it.ty && decide (6 ≤ it.m 58 56)) = true := by decide +kernel

theorem witness_encoding :
    (Instr.iadd (long 0x100 2 4 0 8)).wf = true ∧ (Instr.iadd (long 0x100 2 4 0 8)).form ≠ .device ∧
    (match decodeParcels [0x21, 0x70000, 5] with | .ok (_, rest) => rest == [5] | .error _ => false) = true := by decide +kernel

theorem witness_memWf : ({ State.reset with pool := [(4, 1), (9, 2)] } : State).memWf = true := by decide +kernel

theorem witness_trapTaken : demo.cur.handler = false := rfl

/-- R132: the worked relocation writes 0xFFFF_F4CC. -/
theorem test_loader_pcrel :
    ofBytes (ngetRange 0 (relocApply [] { idx := 0, typ := 2, place := 0x401A34, sym := some 0x400F00, addend := 0 }) 0x401A34 4) = 0xFFFFF4CC := by decide +kernel

/-- R364: the worked refusal: cause 0x11, INFO0 2, INFO1 17, AUX 0xBFFF_F4CC. -/
theorem test_loader_refusal :
    ((relocBad [] { idx := 17, typ := 2, place := 0x401A34, sym := some 0xC0400F00, addend := 0 }).map fun r => (r.cause, r.src, r.info0, r.info1, r.addr, r.aux)) =
      some (0x11, 7, 2, 17, 0x401A34, 0xBFFFF4CC) := by decide +kernel

/-! Events: for each clause a state that meets its premises. -/

/-- The warp between clauses. -/
def idle : State := withWarp here fun w => { w with run := none }

/-- Warps of the same quadrant beside it. -/
def crowd (n : Nat) (f : Warp → Warp) : State := { idle with warps := (List.range n).map fun i => f { idle.cur with uid := i + 2, slot := i + 1 } }

/-- The warp that stepping has stopped inside its clause. -/
def midClause : State := withWarp idle fun w => { w with paused := [{ demoRun with pc := 0 }] }

/-- The hypotheses that both clauses of the issue share. -/
def issuesAt (s : State) : Bool :=
  let v := settle 0 0 (dueStops 0 0 0 s)
  (warpAt v 0 0 0).any fun w =>
    let u := focus v w.uid
    w.uid == 1 && mayIssue v w && itsTurn v w && u.cur == w && selectPc w == some 0

theorem witness_clauseIssue :
    (issuesAt idle && (warpAt (settle 0 0 (dueStops 0 0 0 idle)) 0 0 0).any fun w =>
      let u := focus (settle 0 0 (dueStops 0 0 0 idle)) w.uid
      (pausedAt w 0).isNone && match fetchClause u 0 (tenantOf u w) 0 with
        | (.clause hdr body, t) => !waitHolds w hdr && !clauseBlocked t w (groupAt w 0) (splitItems 16 body)
        | _ => false) = true ∧
    (issuesAt midClause && (warpAt (settle 0 0 (dueStops 0 0 0 midClause)) 0 0 0).any fun w => (pausedAt w 0).isSome) = true := by decide +kernel

theorem witness_rcvHoldExpiry : (warpAt demo 0 0 0).isSome = true := by decide +kernel

theorem witness_ageSwap :
    (let s := { crowd 8 fun w => { w with active := decide (w.uid ≠ 9) } with clk := 4096 }
     match earliest ((quadWarps s 0 0).filter fun x => !x.active && clauseReady s x), earliest (activeWarps s 0 0) with
     | some x, some y => decide (x.since + 2048 ≤ s.clk) && decide (activeCap s 0 ≤ (activeWarps s 0 0).length) && y.run.isNone
     | _, _ => false) = true := by decide +kernel

theorem witness_congestion : (nget (0, 0) State.reset.congest 0).2 + Config.sclk 4096 < ({ State.reset with clk := 10000 } : State).clk := by
  decide +kernel

/-- Lane 0 stopped by a trap that waits for the handler slot. -/
def trapped (phase : Nat) : State := withWarp idle fun w => { w with
  trap := some { record := List.replicate 7 0, cause := 0xE0, stopped := 1, held := 0, run := none, phase := phase, moved := 0, entry := 0, order := 0 } }

theorem witness_handlerStart :
    ((warpAt (trapped 0) 0 0 16).isNone && (waitingTrap (trapped 0) 0 0).any fun e =>
      stopReady (trapped 0) e.1 e.2 && (sysWrite (trapped 0) 0 0 0 (recordBytes e.2.record)).isSome) = true := by decide +kernel

theorem witness_poolAccessAtTarget :
    (let s := withRun demo { fetchRun (encode (.lds (long 0x080 2 4 6 8))) with transit := true }
     (warpAt s 0 0 0).any fun w => w.run.any fun r => r.transit &&
       (s.allWarps.all fun x => !x.bound w.core r.targets || decide (r.stamp ≤ (x.run.map (·.stamp)).getD 0)) && match decodeParcels r.body with
       | .ok (i, _) => (atTargetDo i).isSome
       | .error _ => false) = true := by decide +kernel

/-- A staged block of core 0 at physical address 0x20040. -/
def staged (going : Option Nat) (applied : Bool) : State := { here with
  staging := [{ core := 0, pa := 0x20040, bytes := [(0x20040, 7)], mask := 1, tenant := 0, ctx := 0, scope := 5, level := 0, going := going,
                applied := applied, txn := 0, gen := false }] }

theorem witness_publication :
    ((staged none false).staging[0]?).any (fun e => e.txn == 0 && e.going.isNone) = true ∧
    ((staged (some 1) false).staging[0]?).any (fun e => e.going.isSome && !e.applied && (olderOf (staged (some 1) false) 0 e).isEmpty &&
      !atomicAhead (staged (some 1) false) e && !overtaken (staged (some 1) false) e.core e.sent && !(lineOf here e.pa).locked &&
      !resetting here e.tenant && !(lineOf here e.pa).holdWr && !drainHolds here (coreShelf e.core) e.gen e.pa &&
      match peerWay here (coreShelf e.core) e.pa with | .clear => true | _ => false) = true ∧
    ((staged (some 1) true).staging[0]?).any (·.applied) = true ∧
    (let s := withRun here { demoRun with bnd := some 1 }
     (warpAt s 0 0 0).any fun w => w.run.any fun r => r.bnd == some 1 && !waitingEntries s 0 1) = true := by decide +kernel

theorem witness_homes :
    (let s := { State.reset with l2 := [(0x100000000000 / 256, { valid := 1, dirty := 1 })] }
     (lineOf s 0x100000000000).dirty != 0 && !(lineOf s 0x100000000000).locked && paKind 0x100000000000 != .fast) = true ∧
    (let s := { State.reset with l2 := [(0x200, { valid := 1, dirty := 1 })] }
     (lineOf s 0x20000).dirty != 0 && !(lineOf s 0x20000).locked && paKind 0x20000 == .fast && (freeTag s (stackOf 0x20000)).isSome) = true ∧
    (let old : DWord := shelfReg State.reset 0 0x02 0
     !fbit old 1 && fld (dw 1) 0 0 != fld old 0 0 && (bankDiffers State.reset 1).isNone) = true ∧
    (let s : State := bothPut State.reset 0x02 0 3
     draining s && !oldRequests s) = true := by decide +kernel

/-- An atomic group at `pa`. -/
def grouped (pa : Nat) : State := { here with
  reqs := [{ id := 5, warp := 1, core := 0, ctx := 0, tenant := 0, op := 0, ty := 6, red := true, dst := 0, pc := 8, gen := false, away := none,
             groups := [{ pa := pa, va := 0, lanes := [⟨0, 1, 0⟩] }] }] }

theorem witness_groups :
    (groupReady (grouped 0x20000) 0).any (fun e => paKind e.2.pa == .fast && e.1.away.isNone && !(lineOf here e.2.pa).locked &&
      !(lineOf here e.2.pa).holdWr && !drainHolds here (coreShelf e.1.core) e.1.gen e.2.pa && !poisonedAt here e.2.pa (tyBytes e.1.ty)) = true ∧
    (groupReady (grouped 0x4000000000000) 0).any (fun e => paKind e.2.pa == .host && e.2.lanes == [⟨0, 1, 0⟩] &&
      !poisonedAt here e.2.pa (tyBytes e.1.ty)) = true := by decide +kernel

/-- A packet to a stack. -/
def packet (kind : Nat) (reply : Bool) (args : List Nat) : Packet :=
  { stack := 0, tag := 0, kind := kind, reply := reply, pa := 0x20000, sectors := 1, bytes := [], args := args, src := 7 }

/-- A QPOST command on its way. -/
def query : Cmd := { newCmd demo.cur demoRun (longItem 0x162 true (long 0 0 0 0 0)) .qpost with
  id := 7, kv := wordsOf kvRecord 8, ntok := 64, query := List.replicate 16 0, units := 16, bar := 0x4000, a := 0x5000 }

theorem witness_stacks :
    ([0, 1, 4] : List Nat).all (fun k => (servable { State.reset with packets := [packet k false []] } k 0).isSome) = true ∧
    (servable { State.reset with packets := [packet 2 false [0, 6, 1, 0, 3]] } 2 0).any (fun e => e.2.args == [0, 6, 1, 0, 3]) = true ∧
    ((packet 3 false [0, 63, 64, 0, 0, 0]).kind == 3) = true ∧ (packet 0 true []).reply = true ∧
    (let s := { State.reset with packets := [packet 3 false [0, 63, 64, 0, 0, 1]], fmeta := [(2, { layout := .striped })] }
     (chunksReady s)[0]?.any fun e => (s.packets[e.1]?).isSome) = true ∧ (1 ≤ nget 1 State.reset.refresh 0) ∧
    (let s := { State.reset with cmds := [query], packets := [packet 3 false ([0, 63, 64, 0, 0, 1] ++ List.range 64)],
                                 fmeta := [(2, { layout := .striped })] }
     (triplesReady s)[0]?.any fun e => (s.packets[e.1]?).any fun p => (s.cmds.find? fun c => c.id == p.src).any fun c =>
       (bankResult s c p e.2).2.isNone && (c.landed.filter fun u => u / 16 == p.sectors.toNat).length != 15) = true ∧
    (let s := { demo with cmds := [{ query with kind := .rowzf, done := [1] }] }
     ((s.cmds.filter fun c => (c.kind == .rowzf || c.kind == .rowcp) && c.done.contains 1)[0]?).any fun c =>
       c.kind == .rowzf && (findCtx s c.ctx).isSome) = true ∧
    ([(3, false), (4, true)] : List (Nat × Bool)).all (fun (b, x) =>
      let s := { State.reset with packets := [packet 4 false [65536 * b]], fmeta := [(4, { cmp := true })] }
      (servable s 4 0).any fun e => e.2.args == [65536 * b] && (nget ({} : FrameMeta) s.fmeta b).cmp == x) = true ∧
    (freeTag State.reset (stackOf 0)).isSome = true := by decide +kernel

theorem witness_landable :
    (let it := longItem 0x140 true (long 0 0x104 0x102 0x108 1)
     match exec (.tcopy (long 0 0x104 0x102 0x108 1)) eng with
     | .next s => (landable s)[0]?.isSome && it.d == 1
     | _ => false) = true := by decide +kernel

theorem witness_credit_product :
    (({ demo with credits := [{ ctx := 0, clu := 0, core := 0, off := 0x4000, bytes := 64 }] } : State).credits[0]?).isSome = true ∧
    (let s := { demo with products := [⟨9, 1, 1, [(0, 1)], 2⟩] }
     (s.products[0]?).any fun p => (findWarp { s with products := s.products.eraseIdx 0 } p.warp).isSome) = true := by decide +kernel

theorem witness_mmasStep :
    (match exec (.mmas (long 0x0D0 0x104 0x1C0 0x114 1 (some 0x340))) eng with
     | .next s => ((s.cmds.filter fun c => c.kind == .mmas)[0]?).any fun c =>
         (findBlock s c.ctx c.clu c.bid).any fun b =>
           let rows := (List.range 32).filterMap fun i => if 32 * c.rb + i < c.liveRows then some (32 * c.rb + i) else none
           !c.saving && !ctxHalted s c.ctx && !bloadBusy s b c.core (bitsN c.b.toNat 21 16) (mmasCols c.lits) (bitsN c.b.toNat 15 0 + c.g * c.sweep.gstr)
             (sliceBytes (mmasTb c.lits) c.sweep.kt) s.fresh && !mmasMx c.lits && !stepPoisoned s c rows &&
             (charge s c.ctx (stepDebit (energyClass s c.ctx (bitsN c.lits 16 14)))).isSome
     | _ => false) = true := by decide +kernel

theorem witness_chrunTileRow :
    (match exec (.chrunTile (long 0x104 0 0 0 1 (some 0x4000))) { eng with l2 := [(0x201, ({ valid := 0xFF } : Line))] } with
     | .next s => ((s.cmds.filter fun c => c.kind == .chrun)[0]?).any fun c =>
         let ps := if c.row < c.rowsLive then c.rowPos c.row else []
         !c.saving && !ctxHalted s c.ctx && (charge s c.ctx (chrunDebit s c)).any fun t =>
           match readInputs ps [] ((List.range c.iters.length).drop 1) c s with
           | .ok (e, ins, false) v => (charge v c.ctx (chrunDebit s c)).isSome && t.clk == s.clk &&
               !ins.any fun x => ps.any fun p => (e.side x.1).tainted x.2.1 (e.inputPos x.1 p) || !x.2.2.bad.isEmpty
           | _ => false
     | _ => false) = true := by decide +kernel

/-- A watch in the table or elsewhere. -/
def watch (st : Nat) (operand : DWord) : Watch :=
  { id := 3, tenant := 0, ctx := 0, core := 0, warp := 1, lanes := 1, va := 0x40, pa := 0x20040, width := 4, cmp := 0, signed := false,
    operand := operand, mask := 0, scope := 5, st := st, answer := 0, deadline := some 0, cancel := false }

theorem witness_waits :
    (match exec (.csync (long 0 0 0 0 0)) demo with
     | .next s => ((hwWaiting s).filter (hwComplete s))[0]?.isSome
     | _ => false) = true ∧
    ([0, 5] : List DWord).all (fun b => let s := { here with watches := [watch 0 b] }
      ((s.watches.filter fun x => x.st == 0)[0]?).any fun x => !(lineOf s x.pa).locked && !drainHolds s (coreShelf x.core) x.gen x.pa && !poisonedAt s x.pa x.width &&
        (watchHolds x (homeNat s x.pa x.width) == (b == 0)) && decide (watchCount s (homeSlice s (coreShelf x.core) x.pa) 1 < Config.tideEntries)) = true ∧
    (let s := { here with watches := [watch 3 0] }
     ((s.watches.filter fun x => x.st == 3)[0]?).any fun x => x.warp != 0 && x.answer != 5 && (findWarp s x.warp).isSome) = true ∧
    (let s := { here with watches := [watch 1 0] }
     ((s.watches.filter fun x => !x.cancel && (x.deadline.any fun d => decide (d ≤ s.clk)))[0]?).isSome) = true ∧
    (let s := { here with watches := [{ watch 1 0 with cancel := true }] }
     ((s.watches.filter fun x => x.cancel && (x.st == 1 || x.st == 2))[0]?).isSome) = true := by decide +kernel

/-- The mapped machine with an enabled queue 0 of tenant 0, whose one slot in use, at 0x100, holds a record of the kernel at 0x400. -/
def queued : State :=
  let s := { mapped State.reset with boot := { State.reset.boot with ready := true, stage := 7 } }
  let s := pkgPut (pkgPut (pkgPut s 0x20 0 (dw 0x100)) 0x21 0 (dw (2 ^ 32))) 0x22 0 (dw (2 ^ 63 + 3 * 2 ^ 56 + 16))
  let l : List (Nat × Nat) := [(0x20100, 0x400), (0x20110, 31 * 2 ^ 26 + 2), (0x20120, 489), (0x20128, 32 * 2 ^ 16 + 1), (0x20138, 0x800),
    (0x20400, 7 * 2 ^ 56 + 32 * 2 ^ 48 + 31 * 2 ^ 40 + 2 ^ 32 + 0x314B564F), (0x20410, 2 + 489 * 16)]
  { s with dram := l.foldl (fun m e => dramWord m e.1 e.2) s.dram }

/-- A launch of two clusters of priority `p` on queue 0, none granted. -/
def launch (p : Nat) : Ctx := { fetchCtx with
  id := 7, granted := 0, total := 2, record := [0x400, 0, dw (31 * 2 ^ 26 + p * 2 ^ 24 + 2), 0, dw 489, dw (64 * 2 ^ 16 + 1), 0, dw 0x800]
  khdr := [dw (7 * 2 ^ 56 + 32 * 2 ^ 48 + 31 * 2 ^ 40 + 2 ^ 32 + 0x314B564F)] }

/-- A running warp in a machine whose queue 0 holds `n` records. -/
def launcher (n : Nat) : State :=
  pkgPut (pkgPut (pkgPut here 0x20 0 (dw 0x100)) 0x21 0 (dw (n * 2 ^ 32))) 0x22 0 (dw (2 ^ 63 + 3 * 2 ^ 56 + 16))

theorem witness_launchStatuses :
    ([launcher 16, launcher 1] : List State).all (fun s =>
      let it := longItem 0x009 true (long 0 0x108 0x111 0 8)
      let a := operand s s.cur demoRun it (.int 64 false) .a 0
      let q := operand s s.cur demoRun it vtCount .b 0
      let x := translateLanes (past s demoRun [5]) s.cur imageLanes (fun j => globalCheck (a + 64 * j) 64) (fun j => a + 64 * j) .read 1 true
      readyB s demoRun it
        { uses := [.src .a (.int 64 false) accS, .src .b vtCount { accSync with latch := false }, .unused .c, .dstS 1]
          bads := dcBads it ++ modZero it 60 52 ++ roleBads s s.cur 5 } && guardU s.cur it && !dcFull s.cur it.dc &&
        !outstanding s s.cur demoRun.grp && s.staging.isEmpty && (okLanes x.1).any fun loc =>
          let t := imageFill x.2 loc
          !anyLocked x.2 (loc.filterMap (·.2.1)) && q == 0 && tenantOf t s.cur == 0 && queueOn t 0 &&
            (decide (queueSlots t 0 ≤ queueCount t 0) ||
              match translate t (coreShelf s.cur.core) 0 (slotVa t 0 (fld (pkgReg t 0x21 0) 47 32)) .write 1 with
              | (.ok pa _, u) => !anyLocked u [pa] && !anyHeld u [pa]
              | _ => false)) = true ∧
    queueSlots (launcher 16) 0 ≤ queueCount (launcher 16) 0 ∧ queueCount (launcher 1) 0 < queueSlots (launcher 1) 0 ∧ queueOn here 0 = false := by
  decide +kernel

theorem witness_launchRecordRead :
    (queueOn queued 0 && queueCount queued 0 == 1 && match viewBytes queued 0 false (slotVa queued 0 0) 256 with
      | .ok bs => (match checkRecord (takeId (pkgPut (viewFill queued 0 (slotVa queued 0 0) 256) 0x21 0 (putFld (pkgReg queued 0x21 0) 15 0 1))).2 0 (wordsOf bs 32) with
        | .ok _ => true
        | .error _ => false)
      | _ => false) = true := by decide +kernel

theorem witness_launchStart :
    (let s := { queued with ctxs := [{ launch 0 with st := 0 }] }
     ((s.ctxs.filter fun c => c.st == 0)[0]?).any fun c => c.deps.isEmpty && earlierPlaced s c &&
       match viewBytes s c.tenant false (recPaddr c.record) c.psize with | .ok bs => bs.isEmpty | _ => false) = true := by decide +kernel

theorem witness_dependenceRetry :
    (let s := { here with watches := [watch 4 0] }
     ((s.watches.filter fun x => x.st == 4)[0]?).any fun x => match schedXlate s x.tenant x.va.toNat .read with
       | .ok _ _ => true
       | _ => false) = true := by decide +kernel

/-- The launch of two clusters of which `n` are granted, on the machine whose queue 0 is the only one. -/
def granting (n : Nat) : State := { queued with ctxs := [{ launch 0 with granted := n }] }

theorem witness_clusterGrant (n : Nat) (hn : n = 0 ∨ n = 1) :
    (let s := granting n
     s.boot.ready = true ∧ s.boot.tripped = false ∧
       ([3, 2, 1, 0] : List Nat).find? (fun l => !(levelQueues s l).isEmpty || coopBlocks s l) = some 0 ∧ coopBlocks s 0 = false ∧
       (resumeLevel s).isNone = true ∧
       (let qs := levelQueues s 0
        let k := drrRounds s qs
        let u := replenish s qs k
        (ringFrom ((nget 0 s.drr 0 + k) % 128) qs).find? (fun q => decide (0 < queueDef u q)) = some 0 ∧
          currentLaunch u 0 = some { launch 0 with granted := n } ∧ ∃ t, grantNext u { launch 0 with granted := n } = some t)) ∧
    recCoop (launch 0).record = false := by
  rcases hn with rfl | rfl
  · exact ⟨⟨by decide +kernel, by decide +kernel, by decide +kernel, by decide +kernel, by decide +kernel, by decide +kernel,
      by decide +kernel, grantNext_some _ _ (by decide +kernel) (by decide +kernel) (by decide +kernel)⟩, by decide +kernel⟩
  · exact ⟨⟨by decide +kernel, by decide +kernel, by decide +kernel, by decide +kernel, by decide +kernel, by decide +kernel,
      by decide +kernel, grantNext_some _ _ (by decide +kernel) (by decide +kernel) (by decide +kernel)⟩, by decide +kernel⟩

theorem witness_starvationBoost :
    (let s := { granting 0 with placeable := [(0, 1)], clk := 2 ^ 26 }
     nget 0 s.placeable 0 != 0 && decide (nget 0 s.placeable 0 + Config.sclk (2 ^ 24) < s.clk + 1) && queuePlaceable s 0 &&
       !fbit (pkgReg s 0x23 0) 63) = true := by decide +kernel

theorem witness_warpRetire :
    (let s := withWarp idle fun w => { w with live := 0 }
     (warpAt s 0 0 0).any fun w => w.uid != 0 && !w.handler && w.live == 0 && w.run.isNone && w.trap.isNone && !engineWork s w &&
       !outstanding s w allLanes && w.olog.isEmpty && s.staging.isEmpty && w.deferred.isEmpty) = true := by decide +kernel

theorem witness_launchComplete :
    (let s := { queued with ctxs := [{ launch 0 with granted := 2, retired := 2 }] }
     ((s.ctxs.filter launchDone)[0]?).any fun c =>
       let u := if c.closing.isNone then publishLaunch s c else s
       !launchHeld u { c with closing := (findCtx u c.id).bind (·.closing) } && (bumpCounter u c.tenant (recCc c.record)).isSome) = true := by
  decide +kernel

theorem witness_widxWrite :
    (fld (dw (2 * 2 ^ 32)) 47 32 + 2 ^ 16 - fld (pkgReg queued 0x21 0) 15 0) % 2 ^ 16 ≤ queueSlots queued 0 := by decide +kernel

/-! Saves. -/

/-- The machine with a save region of 80 units in a 1 GiB page. -/
def savable : State := pkgPut { idle with dram := dramWord idle.dram 0x18008 (2 ^ 63 + 2 ^ 62 + 0x800) } 0x24 0 (dw (2 ^ 27 + 80))

/-- The same with a launch of priority 3 that has waited and fits on no cores. -/
def waiting : State :=
  { pkgPut savable 0x22 1 (dw (2 ^ 63 + 3 * 2 ^ 56)) with
    clk := 2 ^ 24, starve := [(1, 1)], ctxs := savable.ctxs ++ [{ launch 3 with queue := 1, record := [0, 0, dw (12 * 2 ^ 40 + 31 * 2 ^ 26 + 3 * 2 ^ 24 + 2)] }] }

/-- The same where a save has begun. -/
def saving (s : State) : State := { s with clusters := s.clusters.map fun c => { c with saving := some 0 } }

theorem witness_preempt : (waiting.clusters.all (fun c => c.saving.isNone || c.heldReported) &&
    ((waitingPrio waiting).bind (victim waiting)).isSome) = true := by decide +kernel

theorem witness_suspend : fbit (0 : DWord) 0 = false ∧ fbit (1 : DWord) 0 = true ∧ fbit (pkgReg savable 0x25 0) 0 = false := by decide +kernel

theorem witness_saveComplete :
    (((saving savable).clusters.filter fun c => c.saving.isSome)[0]?).any (fun c =>
      (saving savable).staging.isEmpty && (regionWaits (saving savable) (ctxTenant (saving savable) c.ctx)
        (((unitOf (saving savable) c).map (saveUnits (saving savable))).sum)).isNone && (unitOf (saving savable) c).all fun x => x.saving.isSome && saveReady (saving savable) x) = true := by
  decide +kernel

theorem witness_saveHeld :
    (let s := { saving { trapped 1 with ctxs := (trapped 1).ctxs } with clk := 2 ^ 26 }
     ((s.clusters.filter fun c => c.saving.isSome)[0]?).any fun c => !c.heldReported &&
       decide (c.saving.getD 0 + Config.sclk (2 ^ 24) ≤ s.clk) && ((unitOf s c).findSome? (saveHeld s)).isSome &&
         !(unitOf s c).all (saveReady s)) = true := by decide +kernel

/-- The machine whose cluster stands in its save region. -/
def saved : State :=
  { savable with
    cur := {}, warps := [], clusters := [], blocks := []
    saved := savable.clusters.map fun c =>
      { ctx := c.ctx, num := c.num, cluster := c, warps := [savable.cur], blocks := savable.blocks, pool := [], tiles := [], cstore := []
        poolPoison := [], csPoison := [], cmds := [], tileSigs := [], barSigs := [], image := [], places := [], wait := 0 } }

/-- What resuming a saved cluster of launch `c` needs beside a place. -/
def mayResumeB (s : State) (v : Saved) (c : Ctx) : Bool :=
  s.boot.ready && !s.boot.tripped && !(([3, 2, 1, 0] : List Nat).any fun l =>
      (decide (effPrio s c ≤ l) && coopBlocks s l) || (decide (effPrio s c < l) && !(levelQueues s l).isEmpty)) &&
    (resumeUnit s c v).any (savedWaits s) && !suspended s c.tenant && !recCoop c.record && !((occOf s).regionsBefore (resumeAsk c v) []).isEmpty

theorem witness_mayResume :
    ((saved.saved[0]?).any fun v => (findCtx saved v.ctx).any fun c => mayResumeB saved v c) = true := by decide +kernel

theorem resumes_of {u : State} (h : ((u.saved[0]?).any fun v => (findCtx u v.ctx).any fun c => mayResumeB u v c) = true) :
    ∃ v c, u.saved[0]? = some v ∧ findCtx u v.ctx = some c ∧ mayResumeB u v c = true ∧ ∃ t, resumeAll u c (resumeUnit u c v) = some t := by
  cases hv : u.saved[0]? with
  | none => rw [hv] at h; exact absurd h (by simp)
  | some v =>
    rw [hv, Option.any_some] at h
    cases hc : findCtx u v.ctx with
    | none => rw [hc] at h; exact absurd h (by simp)
    | some c =>
      rw [hc, Option.any_some] at h
      have hp : recCoop c.record = false ∧ ((occOf u).regionsBefore (resumeAsk c v) []).isEmpty = false := by
        simp only [mayResumeB, Bool.and_eq_true, Bool.not_eq_true'] at h
        exact ⟨h.1.2, h.2⟩
      have hu : resumeUnit u c v = [v] := by simp [resumeUnit, hp.1]
      exact ⟨v, c, rfl, hc, h, hu ▸ resumeAll_one u c v hp.2⟩

theorem witness_resume : ∃ v c, saved.saved[0]? = some v ∧ findCtx saved v.ctx = some c ∧ mayResumeB saved v c = true ∧
    ∃ t, resumeAll saved c (resumeUnit saved c v) = some t := resumes_of witness_mayResume

/-! Pages. -/

theorem witness_shootDown :
    (fbit (dw 1) 0 && !fbit (pkgReg here 0x2B 0) 63) = true ∧
    (let s := { here with shoot := some 0 }
     !shootBusy s 0 (shootFrames s 0 0 0)) = true := by decide +kernel

/-- An operand-log entry of page 0. -/
def entry (st : Nat) : LogEntry :=
  { st := st, seq := 0, lane := 0, insn := 0, lit := 0, mask := 1, va := 0x20, pc := 8, pay := 0, payIdx := 0, src := 9, tiles := [], bar := 0,
    ft := 0, reported := false }

theorem witness_replay :
    (let s := withWarp here fun w => { w with olog := [entry 2] }
     (warpAt s 0 0 0).any fun w => (readyEntry w).isSome) = true := by decide +kernel

/-- The machine whose page 0 stands in state `st` in the capacity tier, with a lane parked on it. -/
def parked (st : Nat) : State :=
  withWarp { here with dram := dramWord here.dram 0x1C000 (2 ^ 63 + 2 ^ 56 + st * 2 ^ 54 + 0x10000000) } fun w => { w with olog := [entry 0] }

/-- A request of the fault unit for page 0, from `u`. -/
def request (u : State) (k : Nat) : Migr := moveOf 0 0 k (dw (homeNat u 0x1C000 8))

/-- The frame rings of tenant 0 in page 1: the fast tier's at 0x12000 holds frame 0x40, the capacity tier's at 0x14000 is empty. -/
def rings (s : State) : State :=
  { bothPut (bothPut s 0x15 0 (dw 0x12000)) 0x15 2 (dw 0x14000) with dram := dramWord (dramWord s.dram 0x32000 1) 0x32010 0x40 }

/-- A request whose page may be moved, and one that may begin. -/
def mayMoveB (s : State) (m : Migr) : Bool :=
  !m.failed && (leavesAt s m).isSome && !shootBusy s m.tenant (migrRanges s m ((leavesAt s m).getD 0)) &&
    s.l2.all (fun e => !((e.2.locked || e.2.holdWr) && inRanges (migrRanges s m ((leavesAt s m).getD 0)) (256 * e.1))) &&
      (ringTake s (pageShelf (leafPFN m.leaf * 65536)) m.tenant (destTier m.kind m.leaf) 0).isSome && !ptL m.leaf && !m.err
def mayBeginB (s : State) (m : Migr) : Bool := !tenantMoving s m.tenant && (ringCheck s m).isNone && (leavesAt s m).isSome

theorem witness_migrates :
    ([0, 3] : List Nat).all (fun k => let u := rings (parked (if k = 0 then 1 else 2))
      let s := { u with migrs := [request u k] }
      (findMigr s 0 0) == some (request u k) && mayMoveB s (request u k)) = true := by decide +kernel

theorem witness_migrations :
    ([(1, 0), (2, 3)] : List (Nat × Nat)).all (fun e => let s := rings (parked e.1)
      (findMigr s 0 0).isNone && parkedOn s 0 0 && mayBeginB s (request s e.2) &&
      match homeWalk s 0 0 with
      | .leaf x g => (leafBad x g).isNone && leafKEY x == 0 && leafSTATE x == e.1 && x == dw (homeNat s 0x1C000 8)
      | _ => false) = true := by decide +kernel

theorem witness_remoteHome :
    (findMigr here 0 0).isNone = true ∧
    (match homeWalk here 0 0 with
     | .leaf e g => (leafBad e g).isNone && leafKEY e == 0 && leafSTATE e == 0
     | _ => false) = true ∧
    (match homeWalk here 0 0x30000 with
     | .invalid _ => (findMigr here 0 3).isNone
     | _ => false) = true := by decide +kernel

/-- A staged store that was parked on page 0. -/
def parkedStg : LogEntry :=
  let ps := encode (.stg (long 0x100 4 6 8 0))
  { entry 2 with insn := ps.getD 1 0 ++ ps.getD 0 0 }

theorem witness_replayStg :
    (opcOf (parkedStg.insn.extractLsb' 0 32) == 0x120 &&
      (let w0 := parkedStg.insn.extractLsb' 0 32
       let it := longItem 0x120 false (longFields w0 (parkedStg.insn.extractLsb' 32 32) none)
       match translateLanes here { here.cur with olog := [] } (lanesOf 1) (fun _ => none) (fun l => (payloadLane here 0 l).va) .write 1 true with
       | (.ok loc, u) => stageRoom (onCur u fun w => { w with txn := {} }) (it.m 54 52) (blocksOf loc)
       | _ => false)) = true := by decide +kernel

/-- A request to device 5, whose peer slot 0 stands on port 0. -/
def remote : State := { mput here (mnum 0 0x08 0) (dw (2 ^ 63 + 5 * 2 ^ 32 + 1)) with remotes := [⟨0, 0, 5, 0, 0⟩], links := [(0, { st := 2 })], clk := 10000000 }

theorem witness_remote :
    ((remote.remotes.find? fun r => r.tenant == 0 && r.page == 0).any fun r =>
      (slotOf remote r.shelf r.dev).isSome && (leafAddr remote r.shelf 0 0).isSome && decide (r.at0 + 1000 * Config.clkPerUs ≤ remote.clk)) = true := by decide +kernel

theorem witness_frameRetire :
    (let s := { demo with failing := [99] }
     s.boot.ready && !s.retired.contains 99 && s.failing.contains 99 && (s.migrs.find? fun m => m.kind == 4 && m.frame == 99).isNone &&
       (frameMapping s 99).isNone) = true ∧
    (let s := { rings here with failing := [2] }
     s.boot.ready && s.failing.contains 2 && (s.migrs.find? fun m => m.kind == 4 && m.frame == 2).isNone && frameMapping s 2 == some (0, 0) && (findMigr s 0 0).isNone && mayBeginB s { request s 4 with frame := 2 } &&
       match homeWalk s 0 0 with
       | .leaf e g => !g && e == dw (homeNat s 0x1C000 8)
       | _ => false) = true ∧
    (let u := rings here
     let m := { request u 4 with frame := 2 }
     let s := { u with migrs := [m], failing := [2] }
     s.migrs.find? (fun m => m.kind == 4 && m.frame == 2) == some m && mayMoveB s m) = true := by
  decide +kernel

/-! Debug. -/

theorem witness_wctl :
    (wctlSlot (trapped 2) 0 (actedFields (trapped 2) 0)).any (fun w => w.trap.isSome && nget 0 (trapped 2).wctl 0 == 0 &&
      !waitingEntries (raiseEntries (trapped 2) w.core (scopeLevel (trapped 2) w 2)) w.core (scopeLevel (trapped 2) w 2) &&
      w.trap.all (stopReady (raiseEntries (trapped 2) w.core (scopeLevel (trapped 2) w 2)) w) &&
      (exitLanes (trapped 2) w w.live).any fun t =>
        (findWarp (releaseTiles ((lanesOf w.live).foldl (fun s l => leaveWatch s w.uid l) (endHandler t w)) (w.olog.flatMap (·.tiles))) w.uid).isSome) =
          true ∧
    (let s := { idle with ctxs := idle.ctxs.map fun c => { c with khdr := c.khdr.set 3 (dw 0x4003F) } }
     (wctlSlot s 0 (coreReg s 0 0x44 0)).any fun w => trapCfg s w 18) = true := by decide +kernel

/-! Links. -/

/-- A data cell with a correct CRC. -/
def cell (kind seq : Nat) (payload : List Byte) : Cell :=
  let c : Cell := { seq := BitVec.ofNat 12 seq, aseq := 0, vc := 0, kind := BitVec.ofNat 6 kind, fvc := 0, free := 9, payload := payload, crc := 0 }
  { c with crc := crc32 (cellBody c) }

/-- Port 0 in a state. -/
def linked (k : Link) : State := { here with links := [(0, k)], clk := 10000000 }

/-- A full cell of a kind. -/
def full (kind : Nat) : Cell := cell kind 0 (List.replicate 52 1)

theorem witness_links :
    ([0, 1, 2, 3] : List Nat).all (fun k => isCell (full k) && cellGood (full k) && (full k).seq == (linkAt (linked { st := 2 }) 0).expect) = true ∧
    (let k := linkAt (linked { st := 2, allow := [(0, 4)], wantReplay := true }) 0
     k.st == 2 && k.wantReplay && allowed k (full 0).vc.toNat && decide (k.unacked.length < 2048)) = true ∧
    (let c := { full 0 with crc := 7 }
     isCell c && c.kind == 0 && !(cellGood c && c.seq == (linkAt (linked { st := 2 }) 0).expect)) = true ∧
    (let k := linkAt (linked { st := 2, replays := [(0, 16)], unacked := [full 0] }) 0
     k.unacked.any (fun c => decide (16 ≤ k.replaysOf c)) && k.unacked != [] && decide (k.ackClk + 100 * Config.clkPerUs ≤ (linked k).clk) && !sendsAgain k && sendsAgain { k with redo := [0] }) = true ∧
    (linkAt (linked { st := 3 }) 0).st = 3 ∧
    ([0, 2] : List Nat).all (fun n => (linkAt (linked { st := 1, fails := n }) 0).st == 1) = true ∧
    (fbit (1 : DWord) 0 && !fbit (1 : DWord) 2 && !fbit (mget { here with mreg := [(linkReg 1 0x06, some 0)] } (linkReg 1 0x06)) 0 && here.boot.ready &&
      !fbit (0 : DWord) 0 && !fbit (0 : DWord) 2 && fbit (mget { here with mreg := [(linkReg 1 0x06, some 1)] } (linkReg 1 0x06)) 0) = true := by
  decide +kernel

/-- A reference cell that names block 0 of a history is accepted where the opaque framing gives that history a block. -/
theorem witness_reference (b : List Byte) (rx : List (Nat × List Byte)) (h : Config.linkBlocks rx = [b]) : refBlock rx ([0, 0] ++ Config.shake256 b 32) = some b := by
  simp [refBlock, historyEntry, h, bitsN, ofBytes]

/-! The mailbox. -/

/-- A ring of 16 commands at 0x1000 with completions at 0x2000, and the command of words `a`, `b`, `c` announced. -/
def mailbox (a b c : Nat) (s : State) : State :=
  { s with host := ([(0x1000, a), (0x1008, b), (0x1010, c)] : List (Nat × Nat)).foldl (fun m e => dramWord m e.1 e.2) []
           boot := { s.boot with mbqbase := 0x1000, mbcbase := 0x2000, mbhead := 1 } }

/-- That command is next, and is well-formed. -/
def mbB (a b c : Nat) (s : State) (f : State → MbCmd → Bool) : Bool :=
  (mbNext (mailbox a b c s)).any fun x => !mbMalformed x && f (mailbox a b c s) x

theorem witness_mbhead :
    mbSlots (mailbox 0 0 0 here) = some 16 ∧ ((1 : DWord).setWidth 16 - (mailbox 0 0 0 here).boot.mbtail).toNat ≤ 16 ∧
    16 < ((20 : DWord).setWidth 16 - (mailbox 0 0 0 here).boot.mbtail).toNat := by decide +kernel

theorem witness_mailbox :
    mbB (1 + 7 * 256) 0x20100 0x3000 here (fun s c => s.boot.ready && mbOp c == 1 && mbRange c.w1.toNat (mbLen c) &&
      !anyLocked s (addrsOf c.w1.toNat (mbLen c)) && !anyHeld s (addrsOf c.w1.toNat (mbLen c))) = true ∧
    mbB (2 + 7 * 256) 0x20100 0x3000 here (fun s c => mbOp c == 2 && mbRange c.w1.toNat (mbLen c) &&
      !anyLocked s (addrsOf c.w1.toNat (mbLen c)) && !poisonedAt s c.w1.toNat (mbLen c)) = true ∧
    mbB 3 (mnum 0 0x14 0) 5 here (fun s c => mbOp c == 3 && (regWrite s c.w1.toNat c.w2).isSome) = true ∧
    mbB 4 (mnum 0 0x14 0) 0x3000 here (fun s c => mbOp c == 4 && (regRead s c.w1.toNat).isSome) = true ∧
    mbB 5 0 0x100 here (fun s c => mbOp c == 5 && (findMigr s 0 0).isNone && match homeWalk s (fld c.w2 3 0) c.w1.toNat with
      | .leaf e g => !g && leafSTATE e == 0 && !inTier c e
      | _ => false) = true ∧
    mbB 5 0 0 here (fun s c => mbOp c == 5 && match homeWalk s (fld c.w2 3 0) c.w1.toNat with
      | .leaf e g => !g && leafSTATE e == 0 && inTier c e
      | _ => false) = true ∧
    mbB 6 0 0 savable (fun s c => mbOp c == 6 && !s.boot.mbSave && !(queueClusters s (fld c.w2 3 0) (fld c.w2 6 4)).isEmpty &&
      saveFits s (fld c.w2 3 0) ((queueClusters s (fld c.w2 3 0) (fld c.w2 6 4)).filter fun k => k.saving.isNone)) = true := by decide +kernel

/-- IMAGE of the first byte of the recovery SRAM, whose size is opaque. -/
theorem witness_image (h : 1 ≤ Config.recoveryBytes) :
    mbB 7 0 0x3000 { State.reset with boot := { State.reset.boot with stage := 8 } } (fun s c => !s.boot.ready && s.boot.stage == 8 &&
      mbOp c == 7 && !fbit c.w2 0 && c.w1.toNat + mbLen c == 1) = true ∧ 0 + 1 ≤ Config.recoveryBytes := ⟨by decide +kernel, h⟩

/-! Bring-up and registers. -/

/-- A bring-up stage. -/
def stage (n : Nat) : State := { State.reset with boot := { State.reset.boot with stage := n }, clk := 4000000000 }

/-- A diagnosis of calibration. -/
def diag : Diag := dieDiag 2 0

theorem witness_calibration : diag.errc.toNat = 2 ∧ diagFits diag = true ∧ (stage 2).boot.stage = 2 := by decide +kernel

/-- A stage that has just begun. -/
def begun (n : Nat) : State := { State.reset with boot := { State.reset.boot with stage := n } }

/-- Where the dies' identifiers, which are opaque, differ, one is received alone; then the election goes on. -/
theorem witness_election (h : Config.dieId 0 ≠ Config.dieId 1) :
    let t : State := { begun 3 with boot := { (begun 3).boot with ids := nset none (begun 3).boot.ids (8 * 0 + 1) (some (Config.dieId 1)) } }
    (begun 3).clk ≤ (begun 3).boot.stageClk + 50000 * Config.clkPerUs ∧
      (Config.dieId 0 :: received t 0).countP (· == Config.dieId 1) = 1 ∧ (received t 0).length ≠ 5 := by
  have hr : received { begun 3 with boot := { (begun 3).boot with ids := nset none (begun 3).boot.ids (8 * 0 + 1) (some (Config.dieId 1)) } } 0 =
      [Config.dieId 1] := rfl
  simp only [hr]
  exact ⟨by decide +kernel, by simp [h], by simp⟩

/-- A die whose identifier is the lowest of six different ones is the headland when it has the five others. -/
theorem witness_headland (h : ∀ k, 0 < k → k < 6 → (Config.dieId 0).toNat < (Config.dieId k).toNat)
    (hd : ∀ k, 1 < k → k < 6 → Config.dieId k ≠ Config.dieId 1) :
    let s := { begun 3 with boot := { (begun 3).boot with
      ids := [(2, some (Config.dieId 2)), (3, some (Config.dieId 3)), (4, some (Config.dieId 4)), (5, some (Config.dieId 5))] } }
    let t : State := { s with boot := { s.boot with ids := nset none s.boot.ids (8 * 0 + 1) (some (Config.dieId 1)) } }
    (received t 0).length = 5 ∧ (∀ x ∈ received t 0, (Config.dieId 0).toNat < x.toNat) ∧
      (Config.dieId 0 :: received t 0).countP (· == Config.dieId 1) = 1 := by
  have hr : received { begun 3 with boot := { (begun 3).boot with
      ids := nset none [(2, some (Config.dieId 2)), (3, some (Config.dieId 3)), (4, some (Config.dieId 4)), (5, some (Config.dieId 5))]
        (8 * 0 + 1) (some (Config.dieId 1)) } } 0 =
      [Config.dieId 1, Config.dieId 2, Config.dieId 3, Config.dieId 4, Config.dieId 5] := rfl
  have h0 : Config.dieId 0 ≠ Config.dieId 1 := fun e => absurd (h 1 (by omega) (by omega)) (by simp [e])
  simp only [hr]
  refine ⟨rfl, ?_, ?_⟩
  · intro x hx
    simp only [List.mem_cons, List.not_mem_nil, or_false] at hx
    rcases hx with rfl | rfl | rfl | rfl | rfl <;> exact h _ (by omega) (by omega)
  · simp [h0, hd 2 (by omega) (by omega), hd 3 (by omega) (by omega), hd 4 (by omega) (by omega), hd 5 (by omega) (by omega)]

theorem witness_electionTimeout :
    (stage 3).boot.stageClk + 50000 * Config.clkPerUs ≤ (stage 3).clk ∧ nget none (stage 3).boot.ids (8 * 1 + 0) = none := by decide +kernel

/-- Empty flash is no image; the stages' limits have passed. -/
theorem witness_stages : imageCheck [] = some 0x08 ∧ (stage 5).boot.stageClk + 1000000 * Config.clkPerUs ≤ (stage 5).clk := by
  constructor
  · have h : imgNat ([] : NMap Byte) 0 4 ≠ 0x5A484657 := by decide +kernel
    simp [imageCheck, h]
  · decide +kernel

theorem witness_power :
    (let s := { demo with clk := 10000 }
     passesDue s 0 != 0 && ctxsOn s 0 == [fetchCtx] && dieWeight s 0 fetchCtx != 0) = true ∧ passesDue demo 0 = 0 ∧
    demo.boot.ready = true ∧ demo.boot.stage = 7 ∧ (begun 5).clk ≤ (begun 5).boot.stageClk + 1000000 * Config.clkPerUs := by
  decide +kernel

theorem witness_plainWrite : PlainWrite here (mnum 0 0x14 0) ∧ mnum 0 0x14 0 < 2 ^ 30 ∧ (regRead here (mnum 0 0x14 0)).isSome = true ∧
    mbB 3 (mnum 0 0x14 0) 5 here (fun s c => mbOp c == 3 && decide (regOk c.w1.toNat = true ∧ numDom c.w1.toNat ≠ 2 ∧
      writeIgnored s (numFam c.w1.toNat) (numIdx c.w1.toNat) = false ∧ numFam c.w1.toNat = 0x14)) = true ∧
    ([3, 4] : List Nat).all (fun op => mbB op (mnum 0 0x3F 0) 0x3000 here (fun _ c => mbOp c == op && !regOk c.w1.toNat)) = true := by
  refine ⟨⟨by decide +kernel, by decide +kernel, by decide +kernel, by decide +kernel⟩, by decide +kernel, by decide +kernel, by decide +kernel,
    by decide +kernel⟩

theorem witness_registers :
    (fld (pkgReg here 0x29 0) 15 0 + 2 ^ 16 - fld (0 : DWord) 47 32) % 2 ^ 16 ≤ 2 ^ (fld (pkgReg here 0x28 0) 3 0 + 6) ∧
    2 ^ (fld (pkgReg here 0x28 0) 3 0 + 6) < (fld (pkgReg here 0x29 0) 15 0 + 2 ^ 16 - fld (dw (0xFF00 * 2 ^ 32)) 47 32) % 2 ^ 16 ∧
    (mnum 0 0x14 0 < 2 ^ 30 ∧ (regWrite here (mnum 0 0x14 0) 5).isSome = true) ∧ regOk (mnum 0 0x3F 0) = false := by decide +kernel

theorem witness_tenantReset :
    (let s := pkgPut idle 0x26 0 (dw 2)
     resetting s 0 && s.allWarps.all (fun w => !inClause w) && !tenantMoving s 0) = true ∧ resetting idle 0 = false := by decide +kernel

/-- Interleave bank 1 sends every line elsewhere than bank 0, and DRAIN is 1. -/
def drainDemo : State := bothPut (bothPut State.reset 0x01 32 (dw (2 ^ 63 + 2 * 2 ^ 60 + (2 ^ 22 - 1) * 2 ^ 22))) 0x02 0 (dw 2)

/-- R57: a read that reaches the new home of a moved line while DRAIN is 1 waits with its step. -/
theorem test_drain_holds : draining drainDemo = true ∧ paLocal 0 = true ∧ anyMoved drainDemo (0 / 256 * 256) = true ∧
    (fillBytes drainDemo 0 8).early = 1 ∧
    (match heldBack drainDemo (.next (fillBytes drainDemo 0 8)) with
      | .next t => t.early
      | .fault _ => 9
      | .refused _ => 9) = 0 := by decide +kernel

end Sys2Proof.Tests
end

section
/-! SUPPORT. What a record of the module leaves of launches, watches and cached leaves; what a tenant's reset leaves of the tenant (R351, R378). -/

namespace Sys2Proof.Machine

/-! Launches, watches and cached leaves under writes to memory. -/

/-- The same launches and cached leaves, and as many watches of each tenant: a write changes no more of a watch than its answer (R247). -/
structure SameOwners (s u : State) : Prop where
  ctxs : u.ctxs = s.ctxs
  tlb : u.tlb = s.tlb
  watches : u.watches.map (·.tenant) = s.watches.map (·.tenant)

theorem SameOwners.refl (s : State) : SameOwners s s := ⟨rfl, rfl, rfl⟩

theorem SameOwners.trans {s t u : State} (h : SameOwners s t) (k : SameOwners t u) : SameOwners s u :=
  ⟨k.ctxs.trans h.ctxs, k.tlb.trans h.tlb, k.watches.trans h.watches⟩

theorem SameOwners.foldl {α : Type} (f : State → α → State) (h : ∀ s x, SameOwners s (f s x)) (l : List α) (s : State) :
    SameOwners s (l.foldl f s) := by
  induction l generalizing s with
  | nil => exact .refl s
  | cons x l ih => exact (h s x).trans (ih (f s x))

theorem fillSector_sameOwners (s : State) (pa : Nat) : SameOwners s (fillSector s pa) := by
  unfold fillSector fillWith
  split
  · exact .refl s
  · exact ⟨rfl, rfl, rfl⟩

theorem homeByteSet_sameOwners (s : State) (core : Nat) (by_ : List Nat) (pa : Nat) (b : Byte) :
    SameOwners s (homeByteSet s core by_ pa b) := by
  unfold homeByteSet
  split
  · exact ⟨rfl, rfl, rfl⟩
  · exact ⟨rfl, rfl, rfl⟩
  · have h := fillSector_sameOwners { s with hist := ⟨pa, homeByte s pa, s.order, core, by_⟩ :: s.hist } pa
    exact ⟨h.ctxs, h.tlb, h.watches⟩

@[simp] theorem evalWatch_tenant (s : State) (line : Nat) (w : Watch) : (evalWatch s line w).tenant = w.tenant := by
  unfold evalWatch
  repeat' split
  all_goals rfl

theorem lineWritten_sameOwners (s : State) (line : Nat) : SameOwners s (lineWritten s line) :=
  ⟨rfl, rfl, by simp [lineWritten, Function.comp_def]⟩

theorem applyWriteBad_sameOwners (core : Nat) (who : Nat → List Sig) (bad : List Nat) (s : State) (ws : List (Nat × Byte)) :
    SameOwners s (applyWriteBad core who bad s ws) := by
  have hbytes := SameOwners.foldl (fun s w => homeByteSet s core ((who w.1).flatMap (·.agents)) w.1 w.2)
    (fun s w => homeByteSet_sameOwners s core _ w.1 w.2) ws s
  unfold applyWriteBad
  extract_lets s1 s2 as clear s3
  have hs3 : SameOwners s s3 := ⟨hbytes.ctxs, hbytes.tlb, hbytes.watches⟩
  exact hs3.trans (SameOwners.foldl lineWritten lineWritten_sameOwners _ s3)

theorem applyWrite_sameOwners (s : State) (ws : List (Nat × Byte)) : SameOwners s (applyWrite s ws) := by
  unfold applyWrite applyWriteBy
  exact applyWriteBad_sameOwners ..

theorem mput_sameOwners (s : State) (n : Nat) (v : DWord) : SameOwners s (mput s n v) := ⟨rfl, rfl, rfl⟩

theorem pkgPut_sameOwners (s : State) (fam idx : Nat) (v : DWord) : SameOwners s (pkgPut s fam idx v) :=
  mput_sameOwners ..

theorem eqAppend_sameOwners (s : State) (n : Nat) (ws : List DWord) : SameOwners s (eqAppend s n ws) := by
  unfold eqAppend
  extract_lets base idx ctl slots pidx cidx sFull ws' s1 s2 s3 s4
  have hFull : SameOwners s sFull := pkgPut_sameOwners ..
  have h1 : SameOwners s s1 := ⟨rfl, rfl, rfl⟩
  have h3 : SameOwners s s3 := h1.trans ((applyWrite_sameOwners s1 _).trans (pkgPut_sameOwners s2 _ _ _))
  have h4 : SameOwners s s4 := h3.trans (pkgPut_sameOwners s3 _ _ _)
  clear_value sFull s3 s4
  split
  · exact ⟨hFull.ctxs, hFull.tlb, hFull.watches⟩
  split
  · exact ⟨h4.ctxs, h4.tlb, h4.watches⟩
  · exact h3

theorem reportBare_sameOwners (s : State) (ten que : Nat) (r : Report) : SameOwners s (reportBare s ten que r) := by
  have hrec : SameOwners s (bareRecord s ten que r).2 := ⟨rfl, rfl, rfl⟩
  unfold reportBare
  generalize bareRecord s ten que r = p at hrec ⊢
  exact hrec.trans (eqAppend_sameOwners p.2 _ p.1)

/-! A tenant's reset (R378). -/

/-- No launch, watch or cached leaf of a tenant is left. -/
structure TenantGone (s : State) (t : Nat) : Prop where
  ctxs : ∀ c ∈ s.ctxs, c.tenant ≠ t
  watches : ∀ x ∈ s.watches, x.tenant ≠ t
  tlb : ∀ e ∈ s.tlb, e.tenant ≠ t

theorem TenantGone.of_sameOwners {s u : State} {t : Nat} (h : TenantGone s t) (k : SameOwners s u) : TenantGone u t where
  ctxs := k.ctxs ▸ h.ctxs
  tlb := k.tlb ▸ h.tlb
  watches := by
    intro x hx
    have hmem := List.mem_map_of_mem (f := (·.tenant)) hx
    rw [k.watches] at hmem
    obtain ⟨y, hy, hxy⟩ := List.mem_map.mp hmem
    exact hxy ▸ h.watches y hy

/-- A shoot-down of size 3 names every leaf of its tenant (Table 14.6). -/
theorem dropLeaves_all_tlb (s : State) (t va : Nat) : ∀ e ∈ (dropLeaves s t 3 va).tlb, e.tenant ≠ t := by
  simp [dropLeaves, shootMatch]

theorem resetFinish_gone (s : State) (t : Nat) : TenantGone (resetFinish s t) t := by
  unfold resetFinish
  extract_lets mine uids s1 s2 s3 s4 s5
  have h : TenantGone s5 t :=
    ⟨by simp [s5, s4, dropLeaves], by simp [s5, s4, dropLeaves], dropLeaves_all_tlb s4 t 0⟩
  exact h.of_sameOwners ((pkgPut_sameOwners ..).trans (reportBare_sameOwners ..))

theorem resetComplete_ready (s : State) (t : Nat) (hr : resetting s t = true)
    (hc : ∀ w ∈ s.allWarps, tenantOf s w = t → w.uid ≠ 0 → inClause w = false) (hm : tenantMoving s t = false) :
    resetComplete t s = resetFinish s t := by
  refine if_neg ?_
  simpa [hr, hm] using hc

theorem tenantReset_next (s : State) (t : Nat) :
    exec (.tenantReset t) s =
      .next (if resetting s t then pkgPut s 0x26 t (putFld (pkgReg s 0x26 t) 2 2 1) else resetBegin s t) := by
  change Host.Outcome.next (trstWrite t 1 s) = _
  simp [trstWrite, fbit]

end Sys2Proof.Machine
end

section
/-! SUPPORT. What a register write does: the error queues' registers, registers written by storing, numbers that name none (R5, R351, R408);
the management registers' values after reset. -/

namespace Sys2Proof.Machine

/-! The registers of an error queue (R351). -/

theorem eqidxCidxWrite_within (n : Nat) (v : DWord) (s : State)
    (h : (fld (pkgReg s 0x29 n) 15 0 + 2 ^ 16 - fld v 47 32) % 2 ^ 16 ≤ 2 ^ (fld (pkgReg s 0x28 n) 3 0 + 6)) :
    exec (.eqidxCidxWrite n v) s = .next (pkgPut s 0x29 n (putFld (pkgReg s 0x29 n) 47 32 (fld v 47 32))) :=
  congrArg Host.Outcome.next (if_neg (Nat.not_lt.mpr h))

theorem eqidxCidxWrite_beyond (n : Nat) (v : DWord) (s : State)
    (h : 2 ^ (fld (pkgReg s 0x28 n) 3 0 + 6) < (fld (pkgReg s 0x29 n) 15 0 + 2 ^ 16 - fld v 47 32) % 2 ^ 16) :
    exec (.eqidxCidxWrite n v) s = .next s :=
  congrArg Host.Outcome.next (if_pos h)

/-- The word that EQCTL_CLR writes: IE as it stands, ARM 0, CLR 1. -/
theorem eqctlClr_word (b : Nat) (hb : b < 2) : fld (dw (b + 4)) 0 0 = b ∧ fbit (dw (b + 4)) 1 = false ∧ fbit (dw (b + 4)) 2 = true := by
  interval_cases b <;> decide

theorem eqctlClr_clears (n : Nat) (s : State) :
    exec (.eqctlClr n) s =
      .next (pkgPut s 0x2A n (putFld (putFld (pkgReg s 0x2A n) 0 0 (fld (pkgReg s 0x2A n) 0 0)) 63 48 0)) := by
  obtain ⟨hie, harm, hclr⟩ := eqctlClr_word (fld (pkgReg s 0x2A n) 0 0) (Nat.mod_lt _ (by decide))
  change Host.Outcome.next (eqctlWrite n (dw (fld (pkgReg s 0x2A n) 0 0 + 4)) s) = _
  simp [eqctlWrite, hie, harm, hclr]

/-! Register writes (R5, R408). -/

theorem registerWrite_number (num : Nat) (v : DWord) (s : State) (h : num < 2 ^ 30) :
    exec (.registerWrite num v) s = .next ((regWrite s num v).getD s) := by
  change Host.Outcome.next (registerWrite num v s) = _
  rw [registerWrite, if_neg (by omega), if_neg (by omega)]

theorem regWrite_none (s : State) (num : Nat) (v : DWord) (h : regOk num = false) : regWrite s num v = none := by
  simp [regWrite, h]

/-- A family whose registers are written by storing. -/
theorem writeOne_plain (dom fam idx : Nat) (v : DWord) (s : State) (hi : writeIgnored s fam idx = false)
    (hf : fam ∈ ([0x01, 0x08, 0x09, 0x0A, 0x10, 0x11, 0x12, 0x13, 0x14, 0x15, 0x20, 0x22, 0x24, 0x27, 0x28, 0x40, 0x41, 0x42, 0x43] : List Nat)) :
    writeOne dom fam idx v s = mput s (mnum dom fam idx) (v &&& rwMask fam) := by
  simp only [List.mem_cons, List.not_mem_nil, or_false] at hf
  rcases hf with rfl | rfl | rfl | rfl | rfl | rfl | rfl | rfl | rfl | rfl | rfl | rfl | rfl | rfl | rfl | rfl | rfl | rfl | rfl <;>
    simp [writeOne, hi]

theorem regWrite_plain (s : State) (num : Nat) (v : DWord) (h : PlainWrite s num) : regWrite s num v = some (plainWritten s num v) := by
  obtain ⟨hok, hdom, hign, hfam⟩ := h
  simp [regWrite, plainWritten, hok, hdom, writeOne_plain _ _ _ v s hign hfam]

/-! The management registers after reset (R408). -/

theorem numFam_mnum (dom fam idx : Nat) (hf : fam < 2 ^ 8) (hi : idx < 2 ^ 20) : numFam (mnum dom fam idx) = fam := by
  simp only [numFam, bitsN, mnum]
  omega

theorem mregReset_pwrwt (n : Nat) (h : numFam n = 0x14) : mregReset n = 1 := by
  unfold numFam at h
  simp [mregReset, h]

theorem mregReset_qctl (n : Nat) (h : numFam n = 0x22) : mregReset n = 0x100000 := by
  unfold numFam at h
  simp [mregReset, h]

/-- The families with a reset value other than 0 are TLCTL, PWRWT and QCTL. -/
theorem mregReset_zero (n : Nat) (h : numFam n ≠ 0x06 ∧ numFam n ≠ 0x14 ∧ numFam n ≠ 0x22) : mregReset n = 0 := by
  obtain ⟨htl, hpw, hq⟩ := h
  unfold mregReset
  split
  · contradiction
  · contradiction
  · contradiction
  · rfl

/-- After reset no management register has been written. -/
theorem mget_reset (n : Nat) : mget State.reset n = mregReset n := rfl

theorem shelfReg_reset_pwrwt (k t : Nat) (ht : t < 2 ^ 20) : shelfReg State.reset k 0x14 t = 1 :=
  (mget_reset _).trans (mregReset_pwrwt _ (numFam_mnum k 0x14 t (by decide) ht))

theorem shelfReg_reset_qctl (k i : Nat) (hi : i < 2 ^ 20) : shelfReg State.reset k 0x22 i = 0x100000 :=
  (mget_reset _).trans (mregReset_qctl _ (numFam_mnum k 0x22 i (by decide) hi))

theorem shelfReg_reset_zero (k fam idx : Nat) (hf : fam < 2 ^ 8) (hi : idx < 2 ^ 20) (h : fam ≠ 0x06 ∧ fam ≠ 0x14 ∧ fam ≠ 0x22) :
    shelfReg State.reset k fam idx = 0 :=
  (mget_reset _).trans (mregReset_zero _ (by rwa [numFam_mnum k fam idx hf hi]))

end Sys2Proof.Machine
end

section
/-! The obligations on the register events and on the module after reset. -/

namespace Sys2Proof.Settled
open Sys2Proof.Machine

/-- Settles O59: each event is its register's effect; a reset's completion removes what is the tenant's, and its record brings none back. -/
theorem registerEvents : Obligations.RegisterEvents := by
  refine ⟨eqidxCidxWrite_within, eqidxCidxWrite_beyond, eqctlClr_clears, fun t s => ⟨?again, ?begin⟩,
    ?complete, ?effect, ?plain, ?unnamed, fun v s => ⟨rfl, rfl⟩⟩
  case again =>
    intro h
    rw [tenantReset_next, if_pos h]
  case begin =>
    intro h
    rw [tenantReset_next, if_neg (ne_true_of_eq_false h)]
  case complete =>
    intro t s hr hc hm
    have hgone := resetFinish_gone s t
    exact ⟨_, congrArg Host.Outcome.next (resetComplete_ready s t hr hc hm), hgone.ctxs, hgone.watches, hgone.tlb⟩
  case effect =>
    intro num v s t hn ht
    rw [registerWrite_number num v s hn, ht, Option.getD_some]
  case plain =>
    intro num v s hn hp
    rw [registerWrite_number num v s hn, regWrite_plain s num v hp, Option.getD_some]
  case unnamed =>
    intro num v s hn hok
    rw [registerWrite_number num v s hn, regWrite_none s num v hok, Option.getD_none]

/-- Settles O60: nothing of the state is set but the flash, so every register reads its reset value. -/
theorem moduleAfterReset : Obligations.ModuleAfterReset := by
  refine ⟨rfl, rfl, rfl, rfl, rfl, rfl, rfl, rfl, rfl, rfl, rfl, fun i hi => ?queue, fun t ht => ?tenant⟩
  case queue =>
    have hi : i < 2 ^ 20 := by omega
    exact ⟨shelfReg_reset_zero 0 0x20 i (by decide) hi (by decide), shelfReg_reset_zero 0 0x21 i (by decide) hi (by decide),
      shelfReg_reset_qctl 0 i hi, shelfReg_reset_zero 0 0x23 i (by decide) hi (by decide)⟩
  case tenant =>
    have ht : t < 2 ^ 20 := by omega
    exact ⟨shelfReg_reset_pwrwt 0 t ht, shelfReg_reset_pwrwt 1 t ht, shelfReg_reset_zero 0 0x11 t (by decide) ht (by decide),
      shelfReg_reset_zero 0 0x26 t (by decide) ht (by decide)⟩

end Sys2Proof.Settled
end

section
/-! SUPPORT. Where a pool address leads (R32); the accesses of LDS, LDSM, STS and TOWN that fail in their one lane or pass every check
in the executing core's own pool (R175 to R177, R199). -/

namespace Sys2Proof.Machine

/-! The member that a pool address names (R32). -/

theorem memberCore_none (s : State) (w : Warp) (c : Cluster) (m : Nat) (hc : clusterOf s w = some c)
    (h : m = 12 ∨ m = 13 ∨ m = 15 ∨ (m < 12 ∧ c.cores.length ≤ m)) : memberCore s w m = none := by
  unfold memberCore
  split
  · omega
  split
  · rfl
  · have hm : c.cores.length ≤ m := by omega
    simpa [hc] using hm

theorem memberCore_self (s : State) (w : Warp) : memberCore s w 14 = some w.core := rfl

theorem memberCore_index (s : State) (w : Warp) (c : Cluster) (m : Nat) (hc : clusterOf s w = some c) (hm : m < 12) :
    memberCore s w m = c.cores[m]? := by
  unfold memberCore
  rw [if_neg (by omega), if_neg (by omega), hc, Option.bind_some]

theorem poolAt_noMember (s : State) (w : Warp) (a n : Nat) (ha : bitsN a 31 24 = 0) (hm : memberCore s w (bitsN a 23 20) = none) :
    poolAt s w a n = .error 3 := by
  simp [poolAt, ha, hm]

/-- The core of a pool address is the one that its member index names. -/
theorem memberCore_of_poolAt (s : State) (w : Warp) (a n core o : Nat) (h : poolAt s w a n = .ok (core, o)) :
    memberCore s w (bitsN a 23 20) = some core := by
  unfold poolAt at h
  dsimp only at h
  split at h
  · cases h
  split at h
  · cases h
  next k hk =>
    split at h
    · cases h
    split at h
    · cases h
    · cases h
      exact hk

/-! Accesses that fail in their one lane. -/

theorem firstLane_one (l : Nat) (f : Nat → Option LaneBad) (b : LaneBad) (h : f l = some b) : firstLane [l] f = some (l, b) := by
  simp [firstLane, h]

/-- An aligned pool address that leads nowhere is out of bounds (R176). -/
theorem poolCheck_error (s : State) (w : Warp) (a n k : Nat) (owner : Bool) (ha : a % n = 0) (h : poolAt s w a n = .error k) :
    poolCheck s w a n n owner = some ⟨0x20, k, dw a, 2⟩ := by
  simp [poolCheck, ha, h]

theorem poolReadCheck_error (s : State) (w : Warp) (a n k : Nat) (ha : a % n = 0) (h : poolAt s w a n = .error k) :
    poolReadCheck s w a n n = some ⟨0x20, k, dw a, 2⟩ := by
  rw [poolReadCheck, poolCheck_error s w a n k true ha h, Option.some_or]

theorem loadDo_oneLaneBad (n : Nat) (it : Item) (s : State) (w : Warp) (r : Run) (l : Nat) (b : LaneBad)
    (hl : lanesOf (activeLanes w r it) = [l]) (h : poolReadCheck s w (poolAddr s w r.arrived it l) n n = some b) :
    loadDo false n n it s w r = laneFault s r.arrived it l b := by
  have hl : lanesOf (activeLanes w r.arrived it) = [l] := hl
  simp only [loadDo, hl]
  rw [firstLane_one l _ b (by rw [h, Option.some_or])]

theorem stsDo_oneLaneBad (it : Item) (s : State) (w : Warp) (r : Run) (l : Nat) (b : LaneBad)
    (hl : lanesOf (activeLanes w r it) = [l])
    (h : poolCheck s w (poolAddr s w r.arrived it l) (accBytes it (ldsQ it)) (accBytes it (ldsQ it)) true = some b) :
    stsDo false it s w r = laneFault s r.arrived it l b := by
  have hl : lanesOf (activeLanes w r.arrived it) = [l] := hl
  simp only [stsDo, hl]
  rw [firstLane_one l _ b h]

/-! Accesses that pass every check, in the executing core's own pool. -/

/-- An access that stays in the executing core performs at once, whatever data watch it has met. -/
theorem overCauseway_own (cores : List Nat) (s : State) (r : Run) (k : Unit → State) (met : Bool) (h : goesOut s s.cur cores = false) :
    overCauseway false cores s r k met = k () := by
  simp [overCauseway, h]

theorem struckBad_none (r : Run) (l low a : Nat) (h : r.struck = false) : struckBad r l low a = none := by
  simp [struckBad, h]

theorem loadCompletes_of_issue (i : Instr) (it : Item) (sp : Spec) (n align : Nat)
    (h : ∀ s, exec i s = issue it (fun _ _ _ => sp) s (loadDo false n align it)) : loadCompletes i it sp n align := by
  intro s r hr act addr hstruck hchk hgo
  rw [h s, issue_ready it (fun _ _ _ => sp) s _ r hr]
  refine congrArg Host.Outcome.next ?_
  unfold loadDo
  extract_lets
  rw [firstLane_none]
  · exact overCauseway_own _ s _ _ _ hgo
  · intro l hl
    rw [struckBad_none _ _ _ _ hstruck, Option.or_none]
    exact hchk l hl

theorem storeCompletes_of_issue (i : Instr) (it : Item)
    (h : ∀ s, exec i s = issue it (fun _ _ _ => ldsNeeds it) s (stsDo false it)) :
    storeCompletes i it (ldsNeeds it) (accBytes it (ldsQ it)) := by
  intro s r hr act addr hstruck hchk hgo
  rw [h s, issue_ready it (fun _ _ _ => ldsNeeds it) s _ r hr]
  refine congrArg Host.Outcome.next ?_
  unfold stsDo
  rw [hstruck]
  extract_lets
  rw [firstLane_none]
  · exact overCauseway_own _ s _ _ _ hgo
  · exact hchk

theorem town_completes (f : Long) : townCompletes (.town f) (longItem 0x145 false f) := by
  intro s r hr q act addr hchk hgo count
  refine (issue_ready _ (fun _ _ _ => _) s (townDo false _) r hr).trans (congrArg Host.Outcome.next ?_)
  unfold townDo
  extract_lets
  rw [firstLane_none]
  · exact overCauseway_own _ s _ _ _ hgo
  · exact hchk

end Sys2Proof.Machine
end

section
/-! SUPPORT. The issue of engine commands (R188, R189): each step where it finds nothing wrong, the command that starts, and that a command
that starts is its instruction's. -/

namespace Sys2Proof.Machine

/-! Steps that find nothing wrong. -/

/-- A step that has its result leaves the outcome to the steps that follow. -/
theorem issued_bind {α : Type} {s0 s : State} {x : Iss α} {a : α} {f : α → State → Iss State} (h : x = .ok a s) :
    issued s0 (x.bind f) = issued s0 (f a s) := by
  rw [h, Iss.bind_ok]

theorem issCheck_ok {s : State} {r : Run} {it : Item} {b : Option LaneBad} (h : b = none) : issCheck s r it b = .ok () s := by
  rw [h, issCheck_none]

/-- Checks that all find nothing. -/
theorem issCheck_firstOf {s : State} {r : Run} {it : Item} {l : List (Option LaneBad)} (h : ∀ x ∈ l, x = none) :
    issCheck s r it (firstOf l) = .ok () s :=
  issCheck_ok (firstOf_none l h)

theorem sharedBad_none (s : State) (w : Warp) (sub : Nat) {l : List (Nat × Nat)} (h : l = []) : sharedBad s w sub l = none := by
  rw [h]
  rfl

theorem readRecord_ok {s : State} {r : Run} {it : Item} {prm : Bool} {a : Nat} {ws : List DWord} (h : RecordAt s prm a ws) :
    readRecord s s.cur r it prm a = .ok ws s := by
  unfold RecordAt at h
  unfold readRecord
  split at h
  next hprm =>
    obtain ⟨halign, hsize, hws⟩ := h
    rw [if_pos hprm, if_neg (not_not.mpr halign), if_neg (Nat.not_lt.mpr hsize), hws]
  next hprm =>
    obtain ⟨hchk, hws⟩ := h
    rw [if_neg hprm, hchk, hws]
    rfl

theorem readTensor_ok {s : State} {r : Run} {it : Item} {prm global pool rb : Bool} {a : Nat} {t : Tensor}
    (h : TensorAt s prm global pool rb a t) : readTensor s s.cur r it prm global pool rb a = .ok t s := by
  obtain ⟨ws, hrec, hbad, rfl⟩ := h
  rw [readTensor, readRecord_ok hrec, Iss.bind_ok, hbad]

theorem readAtOrigin_ok {s : State} {r : Run} {it : Item} {prm global pool rb : Bool} {a : Nat} {t : Tensor}
    (h : TensorAt s prm global pool rb a t) (ho : OriginAt s it t) : readAtOrigin s s.cur r it prm global pool rb a = .ok t s := by
  rw [readAtOrigin, readTensor_ok h, Iss.bind_ok, show sRegsBad s s.cur _ _ _ = [] from ho, firstBad_nil]

/-- A box whose format its page fixes, with nothing wrong with its graph or itself. -/
theorem fixBox_ok {s u : State} {w : Warp} {r : Run} {it : Item} {c : Cmd} {addr : Nat} {f : PageFmt}
    (hf : fixFormat s w r it c c.live = .ok f u) (hg : graphBad (underPage c f) = none)
    (hb : boxBad (underPage c f) (underPage c f).live = none) : fixBox s w r it c addr = .ok (underPage c f, f.cbi) u := by
  unfold underPage at hg hb
  simp [fixBox, hf, hg, hb, underPage]

/-! The command that starts. -/

/-- A command that finds room starts as soon as its codebooks are read. -/
theorem startCmd_room {s0 u u2 : State} {r : Run} {it : Item} {c e : Cmd} {at0 : Cmd → State → State} {reads : Cmd → State → Iss Cmd}
    (hroom : Room u c.tiles) (hreads : reads c u = .ok e u2) :
    issued s0 (startCmd u r it c at0 reads) = underWay u.cur u2 r it e (at0 e) := by
  obtain ⟨hfull, hbefore, htransit⟩ := hroom
  simp only [startCmd, hfull, hbefore, htransit, Bool.or_false, Bool.false_eq_true, if_false, hreads, Iss.bind_ok, underWay]
  split
  · rfl
  · rfl

/-- An engine instruction that may issue, whose guard holds and whose counter has room, does what its steps answer. -/
theorem issue_onceDo {i : Instr} {it : Item} {sp : State → Warp → Item → Spec} {steps : State → Warp → Run → Item → Iss State}
    (hi : ∀ s, exec i s = issue it (fun s w _ => sp s w it) s (onceDo steps it)) {s : State} {r : Run}
    (hr : Ready s r it (sp s s.cur it)) (hg : guardU s.cur it = true) (hd : dcFull s.cur it.dc = false) :
    exec i s = .next (issued s (steps s s.cur r it)) := by
  rw [hi s, issue_ready it (fun s w _ => sp s w it) s _ r hr]
  simp [onceDo, hg, hd]

/-! What a started command is. -/

/-- Every result of a step is as `P` says. -/
def Iss.Gives {α : Type} (P : α → Prop) (x : Iss α) : Prop := ∀ a s, x = .ok a s → P a

theorem Iss.Gives.bind {α β : Type} {Q : α → Prop} {P : β → Prop} {x : Iss α} {f : α → State → Iss β} (hx : x.Gives Q)
    (hf : ∀ a s, Q a → (f a s).Gives P) : (x.bind f).Gives P := by
  cases x with
  | ok a s => exact hf a s (hx a s rfl)
  | hold => exact fun _ _ h => nomatch h
  | stay s => exact fun _ _ h => nomatch h
  | fault s => exact fun _ _ h => nomatch h

/-- A step whose result says nothing of the command. -/
theorem Iss.Gives.step {α β : Type} {P : β → Prop} {x : Iss α} {f : α → State → Iss β} (hf : ∀ a s, (f a s).Gives P) :
    (x.bind f).Gives P :=
  Iss.Gives.bind (Q := fun _ => True) (fun _ _ _ => trivial) fun a s _ => hf a s

theorem Iss.Gives.ok {α : Type} {P : α → Prop} {a : α} {s : State} (h : P a) : (Iss.ok a s).Gives P := by
  intro b t hb
  cases hb
  exact h

theorem Iss.Gives.fault {α : Type} {P : α → Prop} {s : State} : (Iss.fault s).Gives P := fun _ _ h => nomatch h

/-- A command that may be held in its place. -/
theorem Iss.Gives.unlessHeld {α : Type} {P : α → Prop} {b : Bool} {x : Iss α} (h : x.Gives P) : (if b then Iss.hold else x).Gives P := by
  cases b
  · exact h
  · exact fun _ _ h => nomatch h

/-- A command with what its warp and instruction give it at issue. -/
def Cmd.IssuedBy (w : Warp) (r : Run) (it : Item) (kind : CmdKind) (c : Cmd) : Prop :=
  c.kind = kind ∧ c.warp = w.uid ∧ c.core = w.core ∧ c.lanes = r.grp ∧ c.insn = it.raw

theorem newCmd_issuedBy (w : Warp) (r : Run) (it : Item) (kind : CmdKind) : (newCmd w r it kind).IssuedBy w r it kind :=
  ⟨rfl, rfl, rfl, rfl, rfl⟩

variable {w : Warp} {r : Run} {it : Item} {kind : CmdKind}

theorem fixBox_issuedBy {s : State} {v : Warp} {c : Cmd} {addr : Nat} (h : c.IssuedBy w r it kind) :
    (fixBox s v r it c addr).Gives fun e => e.1.IssuedBy w r it kind :=
  .step fun _ _ => .step fun _ _ => .step fun _ _ => .step fun _ _ => .ok h

theorem graphBooks_issuedBy {cbi : Nat} {c : Cmd} {s : State} (h : c.IssuedBy w r it kind) :
    (graphBooks r it cbi c s).Gives (Cmd.IssuedBy w r it kind) :=
  .step fun _ _ => .step fun _ _ => .ok h

theorem columnBooks_issuedBy {cbi : Nat} {c : Cmd} {s : State} (h : c.IssuedBy w r it kind) :
    (columnBooks r it cbi c s).Gives (Cmd.IssuedBy w r it kind) :=
  .step fun _ _ => .step fun _ _ => .ok h

/-- A command that starts is the one it was made as, its codebooks read. -/
theorem startCmd_started {s : State} {c : Cmd} {at0 : Cmd → State → State} {reads : Cmd → State → Iss Cmd}
    (hreads : ∀ u, (reads c u).Gives (Cmd.IssuedBy w r it kind)) : (startCmd s r it c at0 reads).Gives (Started kind w r it) := by
  unfold startCmd
  extract_lets v
  split
  · exact fun _ _ h => nomatch h
  refine .unlessHeld (.bind (hreads s) fun e u he => ?_)
  obtain ⟨hkind, hwarp, hcore, hlanes, hinsn⟩ := he
  dsimp only
  split
  next hunits => exact .ok ⟨_, e, hkind, hwarp, hcore, hlanes, hinsn, .inl ⟨hunits, rfl⟩⟩
  next hunits =>
    let x := takeId (at0 e (unhold u v.uid))
    exact .ok ⟨x.2, { e with floor := v.seen, saving := (clusterOf x.2 v).any fun k => k.saving.isSome }, hkind, hwarp, hcore, hlanes,
      hinsn, .inr ⟨x.1, hunits, rfl⟩⟩

theorem tcopySteps_started (s : State) : (tcopySteps s w r it).Gives (Started .tcopy w r it) := by
  unfold tcopySteps
  refine .step fun t _ => .step fun _ _ => .step fun ⟨its, tab⟩ _ => .bind (fixBox_issuedBy (newCmd_issuedBy w r it _)) fun ⟨c, _⟩ _ hc => ?_
  exact .step fun _ _ => .step fun _ _ => .step fun _ _ => .unlessHeld (startCmd_started fun _ => graphBooks_issuedBy hc)

theorem tstoreSteps_started (s : State) : (tstoreSteps s w r it).Gives (Started .tstore w r it) := by
  unfold tstoreSteps
  refine .step fun t _ => .step fun _ _ => .bind (fixBox_issuedBy (newCmd_issuedBy w r it _)) fun ⟨c, _⟩ _ hc => ?_
  exact .step fun _ _ => .step fun _ _ => .unlessHeld (startCmd_started fun _ => graphBooks_issuedBy hc)

theorem pcopyRSteps_started (s : State) : (pcopyRSteps s w r it).Gives (Started .pcopyR w r it) := by
  unfold pcopyRSteps
  refine .step fun t _ => .step fun _ _ => .bind (fixBox_issuedBy (newCmd_issuedBy w r it _)) fun ⟨c, _⟩ _ hc => ?_
  exact .step fun _ _ => .step fun _ _ => .step fun _ _ => startCmd_started fun _ => .ok hc

theorem bloadSteps_started (s : State) : (bloadSteps s w r it).Gives (Started .bload w r it) := by
  unfold bloadSteps
  refine .step fun t _ => .step fun _ _ => .bind (fixBox_issuedBy (newCmd_issuedBy w r it _)) fun ⟨c, _⟩ _ hc => ?_
  exact .step fun _ _ => .step fun _ _ => .unlessHeld (startCmd_started fun _ => columnBooks_issuedBy hc)

theorem rowSteps_started (s : State) : (rowSteps kind s w r it).Gives (Started kind w r it) := by
  unfold rowSteps
  exact .step fun _ _ => .step fun _ _ => .step fun _ _ => .step fun _ _ =>
    .unlessHeld (startCmd_started fun _ => .ok (newCmd_issuedBy w r it kind))

theorem qpostSteps_started (s : State) : (qpostSteps s w r it).Gives (Started .qpost w r it) := by
  unfold qpostSteps
  refine .step fun ws _ => ?_
  dsimp only
  split
  · exact .fault
  split
  · exact .fault
  exact .step fun _ _ => .step fun _ _ => .step fun _ _ => .step fun _ _ => .step fun _ _ =>
    .unlessHeld (startCmd_started fun _ => .step fun _ _ => .ok (newCmd_issuedBy w r it .qpost))

/-- An engine instruction whose steps give a command of its kind starts one. -/
theorem commandStarts_of_issue {i : Instr} {sp : State → Warp → Item → Spec} {steps : State → Warp → Run → Item → Iss State}
    (hi : ∀ s, exec i s = issue it (fun s w _ => sp s w it) s (onceDo steps it))
    (h : ∀ s w r, (steps s w r it).Gives (Started kind w r it)) : commandStarts i it sp steps kind := by
  intro s r t u hr hg hd hsteps
  refine ⟨?_, h s s.cur r t u hsteps⟩
  rw [issue_onceDo hi hr hg hd, hsteps]
  rfl

end Sys2Proof.Machine
end

section
/-! SUPPORT. The engine commands whose issue steps find nothing wrong (R193 to R196, R252, R267): step after step to the command that is
under way. -/

namespace Sys2Proof.Machine

/-- The command's own address and its barrier object's, both aligned. -/
theorem align16_pair {a b fa fb : Nat} (ha : a % 16 = 0) (hb : b % 16 = 0) : ∀ x ∈ [align16 a fa, align16 b fb], x = none := by
  simp [align16_ok a fa ha, align16_ok b fb hb]

/-- A command that no page of its box keeps back goes on. -/
theorem issued_unheld {s : State} {b : Bool} {x : Iss State} (h : b = false) : issued s (if b then .hold else x) = issued s x := by
  rw [h]
  rfl

theorem tcopy_completes (f : Long) : tcopyCompletes (.tcopy f) (longItem 0x140 true f) := by
  intro s r t its tab fmt u e' u2 a b ctl bar mems high off hr hg hd htens horg ha hbar hmask c htab hfix k hgraph hbox hpack hshared
    hbars hlogged e hroom hbooks
  rw [issue_onceDo (fun _ => rfl) hr hg hd]
  refine congrArg Host.Outcome.next ?_
  have haligned : ∀ x ∈ [align16 a 2, align16 bar 2, if ctlMask ctl / 2 ^ ((clusterOf s s.cur).map (·.cores.length)).getD 0 ≠ 0 then
      some (⟨0x20, 4, dw a, 2⟩ : LaneBad) else none], x = none := by
    simp [align16_ok _ _ ha, align16_ok _ _ hbar, hmask]
  unfold tcopySteps
  refine (issued_bind (readAtOrigin_ok htens horg)).trans ?_
  refine (issued_bind (issCheck_firstOf haligned)).trans ?_
  refine (issued_bind htab).trans ?_
  refine (issued_bind (fixBox_ok hfix hgraph hbox)).trans ?_
  refine (issued_bind (issCheck_firstOf (List.forall_mem_map.mpr hpack))).trans ?_
  refine (issued_bind (issCheck_ok (sharedBad_none _ _ _ hshared))).trans ?_
  refine (issued_bind (issCheck_firstOf (List.forall_mem_map.mpr hbars))).trans ?_
  refine (issued_unheld hlogged).trans ?_
  exact startCmd_room hroom hbooks

theorem tstore_completes (f : Long) : tstoreCompletes (.tstore f) (longItem 0x141 true f) := by
  intro s r t fmt u e' u2 a b ctl bar off hr hg hd htens horg ha hbar c hfix k hgraph hbox hpack hbars hlogged e hroom hbooks
  rw [issue_onceDo (fun _ => rfl) hr hg hd]
  refine congrArg Host.Outcome.next ?_
  unfold tstoreSteps
  refine (issued_bind (readAtOrigin_ok htens horg)).trans ?_
  refine (issued_bind (issCheck_firstOf (align16_pair ha hbar))).trans ?_
  refine (issued_bind (fixBox_ok hfix hgraph hbox)).trans ?_
  refine (issued_bind (issCheck_ok hpack)).trans ?_
  refine (issued_bind (issCheck_ok hbars)).trans ?_
  refine (issued_unheld hlogged).trans ?_
  exact startCmd_room hroom hbooks

theorem pcopyR_completes (f : Long) : pcopyRCompletes (.pcopyR f) (longItem 0x142 true f) := by
  intro s r t fmt u a b ctl bar off hr hg hd htens horg ha hbar c hfix k hgraph hbox hpack hspan hshared hbars e hroom
  rw [issue_onceDo (fun _ => rfl) hr hg hd]
  refine congrArg Host.Outcome.next ?_
  have hinside : ∀ x ∈ [packBad u s.cur k (a - off) off, boxSpanBad u s.cur k], x = none := by simp [hpack, hspan]
  unfold pcopyRSteps
  refine (issued_bind (readAtOrigin_ok htens horg)).trans ?_
  refine (issued_bind (issCheck_firstOf (align16_pair ha hbar))).trans ?_
  refine (issued_bind (fixBox_ok hfix hgraph hbox)).trans ?_
  refine (issued_bind (issCheck_firstOf hinside)).trans ?_
  refine (issued_bind (issCheck_ok (sharedBad_none _ _ _ hshared))).trans ?_
  refine (issued_bind (issCheck_ok hbars)).trans ?_
  exact startCmd_room hroom rfl

theorem bload_completes (f : Long) : bloadCompletes (.bload f) (longItem 0x143 true f) := by
  intro s r t fmt u e' u1 a b ctl bar hr hg hd htens horg ha hbar c hfix k tiles hgraph hbox hcols hspan hbars hlogged e hroom hbooks
  rw [issue_onceDo (fun _ => rfl) hr hg hd]
  refine congrArg Host.Outcome.next ?_
  have hinside : ∀ x ∈ [columnBad u s.cur a (bitsN a 21 16) (t.dims.getD 1 1) (a % 65536) k.columnBytes,
      if t.space then boxSpanBad u s.cur k else none], x = none := by
    simp only [List.mem_cons, List.not_mem_nil, or_false, forall_eq_or_imp, forall_eq]
    exact ⟨hcols, ite_eq_right_iff.mpr hspan⟩
  unfold bloadSteps
  refine (issued_bind (readAtOrigin_ok htens horg)).trans ?_
  refine (issued_bind (issCheck_firstOf (align16_pair ha hbar))).trans ?_
  refine (issued_bind (fixBox_ok hfix hgraph hbox)).trans ?_
  refine (issued_bind (issCheck_firstOf hinside)).trans ?_
  refine (issued_bind (issCheck_ok hbars)).trans ?_
  refine (issued_unheld hlogged).trans ?_
  exact startCmd_room hroom hbooks

theorem rowCommand_completes (cp : Bool) (i : Instr) (it : Item)
    (hi : ∀ s, exec i s = issue it (fun s w _ => rowNeeds cp s w it) s (onceDo (rowSteps (if cp then .rowcp else .rowzf)) it)) :
    rowCompletes cp i it := by
  intro s r pa u pb u1 a b ctl raise hr hg hd hframes hbar hpa hpb hapart hbars hla hlb e hroom
  rw [issue_onceDo hi hr hg hd]
  refine congrArg Host.Outcome.next ?_
  have hkind : ((if cp then CmdKind.rowcp else .rowzf) == .rowcp) = cp := by cases cp <;> rfl
  have hends : ∀ x ∈ [framesBad (if cp then [a, b] else [a]), align16 (ctlBar ctl) 2], x = none := by
    simp [hframes, align16_ok _ _ hbar]
  have hoverlap : (cp && (a == b || (pa.isSome && pa == pb))) = false := by
    cases cp with
    | false => rfl
    | true =>
      obtain ⟨hab, hpab⟩ := hapart rfl
      simpa [hab] using hpab
  have hbars : ∀ x ∈ [if cp && (a == b || (pa.isSome && pa == pb)) then some (⟨0x08, 5, dw a, 1⟩ : LaneBad) else none,
      barBad u1 s.cur 14 (ctlBar ctl) []], x = none := by
    simp [hoverlap, hbars]
  have hlogged : (pageLogged s.cur a || (cp && pageLogged s.cur b)) = false := by
    cases cp with
    | false => simpa using hla
    | true => simp [hla, hlb rfl]
  unfold rowSteps
  rw [hkind]
  refine (issued_bind (issCheck_firstOf hends)).trans ?_
  refine (issued_bind hpa).trans ?_
  refine (issued_bind hpb).trans ?_
  refine (issued_bind (issCheck_firstOf hbars)).trans ?_
  refine (issued_unheld hlogged).trans ?_
  exact startCmd_room hroom rfl

theorem qpost_completes (f : Long) : qpostCompletes (.qpost f) (longItem 0x162 true f) := by
  intro s r ws u l u1 a b n rec_ first len ctl bar hd frames size pb pa tiles hr hg hdc hrec hkv hlen htok hframes ha hb hbar hqb hqa
    hshared hbars hwin hpoison hlogged e hroom hbooks
  rw [issue_onceDo (fun _ => rfl) hr hg hdc]
  refine congrArg Host.Outcome.next ?_
  have hends : ∀ x ∈ [align16 b 2, align16 a 2, align16 bar 2, spanBad s s.cur b 0 (4 * hd), spanBad s s.cur a 0 size], x = none := by
    simp [align16_ok _ _ ha, align16_ok _ _ hb, align16_ok _ _ hbar, hqb, hqa]
  have hlimit : (if len = 0 then some 0 else if kvTok ws < first + len then some len else if 16 < frames then some frames else none) =
      none := by
    rw [if_neg hlen, if_neg (by omega), if_neg (by omega)]
  have hlogged : ((List.range frames).any fun i => pageLogged s.cur (kvFrameVa ws first i)) = false := by
    simpa using hlogged
  unfold qpostSteps
  refine (issued_bind (readRecord_ok hrec)).trans ?_
  dsimp only
  rw [hkv]
  dsimp only
  rw [hlimit]
  refine (issued_bind (issCheck_firstOf hends)).trans ?_
  refine (issued_bind (issCheck_ok (sharedBad_none _ _ _ hshared))).trans ?_
  refine (issued_bind (issCheck_ok hbars)).trans ?_
  refine (issued_bind hwin).trans ?_
  refine (issued_bind (issCheck_ok (if_neg (ne_true_of_eq_false hpoison)))).trans ?_
  refine (issued_unheld hlogged).trans ?_
  refine startCmd_room hroom ?_
  rw [hbooks, Iss.bind_ok]

end Sys2Proof.Machine
end

section
/-! SUPPORT. COMPRESS where a lane keeps its destination's value (R173, log entry 146): its capture reads that register, so that its lost
parity stops the group (R383), which the row of COMPRESS does not ask about. -/

namespace Sys2Proof.Machine

/-- COMPRESS.b32 v8 = v4 by p0, without a count and without zeros. -/
def compressKeeping : Long :=
  { md := 0x400, gn := false, gp := 7, c := 0x1C0, b := 0, a := 4, nowb := false, dst := 8, lit := none }

/-- A warp at that instruction: p0 is false in every lane, so that every lane keeps v8, and v8 is lost in lane 0. -/
def keptLost : State :=
  let s := State.reset.withFetchWord 64 (longItem 0x0E8 false compressKeeping).raw.toNat
  { s with cur := { s.cur with parity := [(0, 8, 0)] } }

/-- Its clause. -/
def keptRun : Run := fetchRun [0x008083A1, 0x4007E000]

/-- The row of COMPRESS for it; no short form enters it. -/
def keptRow : Row := (laneRows compressKeeping ⟨0, 0, 0⟩)[13]'(by decide)

theorem keptRow_mem : keptRow ∈ warpRows compressKeeping ⟨0, 0, 0⟩ := List.mem_append_left _ (List.getElem_mem _)

theorem keptRow_ready : Ready keptLost keptRun keptRow.it (keptRow.sp keptLost keptLost.cur keptRun) :=
  ⟨by decide +kernel, by decide +kernel, by decide +kernel, by decide +kernel, by decide +kernel, by decide +kernel, by decide +kernel⟩

/-- Whether an outcome has stopped the focused warp with a trap. -/
def stopsWarp (o : Out) : Bool :=
  match o with
  | .next t => t.cur.trap.isSome
  | _ => false

/-- What COMPRESS itself requires: the lanes that keep their destination read it. -/
def compressNeeds (it : Item) (w : Warp) (r : Run) : Spec :=
  { uses := [.src .a (vtOf it.ty) accAny, .pred .b false] ++ optV it ++ [.dstV (if (vtOf it.ty).pair then 2 else 1)]
    bads := packBads it, capt := true, wide := true, keeps := packKeeps compressFrom it w r }

/-- What it does where nothing stops it. -/
def compressDo (it : Item) (s : State) (w : Warp) (r : Run) : State :=
  vecResultThen s r it (vtOf it.ty).pair (packVal compressFrom it s w r) fun w' =>
    putOptV w' (activeLanes w r it) it fun l => (selected w r it l).length

theorem exec_compress (f : Long) (s : State) : exec (.compress f) s =
    issue (longItem 0x0E8 false f) (fun _ w r => compressNeeds (longItem 0x0E8 false f) w r) s (compressDo (longItem 0x0E8 false f)) := rfl

theorem compress_traps : exec (.compress compressKeeping) keptLost = .next (parityTrap keptLost keptRun (0, 8)) := by
  rw [exec_compress]
  refine issue_lost _ _ keptLost _ keptRun (0, 8) rfl rfl
    (by decide +kernel) (by decide +kernel) (by decide +kernel) fun b hb => ?_
  have hpass : firstBad (specBads keptLost keptLost.cur keptRun (longItem 0x0E8 false compressKeeping)
      (compressNeeds (longItem 0x0E8 false compressKeeping) keptLost.cur keptRun)) = none := by decide +kernel
  exact nomatch hpass.symm.trans hb

theorem compress_stops : stopsWarp (exec (.compress compressKeeping) keptLost) = true := by
  rw [compress_traps]
  decide +kernel

theorem keptRow_effect_goesOn : stopsWarp (.next (keptRow.eff keptLost keptLost.cur keptRun)) = false := by decide +kernel

end Sys2Proof.Machine
end

section
/-! SUPPORT. What the events of the issue slot do where they are enabled (R21 to R23, R105, R107, R284, R312). -/

namespace Sys2Proof.Machine

/-! CLAUSE_ISSUE. -/

/-- With the slot granted the warp in it runs its selected position. -/
theorem clauseIssue_granted {c q n : Nat} {s v : State} {w : Warp} (hv : settle c q (dueStops c q n s) = v)
    (hat : warpAt v c q n = some w) (hid : w.uid ≠ 0) (hmay : mayIssue v w = true) (hturn : itsTurn v w = true) :
    clauseIssue c q n s = runSlot (focus v w.uid) := by
  simp [clauseIssue, hv, hat, hid, hmay, hturn]

theorem runSlot_paused {u : State} {pc : DWord} {r : Run} (hpc : selectPc u.cur = some pc) (hr : pausedAt u.cur pc = some r) :
    runSlot u = goOnPaused u u.cur r := by
  simp [runSlot, hpc, hr]

theorem runSlot_begins {u t : State} {pc hdr : DWord} {body : List Word} (hpc : selectPc u.cur = some pc)
    (hr : pausedAt u.cur pc = none) (hfetch : fetchClause u u.cur.core (tenantOf u u.cur) pc.toNat = (.clause hdr body, t))
    (hwait : waitHolds u.cur hdr = false) (hfree : clauseBlocked t u.cur (groupAt u.cur pc) (splitItems 16 body) = false) :
    runSlot u = beginClause t u.cur pc (groupAt u.cur pc) hdr body := by
  simp [runSlot, hpc, hr, hfetch, hwait, hfree]

/-! RCV_HOLD_EXPIRY. -/

/-- Writing one value at several keys: what one of them reads. -/
theorem nget_foldl_nset {α : Type} [DecidableEq α] (d x : α) (ls : List Nat) (m : NMap α) (k : Nat) (h : k ∈ ls ∨ nget d m k = x) :
    nget d (ls.foldl (fun m l => nset d m l x) m) k = x := by
  induction ls generalizing m with
  | nil => simpa using h
  | cons l ls ih =>
    refine ih (nset d m l x) ?_
    rw [nget_nset]
    rcases h with h | h
    · rcases List.mem_cons.mp h with rfl | h
      · exact .inr (if_pos rfl)
      · exact .inl h
    · exact .inr (by rw [h, ite_self])

/-- A lane that has been held for 32 slots is held no more. -/
theorem heldLane_expired (w : Warp) (l : Nat) (h : 32 ≤ nget 0 w.heldFor l) : heldLane w l = false := by
  unfold heldLane
  split
  · rfl
  · simp [Nat.not_lt.mpr h]

theorem holdExpiry_at {c q n : Nat} {s : State} {w : Warp} (h : warpAt s c q n = some w) :
    holdExpiry c q n s = putWarp s { w with heldFor :=
      ((lanesOf w.live).filter fun l => decide (32 ≤ nget 0 w.heldFor l)).foldl (fun m l => nset 0 m l 32) w.heldFor } := by
  simp [holdExpiry, h]

/-! AGE_SWAP and HANDLER_START. -/

theorem ageSwap_swaps {c q : Nat} {s : State} {x y : Warp}
    (hx : earliest ((quadWarps s c q).filter fun x => !x.active && clauseReady s x) = some x)
    (hy : earliest (activeWarps s c q) = some y) (hold : x.since + 2048 ≤ s.clk) (hfull : activeCap s c ≤ (activeWarps s c q).length)
    (hrun : y.run = none) : ageSwap c q s = setActive (setActive s y false) x true := by
  simp [ageSwap, hx, hy, hold, hfull, hrun]

/-- Where THREC says the record of a trap of a quadrant is written. -/
def trapRecordVa (s : State) (c q : Nat) (w : Warp) : Nat := fld (pkgReg s 0x27 (tenantOf s w)) 59 17 * 2 ^ 17 + 64 * (4 * c + q)

theorem handlerStart_starts {c q : Nat} {s u : State} {w : Warp} {t : Trap} (hfree : warpAt s c q 16 = none)
    (hwait : waitingTrap s c q = some (w, t)) (hready : stopReady s w t = true)
    (hwrite : sysWrite s (coreShelf c) (tenantOf s w) (trapRecordVa s c q w) (recordBytes t.record) = some u) :
    handlerStart c q s =
      let x := takeId u
      let v := putWarp x.2 { released t.stopped [2] x.2.order w with trap := some { t with phase := 1 } }
      { v with warps := v.warps ++ [handlerWarp v x.1 w t (dw (trapRecordVa s c q w))] } := by
  unfold trapRecordVa at hwrite ⊢
  unfold handlerStart
  rw [hfree, hwait]
  dsimp only
  rw [if_neg (by simp [hready]), hwrite]

end Sys2Proof.Machine
end

section
/-! SUPPORT. A credit on its way when its tenant is being reset: BARRIER_CREDIT drops it (R378 step 3), where the event's statement has it
perform. -/

namespace Sys2Proof.Machine

theorem barrierCredit_halted {n : Nat} {s : State} {e : Credit} (hat : s.credits[n]? = some e) (hhalt : ctxHalted s e.ctx = true) :
    exec (.barrierCredit n) s = .next { s with credits := s.credits.eraseIdx n } := by
  change Host.Outcome.next (deliverCredit n s) = _
  simp [deliverCredit, hat, hhalt]

/-- A credit of 16 bytes to the object at 0 of core 0. -/
def lateCredit : Credit := ⟨0, 0, 0, 0, 16, []⟩

/-- It is under way while tenant 0, whose launch has one warp at a NOP, is being reset: TRST.BUSY is set. -/
def creditInReset : State :=
  { pkgPut (State.reset.withFetchWord 64 0x0007000000000021) 0x26 0 2 with credits := [lateCredit] }

theorem creditInReset_halted : ctxHalted creditInReset lateCredit.ctx = true := by decide +kernel

/-- Performed, the credit would stand in the object's landed bytes. -/
theorem creditInReset_performed :
    (creditBar { creditInReset with credits := [] } ⟨0, 0⟩ 0 0 16 []).pool ≠ creditInReset.pool := by decide +kernel

end Sys2Proof.Machine
end

section
/-! SUPPORT. What the scheduler's events do where they are enabled (R41, R275 to R281, R391). -/

namespace Sys2Proof.Machine

theorem recordRead_accepts {t q : Nat} {s : State} {bs : List Byte} {h : List DWord} {gs cs : List (List DWord)}
    (hon : queueOn s (8 * t + q) = true) (hcount : queueCount s (8 * t + q) ≠ 0)
    (hview : viewBytes s t false (slotVa s (8 * t + q) (fld (pkgReg s 0x21 (8 * t + q)) 15 0)) 256 = .ok bs) :
    let x := pkgReg s 0x21 (8 * t + q)
    let slot := slotVa s (8 * t + q) (fld x 15 0)
    let r := wordsOf bs 32
    let e := takeId (pkgPut (viewFill s t slot 256) 0x21 (8 * t + q) (putFld x 15 0 (fld x 15 0 + 1)))
    checkRecord e.2 t r = .ok (h, gs, cs) →
    recordRead t q s = addDependences { e.2 with ctxs := e.2.ctxs ++
      [{ newCtx e.1 t q slot r with
        khdr := h, graphs := gs, chains := cs, psize := recPsize r, st := 0, total := recClusters r,
        deps := (List.range 4).filter (recDv r) }] } e.1 t r := by
  intro x slot r e hcheck
  unfold recordRead
  dsimp only
  rw [if_neg (by simp [hon, hcount]), hview]
  dsimp only
  rw [show checkRecord _ t _ = .ok (h, gs, cs) from hcheck]

theorem launchBegin_starts {n : Nat} {s : State} {c : Ctx} {bs : List Byte} (hat : (s.ctxs.filter fun c => c.st == 0)[n]? = some c)
    (hdeps : c.deps = []) (hturn : earlierPlaced s c = true)
    (hview : viewBytes s c.tenant false (recPaddr c.record) c.psize = .ok bs) :
    launchBegin n s =
      { putCtx (viewFill s c.tenant (recPaddr c.record) c.psize)
          { c with st := 1, param := nsetRange 0 [] 0 bs, dies := bindDies c.record } with
        starve := nset 0 s.starve (8 * c.tenant + c.queue) (s.clk + 1) } := by
  unfold launchBegin
  rw [hat]
  dsimp only
  rw [if_neg (by simp [hdeps, hturn]), hview]

theorem dependenceRetry_sends {n : Nat} {s : State} {x : Watch} {pa : Nat} {e : DWord}
    (hat : (s.watches.filter fun x => x.st == 4)[n]? = some x) (hpa : schedXlate s x.tenant x.va.toNat .read = .ok pa e) :
    dependenceRetry n s = putWatch s { x with pa := pa, st := 0, answer := 0, gen := irtBank s 0 = 1 } := by
  unfold dependenceRetry
  rw [hat]
  dsimp only
  rw [dependenceWatch, hpa]

/-! CLUSTER_GRANT (R280 to R282). -/

/-- The level that is granted at is the highest that holds a cluster to place, where no saved cluster comes before it. -/
theorem clusterGrant_level {s : State} {l : Nat} (hready : s.boot.ready = true) (htrip : s.boot.tripped = false)
    (hlevel : ([3, 2, 1, 0] : List Nat).find? (fun l => !(levelQueues s l).isEmpty || coopBlocks s l) = some l)
    (hcoop : coopBlocks s l = false) (hresume : ((resumeLevel s).any fun k => decide (l < k)) = false) :
    clusterGrant s = grantLevel s l := by
  unfold clusterGrant
  rw [if_neg (by simp [hready, htrip]), hlevel]
  dsimp only
  rw [if_neg (by simp [hcoop, hresume])]

/-- The state after a grant of queue `q` at level `l`: the pointer stands at the queue, whose wait starts again. -/
def grantedAt (t : State) (l q : Nat) : State :=
  { t with drr := nset 0 t.drr l q, starve := nset 0 t.starve q (t.clk + 1), placeable := nset 0 t.placeable q 0 }

/-- A grant at a level: the boost ends with the launch's last cluster. -/
theorem grantLevel_grants {s t : State} {l q : Nat} {c : Ctx}
    (hq : (ringFrom ((nget 0 s.drr l + drrRounds s (levelQueues s l)) % 128) (levelQueues s l)).find?
      (fun q => decide (0 < queueDef (replenish s (levelQueues s l) (drrRounds s (levelQueues s l))) q)) = some q)
    (hc : currentLaunch (replenish s (levelQueues s l) (drrRounds s (levelQueues s l))) q = some c)
    (ht : grantNext (replenish s (levelQueues s l) (drrRounds s (levelQueues s l))) c = some t) :
    grantLevel s l =
      if c.granted + 1 = c.total || recCoop c.record then
        { pkgPut (grantedAt t l q) 0x23 q (putFld (pkgReg (grantedAt t l q) 0x23 q) 63 63 0) with
          boosted := nset 0 (grantedAt t l q).boosted q 0 }
      else grantedAt t l q := by
  unfold grantLevel
  dsimp only
  rw [hq]
  dsimp only
  rw [hc]
  dsimp only
  rw [ht]
  rfl

theorem starvationBoost_boosts {t q : Nat} {s : State} (hwait : nget 0 s.placeable (8 * t + q) ≠ 0)
    (hlong : nget 0 s.placeable (8 * t + q) + Config.sclk (2 ^ 24) < s.clk + 1) (hplace : queuePlaceable s (8 * t + q) = true)
    (hnew : fbit (pkgReg s 0x23 (8 * t + q)) 63 = false) :
    starvationBoost t q s =
      { pkgPut s 0x23 (8 * t + q) (putFld (pkgReg s 0x23 (8 * t + q)) 63 63 1) with boosted := nset 0 s.boosted (8 * t + q) 0 } := by
  unfold starvationBoost
  dsimp only
  rw [if_neg]
  simp only [hplace, hnew, Bool.not_true, Bool.or_false, Bool.or_eq_true, decide_eq_true_eq, not_or, Nat.not_le]
  exact ⟨hwait, hlong⟩

/-! WARP_RETIRE (R41). -/

theorem waitingEntries_clear {s : State} {core lvl : Nat} (h : ∀ e ∈ s.staging, belowLevel core lvl e = false) :
    waitingEntries s core lvl = false := by
  unfold waitingEntries
  rw [List.any_eq_false]
  intro e he
  simp [h e he]

/-- A warp whose threads have all exited, with no access, command or staged entry left, is gone once its deferred records are
appended. -/
theorem warpRetire_retires {c q n : Nat} {s : State} {w : Warp} (hat : warpAt s c q n = some w) (hid : w.uid ≠ 0)
    (hhandler : w.handler = false) (hlive : w.live = 0) (hrun : w.run = none) (htrap : w.trap = none) (hwork : engineWork s w = false)
    (hout : outstanding s w allLanes = false) (holog : w.olog = [])
    (hstaged : ∀ e ∈ s.staging, e.txn ≠ w.uid ∧ belowLevel w.core 1 e = false) :
    let u := w.deferred.foldl (fun s d => eqAppend s (reportQueue d.1) d.1) s
    warpRetire c q n s = warpGone (dropWarp { u with products := u.products.filter fun p => p.warp != w.uid } w.uid) w := by
  have hkeep : (s.staging.filter fun e => e.txn != w.uid) = s.staging :=
    List.filter_eq_self.mpr fun e he => bne_iff_ne.mpr (hstaged e he).1
  have hlow : ∀ e ∈ s.staging, belowLevel w.core 1 e = false := fun e he => (hstaged e he).2
  unfold warpRetire
  rw [hat]
  dsimp only
  rw [if_neg (by simp [hid, hhandler, hlive, hrun, htrap, hwork, hout, holog]), hkeep, raiseEntries_clear s _ _ hlow,
    if_neg (by simp [waitingEntries_clear hlow])]

theorem launchEnd_completes {n : Nat} {s t : State} {c : Ctx} (hat : (s.ctxs.filter launchDone)[n]? = some c) :
    let u := if c.closing.isNone then publishLaunch s c else s
    launchHeld u { c with closing := (findCtx u c.id).bind (·.closing) } = false →
    bumpCounter u c.tenant (recCc c.record) = some t →
    launchEnd n s = { t with
      ctxs := t.ctxs.filter fun x => x.id != c.id
      replicas := t.replicas.filter fun x => x.ctx != c.id
      watches := t.watches.filter fun x => x.ctx != c.id } := by
  intro u hheld hbump
  unfold launchEnd
  rw [hat]
  dsimp only
  rw [if_neg (ne_true_of_eq_false hheld), show bumpCounter _ c.tenant _ = some t from hbump]

theorem widxWrite_fits {t q : Nat} {v : DWord} {s : State}
    (h : (fld v 47 32 + 2 ^ 16 - fld (pkgReg s 0x21 (8 * t + q)) 15 0) % 2 ^ 16 ≤ queueSlots s (8 * t + q)) :
    widxWrite t q v s = pkgPut s 0x21 (8 * t + q) (putFld (pkgReg s 0x21 (8 * t + q)) 47 32 (fld v 47 32)) :=
  if_neg (Nat.not_lt.mpr h)

end Sys2Proof.Machine
end

section
/-! The obligations on the execution model: pool accesses, engine commands, lane instructions, events of issue, engines and launches. -/

namespace Sys2Proof.Settled
open Sys2Proof.Machine

/-- Settles O23: the member index alone decides which core an address leads to. -/
theorem poolMemberIndex : Obligations.PoolMemberIndex := by
  refine ⟨fun s w c a n hc hlen ha _ => ⟨?none, ?self, ?index⟩, ?load, ?store⟩
  case none =>
    exact fun hm => poolAt_noMember s w a n ha (memberCore_none s w c _ hc hm)
  case self =>
    intro core o hm h
    have hcore := memberCore_of_poolAt s w a n core o h
    rw [hm, memberCore_self] at hcore
    exact (Option.some.inj hcore).symm
  case index =>
    intro core o hm h
    rw [← memberCore_index s w c _ hc (by omega)]
    exact memberCore_of_poolAt s w a n core o h
  case load =>
    intro f s r l it n hr hl ha he
    refine (issue_ready it (fun _ _ _ => ldsNeeds it) s _ r hr).trans (congrArg Host.Outcome.next ?_)
    exact loadDo_oneLaneBad n it s s.cur r l _ hl (poolReadCheck_error s s.cur _ n 3 ha he)
  case store =>
    intro f s r l it n hr hl ha he
    refine (issue_ready it (fun _ _ _ => ldsNeeds it) s _ r hr).trans (congrArg Host.Outcome.next ?_)
    exact stsDo_oneLaneBad it s s.cur r l _ hl (poolCheck_error s s.cur _ n 3 true ha he)

/-- Settles O28: the steps of each command, one after the other, make the command that is under way. -/
theorem engineCommandsStart : Obligations.EngineCommandsStart := fun f =>
  ⟨commandStarts_of_issue (fun _ => rfl) fun s _ _ => tcopySteps_started s,
    commandStarts_of_issue (fun _ => rfl) fun s _ _ => tstoreSteps_started s,
    commandStarts_of_issue (fun _ => rfl) fun s _ _ => pcopyRSteps_started s,
    commandStarts_of_issue (fun _ => rfl) fun s _ _ => bloadSteps_started s,
    commandStarts_of_issue (fun _ => rfl) fun s _ _ => rowSteps_started s,
    commandStarts_of_issue (fun _ => rfl) fun s _ _ => rowSteps_started s,
    commandStarts_of_issue (fun _ => rfl) fun s _ _ => qpostSteps_started s,
    tcopy_completes f, tstore_completes f, pcopyR_completes f, bload_completes f,
    rowCommand_completes false _ _ fun _ => rfl, rowCommand_completes true _ _ fun _ => rfl, qpost_completes f⟩

/-- Refutes O12: COMPRESS that keeps a destination whose parity is lost stops its group, where its row says that it completes. -/
theorem not_laneInstructionsComplete : ¬ Obligations.LaneInstructionsComplete := by
  intro h
  have hexec : exec (.compress compressKeeping) keptLost = .next (keptRow.eff keptLost keptLost.cur keptRun) :=
    h compressKeeping ⟨0, 0, 0⟩ keptRow keptRow_mem keptLost keptRun keptRow_ready
  have hstops := compress_stops
  rw [hexec, keptRow_effect_goesOn] at hstops
  exact Bool.noConfusion hstops

/-- Settles O19: each form is a load whose lanes all pass the checks, or TOWN. -/
theorem poolLoadsComplete : Obligations.PoolLoadsComplete := fun f _ =>
  ⟨loadCompletes_of_issue _ _ _ _ _ fun _ => rfl, loadCompletes_of_issue _ _ _ _ _ fun _ => rfl,
    loadCompletes_of_issue _ _ _ _ _ fun _ => rfl, loadCompletes_of_issue _ _ _ _ _ fun _ => rfl, town_completes f⟩

/-- Settles O20: each form is a store whose lanes all pass the checks. -/
theorem poolStoresComplete : Obligations.PoolStoresComplete := fun _ _ =>
  ⟨storeCompletes_of_issue _ _ fun _ => rfl, storeCompletes_of_issue _ _ fun _ => rfl, storeCompletes_of_issue _ _ fun _ => rfl⟩

/-- Settles O47: each event's function takes the branch that its conditions select. -/
theorem issueSlotEvents : Obligations.IssueSlotEvents := by
  refine ⟨?clause, ?expiry, ?swap, fun _ _ _ _ => rfl, fun _ _ _ => rfl, ?handler⟩
  case clause =>
    intro c q n s w pc v u hat hid hmay hturn hcur hpc
    have hrun : exec (.clauseIssue c q n) s = .next (runSlot u) :=
      congrArg Host.Outcome.next (clauseIssue_granted rfl hat hid hmay hturn)
    rw [hrun]
    rw [← hcur] at hpc ⊢
    exact ⟨fun r hr => congrArg Host.Outcome.next (runSlot_paused hpc hr),
      fun hdr body t hr hfetch hwait hfree => congrArg Host.Outcome.next (runSlot_begins hpc hr hfetch hwait hfree)⟩
  case expiry =>
    intro c q n s w hat w'
    refine ⟨congrArg Host.Outcome.next (holdExpiry_at hat), fun l hl hheld => ⟨heldLane_expired w' l ?_, rfl⟩⟩
    have hset : nget 0 w'.heldFor l = 32 := nget_foldl_nset 0 32 _ _ l (.inl (by simp [hl, hheld]))
    rw [hset]
  case swap =>
    intro c q s x y hx hy hold hfull hrun
    exact congrArg Host.Outcome.next (ageSwap_swaps hx hy hold hfull hrun)
  case handler =>
    intro c q s w t u hfree hwait hready va hwrite
    exact congrArg Host.Outcome.next (handlerStart_starts hfree hwait hready hwrite)

/-- Refutes O50: a credit under way in a launch whose tenant is being reset is dropped, and its object keeps its bytes. -/
theorem not_engineEvents : ¬ Obligations.EngineEvents := by
  rintro ⟨_, hcredit, _⟩
  have hperform : exec (.barrierCredit 0) creditInReset = .next (creditBar { creditInReset with credits := [] } ⟨0, 0⟩ 0 0 16 []) :=
    hcredit 0 creditInReset lateCredit rfl
  rw [barrierCredit_halted (e := lateCredit) rfl creditInReset_halted] at hperform
  exact creditInReset_performed (congrArg State.pool (Host.Outcome.next.inj hperform)).symm

/-- Settles O52: each event's function takes the branch that its conditions select. -/
theorem launchEvents : Obligations.LaunchEvents := by
  refine ⟨?read, ?start, ?retry, ?grant, ?boost, ?retire, ?complete, ?widx⟩
  case read =>
    intro t q s bs h gs cs i x slot hon hcount hview r e hcheck c
    exact congrArg Host.Outcome.next (recordRead_accepts hon hcount hview hcheck)
  case start =>
    intro n s c bs hat hdeps hturn hview
    exact congrArg Host.Outcome.next (launchBegin_starts hat hdeps hturn hview)
  case retry =>
    intro n s x pa e hat hpa
    exact congrArg Host.Outcome.next (dependenceRetry_sends hat hpa)
  case grant =>
    intro s l q c t hready htrip hlevel hcoop hresume qs k u hq hc ht x
    have hgrant := (clusterGrant_level hready htrip hlevel hcoop hresume).trans (grantLevel_grants hq hc ht)
    refine ⟨fun hmore hone => congrArg Host.Outcome.next (hgrant.trans (if_neg ?_)),
      fun hlast => congrArg Host.Outcome.next (hgrant.trans (if_pos ?_))⟩
    · simp [hmore, hone]
    · simpa using hlast
  case boost =>
    intro t q s i hwait hlong hplace hnew
    exact congrArg Host.Outcome.next (starvationBoost_boosts hwait hlong hplace hnew)
  case retire =>
    intro c q n s w hat hid hhandler hlive hrun htrap hwork hout holog hstaged u
    exact congrArg Host.Outcome.next (warpRetire_retires hat hid hhandler hlive hrun htrap hwork hout holog hstaged)
  case complete =>
    intro n s c t hat u hheld hbump
    exact congrArg Host.Outcome.next (launchEnd_completes hat hheld hbump)
  case widx =>
    intro t q v s i h
    exact congrArg Host.Outcome.next (widxWrite_fits h)

end Sys2Proof.Settled
end

section
/-! SUPPORT. What WRITE packets that meet scans change (R265), and the canonical form of the memories under pool stores, writes at homes,
write-backs, records and flips (R49, R55, R235, R351). -/

namespace Sys2Proof.Machine

/-! WRITE packets and scans (R62, R265, R382). -/

/-- What a scan reads before a WRITE is drawn freely: nothing of the state but the count of draws changes. -/
theorem scanFirst_free (pa : Nat) (p : Packet) (s : State) : ∃ k, (scanFirst pa p s).2 = { s with free := k } := by
  unfold scanFirst
  refine List.foldlRecOn (motive := fun acc : Packet × State => ∃ k, acc.2 = { s with free := k }) _ _ ⟨s.free, rfl⟩ fun acc hacc n _ => ?_
  obtain ⟨k, hk⟩ := hacc
  obtain ⟨j, hj⟩ := choose_free acc.2 2
  have hdrawn : (choose acc.2 2).2 = { s with free := j } := by rw [hj, hk]
  dsimp only
  split
  · exact ⟨j, hdrawn⟩
  · exact ⟨j, hdrawn⟩

/-- Scans that a WRITE races are marked in their packets. -/
theorem raceScans_packets (s : State) (pa : Nat) : ∃ k ps, raceScans s pa = { s with free := k, packets := ps } := by
  unfold raceScans
  refine List.foldlRecOn (motive := fun t : State => ∃ k ps, t = { s with free := k, packets := ps }) _ _ ⟨s.free, s.packets, rfl⟩
    fun t ht i _ => ?_
  obtain ⟨k, ps, rfl⟩ := ht
  split
  · exact ⟨k, ps, rfl⟩
  next p _ =>
    dsimp only
    split
    · exact ⟨k, ps, rfl⟩
    · obtain ⟨j, hj⟩ := scanFirst_free pa (markRace pa p) { s with free := k, packets := ps }
      rw [hj]
      exact ⟨j, _, rfl⟩

theorem setStoredPoison_poison (s : State) (k : Nat) (b : Bool) :
    ∃ u p, setStoredPoison s k b = { s with under := u, poison := p } := by
  unfold setStoredPoison
  split
  · exact ⟨_, s.poison, rfl⟩
  · exact ⟨s.under, _, rfl⟩

/-- The sectors of a WRITE packet take its poison, wherever they stand. -/
theorem writtenPoison_poison (s : State) (p : Packet) : ∃ u q, writtenPoison s p = { s with under := u, poison := q } := by
  unfold writtenPoison
  refine List.foldlRecOn (motive := fun t : State => ∃ u q, t = { s with under := u, poison := q }) _ _ ⟨s.under, s.poison, rfl⟩
    fun t ht k _ => ?_
  obtain ⟨u, q, rfl⟩ := ht
  obtain ⟨u', q', h⟩ := setStoredPoison_poison { s with under := u, poison := q } (p.pa / 256 * 8 + k) (p.bad.getLsbD k)
  exact ⟨u', q', h⟩

/-! The canonical form. -/

/-- Every memory is in canonical form. -/
structure MemWf (s : State) : Prop where
  pool : Memory.wf s.pool = true
  cstore : Memory.wf s.cstore = true
  dram : Memory.wf s.dram = true
  l2b : Memory.wf s.l2b = true
  host : Memory.wf s.host = true
  peer : Memory.wf s.peer = true

theorem memWf_iff (s : State) : s.memWf = true ↔ MemWf s := by
  simp only [State.memWf, Bool.and_eq_true]
  exact ⟨fun ⟨⟨⟨⟨⟨hpool, hcstore⟩, hdram⟩, hl2b⟩, hhost⟩, hpeer⟩ => ⟨hpool, hcstore, hdram, hl2b, hhost, hpeer⟩,
    fun ⟨hpool, hcstore, hdram, hl2b, hhost, hpeer⟩ => ⟨⟨⟨⟨⟨hpool, hcstore⟩, hdram⟩, hl2b⟩, hhost⟩, hpeer⟩⟩

/-- Steps that each keep the form keep it one after another. -/
theorem MemWf.foldl {α : Type} {f : State → α → State} (hf : ∀ s x, MemWf s → MemWf (f s x)) (l : List α) {s : State} (h : MemWf s) :
    MemWf (l.foldl f s) :=
  List.foldlRecOn (motive := MemWf) l f h fun t ht x _ => hf t x ht

theorem wf_foldl {α : Type} {f : NMap Byte → α → NMap Byte} (hf : ∀ m x, Memory.wf m = true → Memory.wf (f m x) = true) (l : List α)
    {m : NMap Byte} (h : Memory.wf m = true) : Memory.wf (l.foldl f m) = true :=
  List.foldlRecOn (motive := fun m : NMap Byte => Memory.wf m = true) l f h fun m hm x _ => hf m x hm

theorem MemWf.poolStore {s : State} (core off : Nat) (bs : List Byte) (h : MemWf s) : MemWf (poolStore s core off bs) :=
  { h with pool := poolStore_wf s core off bs h.pool }

/-! Writes at homes (R55). -/

theorem MemWf.fillSector {s : State} (pa : Nat) (h : MemWf s) : MemWf (fillSector s pa) := by
  unfold Machine.fillSector fillWith
  split
  · exact h
  · exact { h with l2b := nwf_nsetRange 0 s.l2b _ _ h.l2b }

theorem MemWf.homeByteSet {s : State} (core : Nat) (by_ : List Nat) (pa : Nat) (b : Byte) (h : MemWf s) :
    MemWf (homeByteSet s core by_ pa b) := by
  unfold Machine.homeByteSet
  split
  · exact { h with host := nwf_nset 0 s.host _ b h.host }
  · exact { h with peer := nwf_nset 0 s.peer _ b h.peer }
  · have hnoted : MemWf { s with hist := ⟨pa, homeByte s pa, s.order, core, by_⟩ :: s.hist } := { h with }
    have hfill := hnoted.fillSector pa
    exact { hfill with l2b := nwf_nset 0 _ pa b hfill.l2b }

theorem MemWf.lineWritten {s : State} (line : Nat) (h : MemWf s) : MemWf (lineWritten s line) := { h with }

theorem MemWf.applyWriteBad {s : State} (core : Nat) (who : Nat → List Sig) (bad : List Nat) (ws : List (Nat × Byte)) (h : MemWf s) :
    MemWf (applyWriteBad core who bad s ws) := by
  have hbytes := MemWf.foldl (f := fun s (w : Nat × Byte) => Machine.homeByteSet s core ((who w.1).flatMap (·.agents)) w.1 w.2)
    (fun _ w ht => ht.homeByteSet core _ w.1 w.2) ws h
  unfold Machine.applyWriteBad
  extract_lets s1 s2 as clear s3
  have hs3 : MemWf s3 := { hbytes with }
  exact MemWf.foldl (fun _ line ht => ht.lineWritten line) _ hs3

theorem MemWf.applyWriteBy {s : State} (core : Nat) (who : Nat → List Sig) (ws : List (Nat × Byte)) (h : MemWf s) :
    MemWf (applyWriteBy core who s ws) := h.applyWriteBad core who [] ws

theorem MemWf.applyWrite {s : State} (ws : List (Nat × Byte)) (h : MemWf s) : MemWf (applyWrite s ws) := h.applyWriteBy 512 _ ws

/-! Write-back (R55). -/

theorem MemWf.raceScans {s : State} (pa : Nat) (h : MemWf s) : MemWf (raceScans s pa) := by
  obtain ⟨k, ps, hrace⟩ := raceScans_packets s pa
  rw [hrace]
  exact { h with }

theorem MemWf.writtenPoison {s : State} (p : Packet) (h : MemWf s) : MemWf (writtenPoison s p) := by
  obtain ⟨u, q, hpoison⟩ := writtenPoison_poison s p
  rw [hpoison]
  exact { h with }

theorem MemWf.flushLine {s : State} (line : Nat) (h : MemWf s) : MemWf (flushLine s line) := by
  unfold Machine.flushLine
  extract_lets mine ws t
  split
  · exact h
  · have ht : MemWf t := MemWf.foldl (fun _ p hu => hu.writtenPoison p) ws (h.raceScans (256 * line))
    have hpacket (m : NMap Byte) (p : Packet) (hm : Memory.wf m = true) :
        Memory.wf (p.bytes.foldl (fun m e => nset 0 m e.1 e.2) m) = true :=
      wf_foldl (f := fun m (e : Nat × Byte) => nset 0 m e.1 e.2) (fun m e hm => nwf_nset 0 m e.1 e.2 hm) p.bytes hm
    exact { ht with dram := wf_foldl hpacket ws ht.dram }

theorem MemWf.writeBack {s : State} (line : Nat) (h : MemWf s) : MemWf (writeBack s line) := by
  unfold Machine.writeBack
  extract_lets u l t ks
  have hu : MemWf u := h.flushLine line
  have ht : MemWf t := hu.raceScans (256 * line)
  split
  · exact hu
  · exact { ht with dram := wf_foldl (fun m k hm => nwf_nsetRange 0 m _ _ hm) ks ht.dram }

/-! Records and flips (R351, R235). -/

theorem MemWf.mput {s : State} (n : Nat) (v : DWord) (h : MemWf s) : MemWf (mput s n v) := { h with }

theorem MemWf.pkgPut {s : State} (fam idx : Nat) (v : DWord) (h : MemWf s) : MemWf (pkgPut s fam idx v) := h.mput _ v

theorem MemWf.eqAppend {s : State} (n : Nat) (ws : List DWord) (h : MemWf s) : MemWf (eqAppend s n ws) := by
  unfold Machine.eqAppend
  extract_lets base idx ctl slots pidx cidx full ws' s1 s2 s3 s4
  have hfull : MemWf full := h.pkgPut _ _ _
  have h1 : MemWf s1 := { h with }
  have h3 : MemWf s3 := (h1.applyWrite _).pkgPut _ _ _
  have h4 : MemWf s4 := h3.pkgPut _ _ _
  clear_value full s3 s4
  split
  · exact { hfull with }
  split
  · exact { h4 with }
  · exact h3

theorem MemWf.reportBare {s : State} (ten que : Nat) (r : Report) (h : MemWf s) : MemWf (reportBare s ten que r) := by
  have hrec : MemWf (bareRecord s ten que r).2 := { h with }
  unfold Machine.reportBare
  generalize bareRecord s ten que r = x at hrec ⊢
  exact hrec.eqAppend _ x.1

theorem MemWf.barReport {s : State} (k : CluKey) (core off : Nat) (r : Report) (h : MemWf s) : MemWf (barReport s k core off r) :=
  h.reportBare ..

theorem MemWf.mapWarps {s : State} (f : Warp → Warp) (h : MemWf s) : MemWf (mapWarps s f) := { h with }

theorem MemWf.flipCheck {s : State} (k : CluKey) (core off : Nat) (h : MemWf s) : MemWf (flipCheck s k core off) := by
  have hstore (w0 w1 : DWord) : MemWf (barWrite s core off w0 w1) := h.poolStore core off _
  unfold Machine.flipCheck
  generalize barRead s core off = obj
  obtain ⟨w0, w1⟩ := obj
  dsimp -zeta only
  extract_lets excess n bad phase w0' w0'' stored woken flipped
  have hexcess : MemWf excess := hstore _ _
  have hstored : MemWf stored := hstore _ _
  clear_value excess stored
  have hwoken : MemWf woken := hstored.mapWarps _
  clear_value woken
  have hflip : MemWf flipped := { hwoken with }
  clear_value flipped
  split
  · exact h
  split
  · split
    · exact hexcess
    · exact hexcess.barReport k core off _
  split
  · exact h
  split
  · exact hflip.barReport k core off _
  · exact hflip

end Sys2Proof.Machine
end

section
/-! SUPPORT. A pool load that an error on the Causeway has struck (R381, log entry 145) reads a poisoned word in its lowest lane: it stops its
group although every lane's own check passes. The frame of the loads asks for no more than these checks of a clause whose access does not
travel; strike marks only accesses that do, yet nothing in the statement excludes the mark. -/

namespace Sys2Proof.Machine

/-- LDS.b32 v8 = [v4 + v4 + v4]. -/
def struckLds : Long :=
  { md := 0x080, gn := false, gp := 7, c := 4, b := 4, a := 4, nowb := false, dst := 8, lit := none }

/-- Its fields. -/
def struckItem : Item := longItem 0x100 false struckLds

/-- Its clause, struck. -/
def struckRun : Run := { fetchRun [0x00808401, 0x08070201] with struck := true }

/-- A warp at that instruction: every register is 0, so that every lane loads from the start of the pool window. -/
def struckLoad : State :=
  let s := State.reset.withFetchWord 64 struckItem.raw.toNat
  { s with cur := { s.cur with run := some struckRun } }

theorem struckLoad_ready : Ready struckLoad struckRun struckItem (ldsNeeds struckItem) :=
  ⟨by decide +kernel, by decide +kernel, by decide +kernel, by decide +kernel, by decide +kernel, by decide +kernel, by decide +kernel⟩

theorem struckLoad_passes : ∀ l ∈ lanesOf (activeLanes struckLoad.cur struckRun struckItem),
    poolReadCheck struckLoad struckLoad.cur (memAddr struckLoad struckRun struckItem l) 4 4 = none := by decide +kernel

theorem struckLoad_unwatched : dataWatch struckLoad struckLoad.cur (lanesOf (activeLanes struckLoad.cur struckRun struckItem)) true true false
    (fun l => memAddr struckLoad struckRun struckItem l % 2 ^ 20) 4 = false := by decide +kernel

/-- What the load does. -/
def struckResult : State := loadDo false 4 4 struckItem struckLoad struckLoad.cur struckRun

theorem struckLoad_exec : exec (.lds struckLds) struckLoad = .next struckResult :=
  issue_ready struckItem (fun _ _ _ => ldsNeeds struckItem) struckLoad (loadDo false 4 4 struckItem) struckRun struckLoad_ready

/-- The load has stopped its group. -/
theorem struckResult_trap : struckResult.cur.trap.isSome = true := by decide +kernel

end Sys2Proof.Machine
end

section
/-! SUPPORT. What a step runs (R105, R109), and when a home of a moved line counts an access as held (R57). -/

namespace Sys2Proof.Machine

theorem step_event {s : State} {t : List Stimulus} {i : Instr} (h : s.agenda = .event i :: t) :
    step s = heldBack { s with agenda := t } (exec i { s with agenda := t }) := by
  unfold step
  rw [h]

theorem step_upset {s : State} {t : List Stimulus} {u : Upset} (h : s.agenda = .upset u :: t) :
    step s = .next (strike u { s with agenda := t }) := by
  unfold step
  rw [h]

theorem step_turn {s : State} {t : List Stimulus} {c q n : Nat} (h : s.agenda = .turn c q n :: t) :
    step s = heldBack { s with agenda := t } (turn c q n { s with agenda := t }) := by
  unfold step
  rw [h]

/-- A turn runs the instruction that the clause's parcels encode. -/
theorem turn_decoded {u : State} {c q n : Nat} {w : Warp} {r : Run} {i : Instr} {rest : List Word} (hat : warpAt u c q n = some w)
    (hrun : (focus u w.uid).cur.run = some r) (hdec : decodeParcels r.body = .ok (i, rest)) :
    turn c q n u = exec i (focus u w.uid) := by
  simp only [turn, hat, runItem, hrun, hdec]

/-- With DRAIN set, an access of one byte to a line that has moved is counted as held. -/
theorem reachHome_held (s : State) (pa : Nat) (hdrain : draining s = true) (hlocal : paLocal pa = true)
    (hmoved : anyMoved s (pa / 256 * 256) = true) : reachHome s pa 1 = { s with early := s.early + 1 } := by
  have hline : ((List.range ((pa % 256 + 1 + 255) / 256)).any fun k => anyMoved s ((pa / 256 + k) * 256)) = true :=
    List.any_eq_true.mpr ⟨0, List.mem_range.mpr (by omega), hmoved⟩
  unfold reachHome
  rw [hdrain, hlocal, hline]
  rfl

/-- The placed warp has the turn, and it is the focused one. -/
theorem withFetchWord_warpAt (s : State) (nbits w : Nat) (t : List Stimulus) :
    warpAt { s.withFetchWord nbits w with agenda := t } 0 0 0 = some (s.withFetchWord nbits w).cur := rfl

end Sys2Proof.Machine
end

section
/-! SUPPORT. SLDP (R147), STG, ATOMG, REDG and GATHER (R179, R181, R183) where they may issue and every lane translates. -/

namespace Sys2Proof.Machine

theorem paramLoad_completes {i : Instr} {it : Item} (h : ∀ s, exec i s = paramLoad it s) : sldpCompletes i it := by
  intro s r hr off n haligned
  rw [h s]
  unfold paramLoad
  refine (issue_ready it (fun _ _ _ => sldpNeeds it) s _ r hr).trans ?_
  refine congrArg Host.Outcome.next (if_neg ?_)
  rcases haligned with hguard | hoff
  · simp [hguard]
  · exact fun hbad => of_decide_eq_true (Bool.and_eq_true_iff.mp hbad).2 hoff

/-- An STG that has not been counted has nothing to take back. -/
theorem uncount_uncounted (it : Item) (w : Warp) (r : Run) (h : r.counted = false) : uncount it w r = w := by
  simp [uncount, h]

theorem stgDo_stages {it : Item} {s s' : State} {r : Run} {loc : List (Nat × Option Nat × DWord)} (hcounted : r.counted = false)
    (hroom : dcFull s.cur it.dc = false)
    (hloc : translateLanes s s.cur (lanesOf (activeLanes s.cur r it)) (fun l => globalCheck (globalAddr s s.cur r it true l) (stgBytes it))
      (globalAddr s s.cur r it true) .write 1 true = (.ok loc, s'))
    (hstage : stageRoom s' (it.m 54 52) (blocksOf loc) = true) :
    stgDo it s s.cur r =
      let n := stgBytes it
      let act := lanesOf (activeLanes s.cur r it)
      let t := stgStage (it.m 54 52) n s' act loc fun l => vregsNat s.cur it.d l (regsOf n)
      goOn t r it (dataWatch t s.cur act false false true (globalAddr s s.cur r it true) n) := by
  have hrun : { r with counted := false } = r := by rw [← hcounted]
  unfold stgDo
  dsimp only
  rw [uncount_uncounted it s.cur r hcounted, hrun, if_neg (ne_true_of_eq_false hroom), hloc]
  exact if_pos hstage

theorem stgOp_completes {i : Instr} {it : Item} (h : ∀ s, exec i s = stgOp it s) : stgCompletes i it := by
  intro s r s' loc hr n act va hcounted hroom hloc hstage t
  refine (h s).trans ((issue_ready it (fun _ _ _ => _) s (stgDo it) r hr).trans ?_)
  exact congrArg Host.Outcome.next (stgDo_stages hcounted hroom hloc hstage)

theorem atomgDo_sends {red : Bool} {it : Item} {s s' : State} {r : Run} {loc : List (Nat × Option Nat × DWord)}
    (hroom : dcFull s.cur (if red then it.dc else 0) = false) (hwatch : r.watching = none)
    (hloc : translateLanes s s.cur (lanesOf (activeLanes s.cur r it))
      (fun l => globalCheck (globalAddr s s.cur r it false l) (tyBytes it.mty)) (globalAddr s s.cur r it false) .write 1 true =
        (.ok loc, s'))
    (hhost : firstLane (lanesOf (activeLanes s.cur r it)) (atomHostBad (it.m 55 52) it.mty (globalAddr s s.cur r it false) loc) = none) :
    atomgDo red it s s.cur r =
      let n := tyBytes it.mty
      let act := lanesOf (activeLanes s.cur r it)
      let va := globalAddr s s.cur r it false
      let dst := if red then [] else (List.range (regsOf n)).map (it.d + ·)
      let e := takeId (doom s' 0x06)
      let t := onCur (atomSend it red e.1 r.pc e.2 act va loc (atomLane s s.cur r it)) fun w =>
        { w with pend := if act.isEmpty then w.pend else w.pend ++ dst.map fun reg => ⟨lanesFrom act, 0, reg, e.1⟩ }
      watched e.1 r it (dataWatch s s.cur act false true true va n) t := by
  unfold atomgDo
  rw [hwatch]
  dsimp only
  rw [if_neg (ne_true_of_eq_false hroom), hloc]
  dsimp only
  rw [hhost]

theorem atomgOp_completes {red : Bool} {i : Instr} {it : Item} (h : ∀ s, exec i s = atomgOp red it s) : atomgCompletes i it red := by
  intro s r s' loc hr n act va dst hroom hwatch hloc hhost e t
  refine (h s).trans ((issue_ready it (fun _ _ _ => _) s (atomgDo red it) r hr).trans ?_)
  exact congrArg Host.Outcome.next (atomgDo_sends hroom hwatch hloc hhost)

theorem gatherOp_completes {i : Instr} {it : Item} (h : ∀ s, exec i s = gatherOp it s) : gatherCompletes i it := by
  intro s r s' loc hr n act va dst c bp hact hwatch hloc hbar hroom hlocked hbehind hmissing e u t
  obtain ⟨hfull, hheld, htransit⟩ := hroom
  refine (h s).trans ((issue_ready it (fun _ _ _ => _) s (gatherDo it) r hr).trans (congrArg Host.Outcome.next ?_))
  have hsome : act.isEmpty = false := List.isEmpty_eq_false_iff.mpr hact
  unfold gatherDo
  rw [hwatch]
  extract_lets bar go
  have htranslate : translateLanes s s.cur act (fun l => gatherPre s s.cur n (va l) (dst l) bar) va .read 1 true = (.ok loc, s') := hloc
  dsimp only
  rw [if_neg (ne_true_of_eq_false hsome), htranslate]
  refine (if_neg (ne_true_of_eq_false hbar)).trans ((if_neg (ne_true_of_eq_false hfull)).trans ((if_neg ?next).trans
    ((if_neg ?unlocked).trans (if_neg ?present))))
  case next =>
    rw [hheld]
    exact ne_true_of_eq_false htransit
  case unlocked =>
    rw [hlocked]
    exact ne_true_of_eq_false hbehind
  case present =>
    rw [hmissing]
    exact Bool.false_ne_true

end Sys2Proof.Machine
end

section
/-! SUPPORT. The events of publication where they are enabled (R50, R54, R55, R57, R72, R73). -/

namespace Sys2Proof.Machine

theorem poolAccessAtTarget_delivers {c q n : Nat} {s : State} {w : Warp} {r : Run} {i : Instr} {rest : List Word}
    {k : State → Warp → Run → State} (hat : warpAt s c q n = some w) (hrun : w.run = some r) (htransit : r.transit = true)
    (hdec : decodeParcels r.body = .ok (i, rest))
    (hfirst : ∀ x ∈ s.allWarps, x.bound w.core r.targets = true → r.stamp ≤ (x.run.map (·.stamp)).getD 0)
    (hk : atTargetDo i = some k) : poolAccessAtTarget c q n s = k (focus s w.uid) w r := by
  have hahead : (s.allWarps.any fun x => x.bound w.core r.targets && decide ((x.run.map (·.stamp)).getD 0 < r.stamp)) = false := by
    simpa [List.any_eq_false] using hfirst
  simp only [poolAccessAtTarget, hat, hrun, hahead, htransit, hdec, hk, Bool.not_false, Bool.and_self]

theorem earlyPublish_starts {n : Nat} {s : State} {e : Stage} (hat : s.staging[n]? = some e) (htxn : e.txn = 0) (hgoing : e.going = none) :
    earlyPublish n s = { s with staging := s.staging.modify n (startPublish s e.freeLevel) } := by
  simp [earlyPublish, hat, htxn, hgoing]

theorem homeApply_applies {n : Nat} {s : State} {e : Stage} (hat : s.staging[n]? = some e) (hgoing : e.going.isSome = true)
    (happlied : e.applied = false) (hreset : resetting s e.tenant = false) (holder : olderOf s n e = [])
    (hatomic : atomicAhead s e = false) (hovertaken : overtaken s e.core e.sent = false) (hlocked : (lineOf s e.pa).locked = false)
    (hheld : (lineOf s e.pa).holdWr = false) (hdrain : drainHolds s (coreShelf e.core) e.gen e.pa = false)
    (hway : peerWay s (coreShelf e.core) e.pa = .clear) :
    homeApply n s =
      let t := applyStaged (overtakes s e.core e.sent) e
      { t with staging := t.staging.modify n fun x => { x with applied := true, level := if paLocal e.pa then 0 else 1 } } := by
  have hstarted : e.going.isNone = false := by simpa using hgoing
  unfold homeApply
  rw [hat]
  dsimp only
  rw [if_neg (by simp [hreset]), if_neg (by simp [hstarted, happlied, holder, hatomic, hovertaken, hlocked, hheld, hdrain, hway]), hway]

theorem publicationAck_frees {n : Nat} {s : State} {e : Stage} (hat : s.staging[n]? = some e) (happlied : e.applied = true) :
    publicationAck n s = { s with staging := s.staging.eraseIdx n } := by
  simp [publicationAck, hat, happlied]

theorem boundaryComplete_releases {c q n l : Nat} {s : State} {w : Warp} {r : Run} (hat : warpAt s c q n = some w)
    (hrun : w.run = some r) (hbnd : r.bnd = some l) (hwait : waitingEntries s c l = false) :
    boundaryComplete c q n s = putWarp s { w with run := some { r with released := true } } := by
  simp [boundaryComplete, hat, hrun, hbnd, hwait]

/-! L2_WRITEBACK. -/

theorem sendWriteBack_applied {line : Nat} {s : State} (hdirty : (nget {} s.l2 line).dirty ≠ 0) (hlocked : (nget {} s.l2 line).locked = false)
    (hkind : paKind (256 * line) ≠ .fast) : sendWriteBack line s = writeBack s line := by
  refine (if_neg ?_).trans (if_neg hkind)
  rw [hlocked, Bool.or_false, decide_eq_true_iff]
  exact hdirty

theorem sendWriteBack_sent {line t : Nat} {s : State} (hdirty : (nget {} s.l2 line).dirty ≠ 0)
    (hlocked : (nget {} s.l2 line).locked = false) (hkind : paKind (256 * line) = .fast)
    (htag : freeTag s (stackOf (256 * line)) = some t) :
    sendWriteBack line s =
      let l := nget {} s.l2 line
      let ks := (List.range 8).filter fun k => l.dirty.getLsbD k
      { s with
        packets := s.packets ++ [{
          stack := stackOf (256 * line), tag := t, kind := 1, reply := false, pa := 256 * line, sectors := l.dirty, args := [], src := 0
          bad := lineBad s line
          bytes := ks.foldl (fun m k => nsetRange 0 m (256 * line + 32 * k) (ngetRange 0 s.l2b (256 * line + 32 * k) 32)) [] }]
        l2 := nset {} s.l2 line { l with dirty := 0 } } := by
  refine (if_neg ?_).trans ((if_pos hkind).trans ?_)
  · rw [hlocked, Bool.or_false, decide_eq_true_iff]
    exact hdirty
  · simp only [sendPacket, htag, Option.map_some]

/-! The generations of the interleave table (R57). -/

theorem actWrite_switches {v : DWord} {s : State} :
    let old := putFld (shelfReg s 0 0x02 0) 2 2 (if fbit v 2 then 0 else fld (shelfReg s 0 0x02 0) 2 2)
    fbit old 1 = false → fld v 0 0 ≠ fld old 0 0 → bankDiffers s (fld v 0 0) = none →
    actWrite v s = bothPut s 0x02 0 (putFld (putFld old 0 0 (fld v 0 0)) 1 1 1) := by
  intro old hdrain hact hbank
  unfold actWrite
  extract_lets act refused
  rw [if_neg (ne_true_of_eq_false hdrain), if_neg hact, hbank]

theorem drainClear_clears {s : State} (hdrain : draining s = true) (hold : oldRequests s = false) :
    drainClear s =
      let t := ((s.l2.map (·.1)).filter fun k => anyMoved s (256 * k)).foldl writeBack s
      let new := decide (irtBank t 0 = 1)
      let u := { t with watches := t.watches.map fun x =>
        if (x.st == 1 || x.st == 2) && x.gen != new && anyMoved t x.pa then { x with st := 3, answer := 3 } else { x with gen := new } }
      bothPut u 0x02 0 (putFld (shelfReg u 0 0x02 0) 1 1 0) := by
  unfold drainClear
  rw [if_neg (by simp [hdrain, hold])]

end Sys2Proof.Machine
end

section
/-! SUPPORT. What the events of atomic groups, stacks and row operations do where they are enabled (R62 to R64, R178 to R180, R253, R268,
R270). -/

namespace Sys2Proof.Machine

/-! Atomic groups at their homes. -/

/-- No port of a peer is on the way to the stacks. -/
theorem peerWay_fast {s : State} {shelf pa : Nat} (h : paKind pa = .fast) : peerWay s shelf pa = .clear :=
  if_pos (by rw [h]; decide)

theorem atomicApply_applies {n : Nat} {s : State} {q : Req} {g : AtomGroup} (hready : groupReady s n = some (q, g))
    (hkind : paKind g.pa = .fast) (haway : q.away = none) (hlocked : (lineOf s g.pa).locked = false)
    (hheld : (lineOf s g.pa).holdWr = false) (hdrain : drainHolds s (coreShelf q.core) q.gen g.pa = false)
    (hpoison : poisonedAt s g.pa (tyBytes q.ty) = false) : atomicApply n false s = applyAtHome s q g := by
  unfold atomicApply
  rw [hready]
  dsimp only
  rw [if_neg (by simp [hkind, haway, hlocked, hheld, hdrain]), peerWay_fast hkind, if_neg (by decide)]
  dsimp only
  rw [if_neg (ne_true_of_eq_false hpoison)]
  rfl

theorem hostAtomic_applies {n : Nat} {l : AtomLane} {s : State} {q : Req} {g : AtomGroup} {ls : List AtomLane} (hready : groupReady s n = some (q, g))
    (hkind : paKind g.pa = .host) (hlanes : g.lanes = l :: ls) (hpoison : poisonedAt s g.pa (tyBytes q.ty) = false) :
    hostAtomic n s = applyAtHome s q { g with lanes := [l] } := by
  unfold hostAtomic
  rw [hready]
  dsimp only
  rw [hkind, hlanes]
  exact if_neg (ne_true_of_eq_false hpoison)

/-! Packets that a stack serves. -/

theorem serveRead_replies {n i : Nat} {s : State} {p : Packet} (h : servable s 0 n = some (i, p)) :
    serveRead n s =
      let ks := (List.range 8).filter fun k => p.sectors.getLsbD k
      putPacket s i { p with
        reply := true
        args := if p.args.isEmpty then [] else [nonzeroMask s (p.pa / 256)]
        bytes := ks.foldl (fun m k => nsetRange 0 m (p.pa / 256 * 256 + 32 * k) (ngetRange 0 s.dram (p.pa / 256 * 256 + 32 * k) 32)) [] } := by
  unfold serveRead
  rw [h]

/-- A WRITE stores its sectors in the stack. -/
theorem serveWrite_dram {n i : Nat} {s : State} {p : Packet} (h : servable s 1 n = some (i, p)) :
    (serveWrite n s).dram = ((List.range 8).filter fun k => p.sectors.getLsbD k).foldl
      (fun m k => nsetRange 0 m (p.pa / 256 * 256 + 32 * k) (ngetRange 0 p.bytes (p.pa / 256 * 256 + 32 * k) 32)) s.dram := by
  obtain ⟨k, ps, hrace⟩ := raceScans_packets s p.pa
  obtain ⟨u, q, hpoison⟩ := writtenPoison_poison (raceScans s p.pa) p
  unfold serveWrite
  rw [h]
  dsimp only
  rw [hpoison, hrace]
  rfl

theorem serveAtomic_applies {n i op ty x e lane : Nat} {s : State} {p : Packet} (h : servable s 2 n = some (i, p))
    (hargs : p.args = [op, ty, x, e, lane]) (hpoison : ∀ j < tyBytes ty, storedPoison s ((p.pa + j) / 32) = false) :
    serveAtomic n s =
      let old := ofBytes (ngetRange 0 s.dram p.pa (tyBytes ty))
      putPacket { s with dram := nsetRange 0 s.dram p.pa (bytesOf (tyBytes ty) (applyGroup op ty old [⟨lane, dw x, dw e⟩]).1) } i
        { p with reply := true, args := [old, lane, tyBytes ty] } := by
  have hclean : ((List.range (tyBytes ty)).any fun j => storedPoison s ((p.pa + j) / 32)) = false := by
    simpa [List.any_eq_false] using hpoison
  unfold serveAtomic
  rw [h]
  dsimp only
  rw [hargs]
  dsimp only
  rw [if_neg (ne_true_of_eq_false hclean)]

theorem serveQuery_accepts {u0 u1 tb mask k : Nat} {rest : List Nat} {s : State} {p : Packet} (hpackets : s.packets = [p])
    (hkind : p.kind = 3) (hreply : p.reply = false) (hargs : p.args = u0 :: u1 :: tb :: mask :: k :: 0 :: rest) :
    serveQuery 0 s = { s with packets := [{ p with args := u0 :: u1 :: tb :: mask :: k :: 1 :: rest }] } := by
  simp [serveQuery, hpackets, hkind, hreply, hargs, putPacket]

/-! Row operations' metadata. -/

theorem rowMeta_plain {s : State} {pa : Nat} {pb : Option Nat}
    (h : ∀ b ∈ pb, (nget ({} : FrameMeta) s.fmeta (b / 65536)).cmp = false) : rowMeta s pa pb = s := by
  cases pb with
  | none => rfl
  | some b => exact if_neg (ne_true_of_eq_false (h b rfl))

theorem rowMeta_compressed {s : State} {pa b : Nat} (h : (nget ({} : FrameMeta) s.fmeta (b / 65536)).cmp = true) :
    rowMeta s pa (some b) =
      { s with fmeta := nset {} s.fmeta (pa / 65536) { nget ({} : FrameMeta) s.fmeta (pa / 65536) with cmp := true } } :=
  if_pos h

theorem serveRowop_replies {n i : Nat} {s : State} {p : Packet} (h : servable s 4 n = some (i, p)) :
    serveRowop n s = rowMeta (putPacket s i { p with reply := true }) p.pa p.args.head? := by
  unfold serveRowop
  rw [h]

/-! CTRL, replies, refresh. -/

theorem setFrameMeta_sets {frame : Nat} {md : FrameMeta} {s : State} (h : (freeTag s (stackOf (65536 * frame))).isSome = true) :
    setFrameMeta frame md s = { s with fmeta := nset {} s.fmeta frame md } := by
  obtain ⟨t, ht⟩ := Option.isSome_iff_exists.mp h
  unfold setFrameMeta
  rw [ht]

theorem takeReply_read {s : State} {p : Packet} {t : List Packet} (hpackets : s.packets = p :: t) (hreply : p.reply = true)
    (hkind : p.kind = 0) : takeReply 0 s = readReply { s with packets := t } p := by
  have hfirst : ((List.range s.packets.length).filter fun i => (s.packets[i]?.map (·.reply)).getD false)[0]? = some 0 := by
    rw [hpackets, List.length_cons, List.range_succ_eq_map, List.filter_cons_of_pos (by simpa using hreply)]
    rfl
  unfold takeReply
  dsimp only
  rw [hfirst]
  dsimp only
  rw [hpackets]
  dsimp only [List.getElem?_cons_zero]
  rw [hkind]
  rfl

theorem refreshStack_unraised {st mult temp : Nat} {s : State} (h : mult ≤ nget 1 s.refresh st) :
    refreshStack st mult temp s = { s with refresh := nset 1 s.refresh st mult } :=
  if_neg (Nat.not_lt.mpr h)

/-! Queries (R268 to R270). -/

theorem scanChunk_scans {n i j r : Nat} {s : State} {p : Packet} (hready : (chunksReady s)[n]? = some (i, j, r))
    (hat : s.packets[i]? = some p) :
    scanChunk n s = putPacket s i { p with
      bytes := (List.range 32).foldl (fun m k =>
        let a := 4096 * j + 1024 * r + 32 * k
        if (p.args.drop 6).contains (128 + a / 32) then m else nsetRange 0 m a (ngetRange 0 s.dram (p.pa + a) 32)) p.bytes
      args := p.args ++ (4 * j + r) :: (if rowPoisoned s p j r then [64 + 4 * j + r] else []) } := by
  unfold scanChunk
  rw [hready]
  dsimp only
  rw [hat]

theorem returnTriple_returns {n i j : Nat} {s : State} {p : Packet} {c : Cmd} (hready : (triplesReady s)[n]? = some (i, j))
    (hat : s.packets[i]? = some p) (hcmd : s.cmds.find? (fun c => c.id == p.src) = some c) (hhalt : ctxHalted s c.ctx = false)
    (hok : (bankResult s c p j).2 = none) (hmore : (c.landed.filter fun u => u / 16 == p.sectors.toNat).length ≠ 15) :
    returnTriple n s = putTriple s c p.sectors.toNat j (bankResult s c p j).1 := by
  have hresult : bankResult s c p j = ((bankResult s c p j).1, none) := Prod.ext rfl hok
  unfold returnTriple
  rw [hready]
  dsimp only
  rw [hat]
  dsimp only
  rw [hcmd]
  dsimp only
  rw [if_neg (ne_true_of_eq_false hhalt), hresult]
  simp [hmore]

/-! ROWZF complete (R252, R253). -/

/-- Other row operations that read the frame keep sectors of it: only their commands and the count of draws change. -/
theorem keepSource_cmds (pa : Nat) (s : State) (c : Cmd) : ∃ k cs, keepSource pa s c = { s with free := k, cmds := cs } := by
  unfold keepSource
  split
  · refine List.foldlRecOn (motive := fun t : State => ∃ k cs, t = { s with free := k, cmds := cs }) _ _ ⟨s.free, s.cmds, rfl⟩
      fun t ht n _ => ?_
    obtain ⟨k, cs, rfl⟩ := ht
    obtain ⟨j, hj⟩ := choose_free { s with free := k, cmds := cs } 2
    dsimp only
    rw [hj]
    split
    · exact ⟨j, cs, rfl⟩
    · exact ⟨j, _, rfl⟩
  · exact ⟨s.free, s.cmds, rfl⟩

theorem keepSource_foldl_order (pa : Nat) (cs : List Cmd) (s : State) : (cs.foldl (keepSource pa) s).order = s.order := by
  refine List.foldlRecOn (motive := fun t : State => t.order = s.order) _ _ rfl fun t ht c _ => ?_
  obtain ⟨k, ds, hkeep⟩ := keepSource_cmds pa t c
  rw [hkeep]
  exact ht

/-- A ROWZF writes clean zeros. -/
theorem rowSector_zero {c : Cmd} (h : fbit (wordAt c.kv 4) 0 = false) (s : State) (k : Nat) :
    rowSector s c k = (List.replicate 32 0, false) :=
  if_pos (by rw [h]; rfl)

theorem rowSectors_zero {c : Cmd} (h : fbit (wordAt c.kv 4) 0 = false) (s : State) :
    (List.range 2048).map (rowSector s c) = List.replicate 2048 (List.replicate 32 0, false) := by
  rw [List.map_congr_left fun k _ => rowSector_zero h s k, List.map_const', List.length_range]

/-- The bytes of one line of clean zeros. -/
theorem zeroLine_bytes {n k : Nat} (hk : 8 * k + 8 ≤ n) :
    (((List.replicate n ((List.replicate 32 0 : List Byte), false)).drop (8 * k)).take 8).flatMap (·.1) = List.replicate 256 0 := by
  rw [List.drop_replicate, List.take_replicate, show min 8 (n - 8 * k) = 8 by omega, List.flatMap_replicate,
    List.flatten_replicate_replicate]

theorem zeroSectors_clean (n : Nat) :
    ((List.range n).filter fun k => ((List.replicate n ((List.replicate 32 0 : List Byte), false)).getD k ([], false)).2) = [] := by
  rw [List.filter_eq_nil_iff]
  intro k hk
  simp [List.getD_eq_getElem?_getD, List.mem_range.mp hk]

theorem rowComplete_zeroes {n : Nat} {s : State} {c : Cmd}
    (hat : (s.cmds.filter fun c => (c.kind == .rowzf || c.kind == .rowcp) && c.done.contains 1)[n]? = some c)
    (hzero : fbit (wordAt c.kv 4) 0 = false) :
    let pa := (wordAt c.kv 2).toNat
    let s' := (s.cmds.filter fun x => x.id != c.id).foldl (keepSource pa) s
    let t := (List.range 256).foldl (fun s k => rowLine c.writer (pa + 256 * k) [] (List.replicate 256 0) s) s'
    let u := { t with rows := (List.range 256).foldl (fun m k => nset 0 m (pa / 256 + k) (s'.order + k + 1)) t.rows }
    let v := rowFallback (mapLines u pa fun l => { l with locked := false }) c pa none
    (findCtx v c.ctx).isSome = true → ctxHalted v c.ctx = false →
    rowComplete n s = landedUnit v c 0 [] c.core c.bar.toNat 65536 := by
  intro pa s' t u v hctx hhalt
  unfold rowComplete
  rw [hat]
  dsimp -zeta only
  extract_lets pb copies out line bad badOf written stamped unlocked released ended told
  have horder : s'.order = s.order := keepSource_foldl_order pa _ s
  have hout : out = List.replicate 2048 (List.replicate 32 0, false) := rowSectors_zero hzero s
  have hbad : bad = [] := by
    rw [← zeroSectors_clean 2048, ← hout]
  have hwritten : written = t := List.foldl_ext _ _ _ fun x k hk => by
    have hline : (line k).flatMap (·.1) = List.replicate 256 0 := by
      have hk := List.mem_range.mp hk
      rw [← zeroLine_bytes (n := 2048) (k := k) (by omega), ← hout]
    have hclean : badOf k = [] := by
      simp only [badOf, hbad, List.filter_nil, List.map_nil]
    rw [hline, hclean]
  have hstamped : stamped = u := by
    simp only [stamped, u, hwritten, horder]
  have hcopies : ¬ copies = true := ne_true_of_eq_false hzero
  have hended : ended = v := by
    simp only [ended, v, released, unlocked, if_neg hcopies, hstamped]
  have htold : told = v := by
    simp only [told, hbad, List.isEmpty_nil, if_true, hended]
  rw [htold, Option.isNone_eq_false_iff.mpr hctx, hhalt]
  rfl

end Sys2Proof.Machine
end

section
/-! SUPPORT. What a soft error that the agenda names does (R381 to R384), and what poison a staging entry and a v register keep. -/

namespace Sys2Proof.Machine

theorem step_strikeNext (s : State) (u : Upset) : step (strikeNext s u) = .next (strike u { s with agenda := [] }) :=
  step_upset rfl

/-! Corrected errors. -/

theorem countRow_corr (s : State) (pa : Nat) : (countRow s pa).corr = s.corr := by
  unfold countRow
  dsimp only
  split
  · rfl
  · rfl

theorem countRow_timeOf (s : State) (pa : Nat) : timeOf (countRow s pa) = timeOf s := by
  unfold countRow
  dsimp only
  split
  · rfl
  · rfl

/-- A unit that has reported nothing yet reports. -/
theorem correctedError_reports {unit inst asp : Nat} {addr : DWord} {s : State} (h : (nget (0, 0) s.corr (65536 * unit + inst)).2 = 0) :
    correctedError unit inst addr asp s =
      let u := if (unit = 1 ∨ unit = 2) && paKind addr.toNat == .fast then countRow s addr.toNat else s
      reportModule { u with corr := nset (0, 0) s.corr (65536 * unit + inst) (0, (timeOf s).toNat + 1) }
        { cause := 0x80, addr := addr, asp := asp, info0 := unit, info1 := (nget (0, 0) s.corr (65536 * unit + inst)).1 + 1, sev := 0 } := by
  unfold correctedError
  extract_lets u key old now n
  have hcorr : u.corr = s.corr := by
    simp only [u]
    split
    · exact countRow_corr s _
    · rfl
  have htime : timeOf u = timeOf s := by
    simp only [u]
    split
    · exact countRow_timeOf s _
    · rfl
  have hold : old.2 = 0 := by
    simp only [old, hcorr]
    exact h
  rw [if_neg (by simp [hold])]
  simp only [n, old, now, key, hcorr, htime]

/-! Uncorrected errors in storage. -/

/-- An error that concerns no tenant goes to the module's queue. -/
theorem storageError_module (unit asp : Nat) (addr : DWord) (s : State) :
    storageError unit none addr asp s = reportModule s { cause := 0x84, addr := addr, asp := asp, info0 := unit, sev := 2 } := rfl

theorem poolError_unowned {core off : Nat} {s : State} (hcore : core < Config.cores) (hoff : off < Config.poolBytes)
    (hfree : ∀ k ∈ s.clusters, core ∉ k.cores) :
    poolError core off s = storageError 5 none (dw off) 2 (poisonPool s core (off / 8 * 8) 1) := by
  have hnone : (s.clusters.find? fun k => k.cores.contains core && decide (k.pbase ≤ off) && decide (off < k.plim)) = none := by
    rw [List.find?_eq_none]
    intro k hk
    simp [hfree k hk]
  unfold poolError
  rw [if_neg (by simp [hcore, hoff]), hnone]

theorem storeError_poisons {core column off : Nat} {s : State} (hcore : core < Config.cores) (hcolumn : column < 64) (hoff : off < 65536) :
    storeError core column off s =
      storageError 6 none (dw (65536 * column + off)) 0 { s with csPoison := nset false s.csPoison (csKey core column off / 8) true } :=
  if_neg (by simp [hcore, hcolumn, hoff])

theorem sectorError_slice {pa : Nat} {s : State} (h : sectorValid s pa = true) :
    sectorError pa true s =
      reportModule { s with
          poison := nset false s.poison (pa / 32) true
          migrs := s.migrs.map fun m => if m.copies s pa then { m with err := true } else m }
        { cause := 0x84, addr := dw pa, asp := 3, info0 := 3, sev := 2 } := by
  rw [← storageError_module]
  exact if_pos h

theorem stagedError_poisons {n : Nat} {upper : Bool} {s : State} {e : Stage} (h : s.staging[n]? = some e) :
    stagedError n upper s =
      let k := if upper then 1 else 0
      reportBare { s with staging := s.staging.modify n fun e => { e with bad := e.bad ||| BitVec.ofNat 2 (2 ^ k) } } e.tenant 0
        { cause := 0x84, addr := dw (e.pa + 32 * k), asp := 3, info0 := 3, sev := 2 } := by
  unfold stagedError
  rw [h]
  rfl

/-! Poison that a write carries (R382). -/

theorem nget_foldl_mark (ks : List Nat) (m : NMap Bool) (x : Nat) :
    nget false (ks.foldl (fun m k => nset false m k true) m) x = (nget false m x || ks.contains x) := by
  induction ks generalizing m with
  | nil => simp
  | cons k ks ih =>
    rw [List.foldl_cons, ih, nget_nset, List.contains_cons]
    by_cases h : x = k
    · simp [h]
    · simp [h, beq_eq_false_iff_ne.mpr h]

theorem lineWritten_foldl_poison (ls : List Nat) (s : State) : (ls.foldl lineWritten s).poison = s.poison :=
  List.foldlRecOn (motive := fun t : State => t.poison = s.poison) ls lineWritten rfl fun _ ht _ _ => ht

/-- A write leaves the poison that a clean one leaves, and that of its bad sectors. -/
theorem applyWriteBad_poison (core : Nat) (who : Nat → List Sig) (bad : List Nat) (s : State) (ws : List (Nat × Byte)) :
    (applyWriteBad core who bad s ws).poison = bad.foldl (fun m k => nset false m k true) (applyWriteBy core who s ws).poison := by
  unfold applyWriteBy applyWriteBad
  dsimp only
  rw [lineWritten_foldl_poison, lineWritten_foldl_poison, List.foldl_nil]

/-! Registers and packets. -/

theorem parityError_marks {uid num lane : Nat} {s : State} {w : Warp} (h : findWarp s uid = some w) :
    parityError uid 0 num lane s = putWarp s { w with parity := (0, num, lane) :: w.parity } := by
  unfold parityError
  rw [h]
  rfl

/-- A register's parity is right again once it is written (R383). -/
theorem vset_parity (w : Warp) (num lane : Nat) (x : Word) : (0, num, lane) ∉ (vset w num lane x).parity := by
  simp [vset]

theorem packetError_write {n : Nat} {s : State} {p : Packet} (hat : s.packets[n]? = some p) (hkind : p.kind = 1) (hreply : p.reply = false) :
    packetError n s = reportModule { s with packets := s.packets.eraseIdx n }
      { cause := 0x85, addr := dw (p.pa / 256 * 256), asp := 3, info0 := p.stack, info1 := 1, src := 5, sev := 2 } := by
  unfold packetError
  rw [hat]
  dsimp only
  rw [if_neg (ne_true_of_eq_false hreply), hkind]
  rfl

end Sys2Proof.Machine
end

section
/-! The obligations on the memory hierarchy: pool accesses, canonical form, what a step runs, global accesses, publication, stacks, soft
errors. -/

namespace Sys2Proof.Settled
open Sys2Proof.Machine

/-- Refutes O22: a load whose clause is marked struck stops its group with cause 0x81, though every check that the frame asks for passes. -/
theorem not_poolAccessFrames : ¬ Obligations.PoolAccessFrames := by
  intro h
  obtain ⟨hlds, _⟩ := h struckLds ⟨0, 0, 0⟩
  obtain ⟨_, _, hwarp⟩ := hlds struckLoad struckRun struckResult struckLoad_ready ⟨rfl, rfl, rfl, rfl⟩ struckLoad_passes
    struckLoad_unwatched struckLoad_exec
  have hnone : struckResult.cur.trap = none := congrArg Warp.trap hwarp
  have hsome := struckResult_trap
  rw [hnone] at hsome
  exact Bool.noConfusion hsome

/-- Settles O26: each operation sets keys of one memory, and a set key keeps the form. -/
theorem memoryKeepsItsCanonicalForm : Obligations.MemoryKeepsItsCanonicalForm := by
  simp only [Obligations.MemoryKeepsItsCanonicalForm, canonicalKept, memWf_iff]
  exact ⟨fun _ core off bs h => h.poolStore core off bs, fun _ core who ws h => h.applyWriteBy core who ws, fun _ line h => h.writeBack line,
    fun _ n ws h => h.eqAppend n ws, fun _ k core off h => h.flipCheck k core off⟩

/-- Settles O1: the head of the agenda decides what a step runs, and the placed clause's parcels decode as the word's do. -/
theorem stepRunsTheDecodedInstruction : Obligations.StepRunsTheDecodedInstruction := by
  refine ⟨?turn, fun s t i h => step_event h, ?held, reachHome_clear, ?moved, fun s t u h => step_upset h, ?placed⟩
  case turn =>
    intro s t c q n w r i rest u hagenda hat hrun hdec
    rw [step_turn hagenda, turn_decoded hat hrun hdec]
  case held =>
    intro s t
    by_cases h : t.early = s.early
    · rw [heldBack_stands s t h, if_pos h]
    · rw [heldBack_waits s t h, if_neg h]
  case moved =>
    intro s pa hdrain hlocal hmoved
    rw [reachHome_held s pa hdrain hlocal hmoved]
  case placed =>
    intro s nbits w ps i rest hdec u
    rw [step_turn rfl, turn_decoded (withFetchWord_warpAt s nbits w s.agenda) rfl hdec]
    rfl

/-- Settles O16: aligned, or with a false guard, nothing stops the load. -/
theorem parameterLoads : Obligations.ParameterLoads := fun _ _ =>
  ⟨paramLoad_completes fun _ => rfl, paramLoad_completes fun _ => rfl⟩

/-- Settles O25: with every lane translated, each operation reaches its effect. -/
theorem globalAccessesComplete : Obligations.GlobalAccessesComplete := fun _ =>
  ⟨stgOp_completes fun _ => rfl, atomgOp_completes fun _ => rfl, atomgOp_completes fun _ => rfl, gatherOp_completes fun _ => rfl⟩

/-- Settles O48: each event's function takes the branch that its conditions select. -/
theorem publicationEvents : Obligations.PublicationEvents := by
  refine ⟨?target, ?early, ?apply, ?ack, ?boundary, ?writeback, ?act, ?drain⟩
  case target =>
    intro c q n s w r i rest k hat hrun htransit hdec hfirst hk
    exact congrArg Host.Outcome.next (poolAccessAtTarget_delivers hat hrun htransit hdec hfirst hk)
  case early =>
    intro n s e hat htxn hgoing
    exact congrArg Host.Outcome.next (earlyPublish_starts hat htxn hgoing)
  case apply =>
    intro n s e hat hgoing happlied hreset holder hatomic hovertaken hlocked hheld hdrain hway t
    exact congrArg Host.Outcome.next
      (homeApply_applies hat hgoing happlied hreset holder hatomic hovertaken hlocked hheld hdrain hway)
  case ack =>
    intro n s e hat happlied
    exact congrArg Host.Outcome.next (publicationAck_frees hat happlied)
  case boundary =>
    intro c q n s w r l hat hrun hbnd hwait
    exact congrArg Host.Outcome.next (boundaryComplete_releases hat hrun hbnd hwait)
  case writeback =>
    intro line s hdirty hlocked
    refine ⟨fun hkind => congrArg Host.Outcome.next (sendWriteBack_applied hdirty hlocked hkind), fun t hkind htag => ?_⟩
    exact congrArg Host.Outcome.next (sendWriteBack_sent hdirty hlocked hkind htag)
  case act =>
    intro v s old hdrain hact hbank
    exact congrArg Host.Outcome.next (actWrite_switches hdrain hact hbank)
  case drain =>
    intro s hdrain hold t new u
    exact congrArg Host.Outcome.next (drainClear_clears hdrain hold)

/-- The events of atomic groups, of the stacks and of row operations (the first half of O49). -/
theorem stackEvents_hold : stackEvents := by
  refine ⟨?group, ?host, ?read, ?write, ?atomic, ?query, ?rowop, ?rowopCompressed, ?ctrl, ?reply, ?chunk, ?refresh, ?triple, ?rowzf⟩
  case group =>
    intro n s q g hready hkind haway hlocked hheld hdrain hpoison
    exact congrArg Host.Outcome.next (atomicApply_applies hready hkind haway hlocked hheld hdrain hpoison)
  case host =>
    intro n s q g l ls hready hkind hlanes hpoison
    exact congrArg Host.Outcome.next (hostAtomic_applies hready hkind hlanes hpoison)
  case read =>
    intro n s i p h ks
    exact congrArg Host.Outcome.next (serveRead_replies h)
  case write =>
    intro n s i p h
    exact ⟨_, rfl, serveWrite_dram h⟩
  case atomic =>
    intro n s i p op ty x e lane h hargs hpoison old
    exact ⟨_, congrArg Host.Outcome.next (serveAtomic_applies h hargs hpoison), rfl, rfl⟩
  case query =>
    intro s p u0 u1 tb mask k rest hpackets hkind hreply hargs
    exact congrArg Host.Outcome.next (serveQuery_accepts hpackets hkind hreply hargs)
  case rowop =>
    intro n s i p h hplain
    exact congrArg Host.Outcome.next ((serveRowop_replies h).trans (rowMeta_plain hplain))
  case rowopCompressed =>
    intro n s i p b t h hargs hcmp
    refine congrArg Host.Outcome.next ((serveRowop_replies h).trans ?_)
    rw [hargs]
    exact rowMeta_compressed hcmp
  case ctrl =>
    intro frame md s h
    exact congrArg Host.Outcome.next (setFrameMeta_sets h)
  case reply =>
    intro s p t hpackets hreply hkind
    exact congrArg Host.Outcome.next (takeReply_read hpackets hreply hkind)
  case chunk =>
    intro n s i j r p hready hat
    exact congrArg Host.Outcome.next (scanChunk_scans hready hat)
  case refresh =>
    intro st mult temp s h
    exact congrArg Host.Outcome.next (refreshStack_unraised h)
  case triple =>
    intro n s i j p c hready hat hcmd hhalt hok hmore
    exact congrArg Host.Outcome.next (returnTriple_returns hready hat hcmd hhalt hok hmore)
  case rowzf =>
    intro n s c hat hzero pa s' t u v hctx hhalt
    exact congrArg Host.Outcome.next (rowComplete_zeroes hat hzero hctx hhalt)

/-- The soft errors (the second half of O49). -/
theorem softErrors_hold : softErrors := by
  refine ⟨?corrected, ?pool, ?store, ?sector, ?staged, ?carried, ?parity, fun w num lane x => ⟨vset_parity w num lane x, ?written⟩, ?lost⟩
  case corrected =>
    intro s unit inst addr asp h t u
    rw [step_strikeNext]
    exact congrArg Host.Outcome.next (correctedError_reports h)
  case pool =>
    intro s core off hcore hoff hfree
    rw [step_strikeNext]
    exact congrArg Host.Outcome.next (poolError_unowned hcore hoff hfree)
  case store =>
    intro s core column off hcore hcolumn hoff
    rw [step_strikeNext]
    exact congrArg Host.Outcome.next (storeError_poisons hcore hcolumn hoff)
  case sector =>
    intro s pa h
    rw [step_strikeNext]
    exact congrArg Host.Outcome.next (sectorError_slice (s := { s with agenda := [] }) h)
  case staged =>
    intro s n e upper h k
    rw [step_strikeNext]
    exact congrArg Host.Outcome.next (stagedError_poisons (s := { s with agenda := [] }) h)
  case carried =>
    intro s e x
    rw [applyStaged, applyWriteBad_poison, nget_foldl_mark]
  case parity =>
    intro s uid num lane w h
    rw [step_strikeNext]
    exact congrArg Host.Outcome.next (parityError_marks h)
  case written =>
    rw [vget_vset, if_pos rfl]
  case lost =>
    intro s n p hat hkind hreply
    rw [step_strikeNext]
    exact congrArg Host.Outcome.next (packetError_write hat hkind hreply)

/-- Settles O49: each event's function takes the branch that its conditions select. -/
theorem stackEventsAndSoftErrors : Obligations.StackEventsAndSoftErrors := ⟨stackEvents_hold, softErrors_hold⟩

end Sys2Proof.Settled
end

section
/-! SUPPORT. What FENCE and the hardware barriers do where nothing is left to release (R73, R242, R243). -/

namespace Sys2Proof.Machine

/-- Whether the core's engines are busy does not depend on transactions. -/
@[simp] theorem coreEngines_doom (s : State) (w : Warp) (c : Nat) : coreEngines (doom s c) w = coreEngines s w := by
  simp [coreEngines]

/-- A hardware barrier that the launch has, with no engine of the core at work for it and nothing left to release, parks the group at
its next instance and counts the instance. -/
theorem hwSyncDo_parks {kind : Nat} {it : Item} {s : State} {r : Run} :
    let lr := recOf s s.cur
    let sc := hwScope lr (hwDom kind).1 (hwDom kind).2
    (kind = 2 → hasDom lr 2 = true) → (2 ≤ kind → recCoop lr = true ∧ coreEngines s s.cur = false) →
    Clear (doom s 0x05) r [sc] →
    let p := past (doom s 0x05) r [sc]
    let t := parkLanes (if kind < 2 then p
        else onCur p fun w => releasedWith (nset 0 [] (2 ^ 41 + w.core) p.order) r.grp [sc] p.order w) r.grp fun l =>
      { wait := .hw kind (nget 0 s.cur.hwn (4 * l + kind)), ft := dw (fallThrough r), dst := 0, scope := sc }
    hwSyncDo kind it s s.cur r = endWait
      (onCur t fun w => { w with hwn := (lanesOf r.grp).foldl (fun m l => nset 0 m (4 * l + kind) (nget 0 m (4 * l + kind) + 1)) w.hwn })
      r it r.grp false := by
  intro lr sc hlevel hcoop hclear p t
  have hdie : (kind = 2 && !hasDom lr 2) = false := by
    by_cases hk : kind = 2 <;> simp [hk, hlevel]
  have hgrid : (2 ≤ kind && !recCoop lr) = false := by
    by_cases hk : 2 ≤ kind <;> simp [hk, hcoop]
  have hidle : (2 ≤ kind && coreEngines (doom s 0x05) s.cur) = false := by
    by_cases hk : 2 ≤ kind <;> simp [hk, hcoop]
  unfold hwSyncDo
  dsimp only
  rw [hdie, hgrid, hidle]
  simp only [Bool.false_eq_true, if_false, ne_eq, not_true_eq_false]
  exact boundary_clear (doom s 0x05) r [sc] _ hclear

/-- An instruction whose effect is a hardware barrier's completes. -/
theorem hwSyncCompletes_of_issue {i : Instr} {it : Item} {bads : List Bad} {kind : Nat}
    (hi : ∀ s, exec i s = issue it (fun _ _ _ => { uses := noUses, bads := bads }) s (hwSyncDo kind it)) :
    hwSyncCompletes i it bads kind := by
  intro s r hready lr sc hlevel hcoop hclear
  rw [hi, issue_ready it _ s _ r hready]
  exact congrArg Host.Outcome.next (hwSyncDo_parks hlevel hcoop hclear)

/-- A fence goes on past the boundary at its scope. -/
theorem fenceCompletes_of_op {i : Instr} {it : Item} (hi : ∀ s, exec i s = fenceOp it s) : fenceCompletes i it := by
  intro s r hready hclear
  rw [hi, fenceOp, issue_ready it _ s _ r hready, boundary_clear s r _ _ hclear]

end Sys2Proof.Machine
end

section
/-! The obligations on the consistency model: fences and hardware barriers. -/

namespace Sys2Proof.Settled
open Sys2Proof.Machine

/-- Settles O37: with nothing left to release, FENCE goes on past its boundary, and the three barriers share one effect. -/
theorem fencesAndHardwareBarriers : Obligations.FencesAndHardwareBarriers := fun _ =>
  ⟨fenceCompletes_of_op fun _ => rfl, hwSyncCompletes_of_issue fun _ => rfl, hwSyncCompletes_of_issue fun _ => rfl,
    hwSyncCompletes_of_issue fun _ => rfl⟩

end Sys2Proof.Settled
end

section
/-! SUPPORT. A short DADD whose B7 names a latch: R162 asks for an even v register or an immediate there, so that the instruction stops its
group with cause 0x03, subcode 1, which the row of DADD does not ask about. -/

namespace Sys2Proof.Machine

/-- DADD.f64 v4 = v2 + b0, short: B7 0x40 is latch b0. -/
def daddOfLatch : Short := { b7 := 0x40, a := 2, dst := 4 }

def daddItem : Item := shortItem 0x23 false 0x500 daddOfLatch

/-- Its clause, in which the slot before it has left a capture in b0. -/
def latchedRun : Run := { capture (fetchRun [shortWord 0x23 daddOfLatch]) { uni := false, vals := [] } with slot := 1 }

/-- A warp at that instruction. -/
def latchedDadd : State :=
  let s := State.reset.withFetchWord 32 (shortWord 0x23 daddOfLatch).toNat
  { s with cur := { s.cur with run := some latchedRun } }

/-- The row of the short DADD for it. -/
def daddRow : Row := roundRow (.daddShort daddOfLatch) daddItem [0x0A] 2 fun m a b _ => addFV m a b

theorem daddRow_mem (f : Long) : daddRow ∈ floatRows f daddOfLatch :=
  List.mem_append_left _ (List.mem_append_left _ (List.mem_append_right _ (List.mem_of_getElem? (i := 9) rfl)))

/-- Nothing that the row asks for fails: b0 is even and holds a value. -/
theorem daddRow_ready : Ready latchedDadd latchedRun daddRow.it (daddRow.sp latchedDadd latchedDadd.cur latchedRun) :=
  ⟨by decide +kernel, by decide +kernel, by decide +kernel, by decide +kernel, by decide +kernel, by decide +kernel, by decide +kernel⟩

/-- What the short DADD itself requires. -/
def daddNeeds (it : Item) : Spec :=
  aluSpec false (List.replicate 2 (vtOf it.ty)) (vtOf it.ty).pair (fltBads it [0x0A] 4 true 0 ++ shortPairBads it (fmtOf it))

/-- What it does where nothing stops it. -/
def daddDo (it : Item) (s : State) (w : Warp) (r : Run) : State :=
  vecResult (if rndOf it = 4 then { s with cur := bumpRctr w (activeLanes w r it) } else s) r it (vtOf it.ty).pair fun l =>
    roundF (fmtOf it) (rndOf it) (laneRandom s w l 0) false (ftzOf it)
      (addFV (rndOf it) (fltAt it .a s w r l) (fltAt it .b s w r l))

theorem exec_daddShort (g : Short) (s : State) :
    let it := shortItem 0x23 false 0x500 g
    exec (.daddShort g) s = issue it (fun _ _ _ => daddNeeds it) s (daddDo it) := rfl

/-- The latch in B7 is the first failing check. -/
theorem daddOfLatch_faults :
    exec (.daddShort daddOfLatch) latchedDadd = .next (badTrap latchedDadd latchedRun daddItem ⟨false, 1, 0x40⟩) := by
  rw [exec_daddShort]
  exact issue_bad daddItem (fun _ _ _ => daddNeeds daddItem) latchedDadd (daddDo daddItem) latchedRun ⟨false, 1, 0x40⟩ rfl rfl
    (by decide +kernel) (by decide +kernel) (by decide +kernel) (.inr (by decide +kernel))

theorem daddOfLatch_stops : stopsWarp (exec (.daddShort daddOfLatch) latchedDadd) = true := by
  rw [daddOfLatch_faults]
  decide +kernel

theorem daddRow_effect_goesOn : stopsWarp (.next (daddRow.eff latchedDadd latchedDadd.cur latchedRun)) = false := by decide +kernel

end Sys2Proof.Machine
end

section
/-! The obligations on the number formats: floating-point, packed, conversion and special-function instructions. -/

namespace Sys2Proof.Settled
open Sys2Proof.Machine

/-- Refutes O11: a short DADD whose B7 names a latch faults (R162), where its row says that it completes. -/
theorem not_floatInstructionsComplete : ¬ Obligations.FloatInstructionsComplete := by
  intro h
  have hexec : exec (.daddShort daddOfLatch) latchedDadd = .next (daddRow.eff latchedDadd latchedDadd.cur latchedRun) :=
    h ⟨0, false, 7, 0, 0, 0, false, 0, none⟩ daddOfLatch daddRow (daddRow_mem _) latchedDadd latchedRun daddRow_ready
  have hstops := daddOfLatch_stops
  rw [hexec, daddRow_effect_goesOn] at hstops
  exact Bool.noConfusion hstops

end Sys2Proof.Settled
end

section
/-! SUPPORT. The words of Tables 6.5 and 6.6 as numbers: the sum of the fields, each at its place; reading the fields back, and putting read fields
together again (R112). -/

namespace Sys2Proof

theorem append_toNat {n m : Nat} (x : BitVec n) (y : BitVec m) : (x ++ y).toNat = x.toNat * 2 ^ m + y.toNat := by
  rw [BitVec.toNat_append, Nat.shiftLeft_eq, Nat.mul_comm, Nat.two_pow_add_eq_or_of_lt y.isLt]

/-- A field is the number at its place. -/
theorem extractLsb'_eq_of_toNat {n k : Nat} {x : BitVec n} {i : Nat} {y : BitVec k} (h : x.toNat / 2 ^ i % 2 ^ k = y.toNat) :
    x.extractLsb' i k = y :=
  BitVec.eq_of_toNat_eq (by rw [BitVec.extractLsb'_toNat, Nat.shiftRight_eq_div_pow, h])

/-- A flag is the bit at its place. -/
theorem getLsbD_eq_of_toNat {n : Nat} {x : BitVec n} {i : Nat} {b : Bool} (h : x.toNat / 2 ^ i % 2 = b.toNat) : x.getLsbD i = b := by
  rw [BitVec.getLsbD, Nat.testBit_eq_decide_div_mod_eq, h]
  cases b <;> rfl

theorem getLsbD_toNat {n : Nat} (x : BitVec n) (i : Nat) : (x.getLsbD i).toNat = x.toNat / 2 ^ i % 2 := by
  rw [BitVec.getLsbD, Nat.toNat_testBit]

theorem extractLsb'_toNat_div {n : Nat} (x : BitVec n) (i k : Nat) : (x.extractLsb' i k).toNat = x.toNat / 2 ^ i % 2 ^ k := by
  rw [BitVec.extractLsb'_toNat, Nat.shiftRight_eq_div_pow]

/-! The short form (Table 6.6). -/

theorem shortWord_toNat (sop : BitVec 6) (f : Short) :
    (shortWord sop f).toNat = f.b7.toNat * 2 ^ 25 + f.a.toNat * 2 ^ 16 + f.dst.toNat * 2 ^ 8 + sop.toNat * 2 ^ 2 := by
  change (f.b7 ++ f.a ++ f.dst ++ sop ++ 0#2 : BitVec (7 + 9 + 8 + 6 + 2)).toNat = _
  simp only [append_toNat, BitVec.toNat_ofNat]
  omega

theorem lengthCode_shortWord (sop : BitVec 6) (f : Short) : lengthCode (shortWord sop f) = 0 := by
  rw [lengthCode, shortWord_toNat]
  omega

theorem sop_shortWord (sop : BitVec 6) (f : Short) : (shortWord sop f).extractLsb' 2 6 = sop :=
  extractLsb'_eq_of_toNat (by rw [shortWord_toNat]; omega)

theorem shortFields_shortWord (sop : BitVec 6) (f : Short) : shortFields (shortWord sop f) = f := by
  have hb7 : (shortWord sop f).extractLsb' 25 7 = f.b7 := extractLsb'_eq_of_toNat (by rw [shortWord_toNat]; omega)
  have ha : (shortWord sop f).extractLsb' 16 9 = f.a := extractLsb'_eq_of_toNat (by rw [shortWord_toNat]; omega)
  have hdst : (shortWord sop f).extractLsb' 8 8 = f.dst := extractLsb'_eq_of_toNat (by rw [shortWord_toNat]; omega)
  rw [shortFields, hb7, ha, hdst]

theorem shortWord_shortFields (w : Word) (h : lengthCode w = 0) : shortWord (w.extractLsb' 2 6) (shortFields w) = w := by
  apply BitVec.eq_of_toNat_eq
  rw [lengthCode] at h
  simp only [shortWord_toNat, shortFields, extractLsb'_toNat_div]
  omega

/-! The long form (Table 6.5). -/

theorem longWord_toNat (opc : BitVec 10) (ext : Bool) (f : Long) :
    (longWord opc ext f).toNat = f.md.toNat * 2 ^ 52 + f.gn.toNat * 2 ^ 51 + f.gp.toNat * 2 ^ 48 + f.c.toNat * 2 ^ 39 + f.b.toNat * 2 ^ 30 +
      f.a.toNat * 2 ^ 21 + f.nowb.toNat * 2 ^ 20 + f.dst.toNat * 2 ^ 12 + opc.toNat * 2 ^ 2 + (1 + ext.toNat) := by
  have hcode : (if ext then 2#2 else 1#2).toNat = 1 + ext.toNat := by cases ext <;> rfl
  change (f.md ++ BitVec.ofBool f.gn ++ f.gp ++ f.c ++ f.b ++ f.a ++ BitVec.ofBool f.nowb ++ f.dst ++ opc ++ (if ext then 2#2 else 1#2) :
    BitVec (12 + 1 + 3 + 9 + 9 + 9 + 1 + 8 + 10 + 2)).toNat = _
  simp only [append_toNat, BitVec.toNat_ofBool, hcode]
  omega

/-- The two parcels of a long form, put together. -/
theorem twoParcels_join (x : DWord) : (x.extractLsb' 32 32 ++ x.extractLsb' 0 32 : DWord) = x := by
  apply BitVec.eq_of_toNat_eq
  simp only [append_toNat, extractLsb'_toNat_div]
  omega

theorem twoParcels_toNat (w0 w1 : Word) : (w1 ++ w0 : DWord).toNat = w1.toNat * 2 ^ 32 + w0.toNat := append_toNat (n := 32) (m := 32) w1 w0

theorem lengthCode_longWord (opc : BitVec 10) (ext : Bool) (f : Long) :
    lengthCode ((longWord opc ext f).extractLsb' 0 32) = 1 + ext.toNat := by
  have hext := ext.toNat_le
  rw [lengthCode, extractLsb'_toNat_div, longWord_toNat]
  omega

theorem opcOf_longWord (opc : BitVec 10) (ext : Bool) (f : Long) : opcOf ((longWord opc ext f).extractLsb' 0 32) = opc.toNat := by
  have hext := ext.toNat_le
  rw [opcOf, extractLsb'_toNat_div, extractLsb'_toNat_div, longWord_toNat]
  omega

theorem longFields_longWord (opc : BitVec 10) (ext : Bool) (f : Long) :
    longFields ((longWord opc ext f).extractLsb' 0 32) ((longWord opc ext f).extractLsb' 32 32) f.lit = f := by
  have hgn := f.gn.toNat_le
  have hnowb := f.nowb.toNat_le
  have hext := ext.toNat_le
  have hx := longWord_toNat opc ext f
  rw [longFields, twoParcels_join]
  generalize longWord opc ext f = x at hx ⊢
  rw [extractLsb'_eq_of_toNat (y := f.md) (by omega), getLsbD_eq_of_toNat (b := f.gn) (by omega), extractLsb'_eq_of_toNat (y := f.gp) (by omega),
    extractLsb'_eq_of_toNat (y := f.c) (by omega), extractLsb'_eq_of_toNat (y := f.b) (by omega), extractLsb'_eq_of_toNat (y := f.a) (by omega),
    getLsbD_eq_of_toNat (b := f.nowb) (by omega), extractLsb'_eq_of_toNat (y := f.dst) (by omega)]

/-- The opcode and the low two bits stand in the first parcel. -/
theorem opcode_append (w0 w1 : Word) : (w1 ++ w0 : DWord).extractLsb' 2 10 = w0.extractLsb' 2 10 ∧ (w1 ++ w0 : DWord).toNat % 4 = lengthCode w0 := by
  refine ⟨extractLsb'_eq_of_toNat ?_, ?_⟩
  · rw [twoParcels_toNat, extractLsb'_toNat_div]
    omega
  · rw [twoParcels_toNat, lengthCode]
    omega

theorem longWord_longFields (w0 w1 : Word) (lit : Option Word) (ext : Bool) (h : lengthCode w0 = 1 + ext.toNat) :
    longWord (w0.extractLsb' 2 10) ext (longFields w0 w1 lit) = w1 ++ w0 := by
  obtain ⟨hopc, hcode⟩ := opcode_append w0 w1
  rw [← hopc, longFields]
  generalize (w1 ++ w0 : DWord) = x at hcode ⊢
  apply BitVec.eq_of_toNat_eq
  rw [h] at hcode
  simp only [longWord_toNat, extractLsb'_toNat_div, getLsbD_toNat]
  omega

theorem twoParcels_split (w0 w1 : Word) : (w1 ++ w0 : DWord).extractLsb' 0 32 = w0 ∧ (w1 ++ w0 : DWord).extractLsb' 32 32 = w1 :=
  ⟨extractLsb'_eq_of_toNat (by rw [twoParcels_toNat]; omega), extractLsb'_eq_of_toNat (by rw [twoParcels_toNat]; omega)⟩

end Sys2Proof
end

section
/-! SUPPORT. The tables of Tables 6.10 and 6.11 and the code of each instruction agree (R124, R125); what parcels decode to is what their form stands
for (R112). -/

namespace Sys2Proof

/-- The instruction that a form stands for (Tables 6.10, 6.11). -/
def Form.instr : Form → Option Instr
  | .long opc f => longInstr opc.toNat f
  | .short sop f => shortInstr sop.toNat f
  | .device => none

/-- An instruction's code leads to it: for the two pairs that share a code, by the form bit (R195, R228). -/
theorem form_instr (i : Instr) (hwf : i.wf = true) : i.form.instr = if i.form = .device then none else some i := by
  cases i with
  | pcopy f =>
    have hform : f.form = false := by simpa [Instr.wf] using hwf
    simp [Instr.form, Form.instr, longInstr, longGroups, engineGroup, hform]
  | pcopyR f =>
    have hform : f.form = true := hwf
    simp [Instr.form, Form.instr, longInstr, longGroups, engineGroup, hform]
  | chrun f =>
    have hform : f.form = false := by simpa [Instr.wf] using hwf
    simp [Instr.form, Form.instr, longInstr, longGroups, matrixGroup, hform]
  | chrunTile f =>
    have hform : f.form = true := hwf
    simp [Instr.form, Form.instr, longInstr, longGroups, matrixGroup, hform]
  | _ => rfl

/-- The entries of a list carry the codes from `n` on, one after another. -/
def Coded {α : Type} (form : Nat → α → Form) (n : Nat) : List (α → Instr) → Prop
  | [] => True
  | k :: ks => (∀ f, (k f).wf = true ∧ (k f).form = form n f) ∧ Coded form (n + 1) ks

theorem Coded.at {α : Type} {form : Nat → α → Form} {ks : List (α → Instr)} {n j : Nat} {k : α → Instr} (h : Coded form n ks)
    (hk : ks[j]? = some k) (f : α) : (k f).wf = true ∧ (k f).form = form (n + j) f := by
  induction ks generalizing n j with
  | nil => simp at hk
  | cons x ks ih =>
    obtain ⟨hx, hks⟩ := h
    cases j with
    | zero =>
      cases hk
      exact hx f
    | succ j =>
      rw [show n + (j + 1) = n + 1 + j by omega]
      exact ih hks hk

/-- The long and the short form of a code. -/
def longForm (n : Nat) (f : Long) : Form := .long (BitVec.ofNat 10 n) f
def shortForm (n : Nat) (f : Short) : Form := .short (BitVec.ofNat 6 n) f

theorem engineGroup_coded : Coded longForm 0x140 engineGroup := by
  refine ⟨fun _ => ⟨rfl, rfl⟩, fun _ => ⟨rfl, rfl⟩, fun f => ?_, fun _ => ⟨rfl, rfl⟩, fun _ => ⟨rfl, rfl⟩, fun _ => ⟨rfl, rfl⟩, trivial⟩
  cases hform : f.form <;> simp [Instr.wf, Instr.form, longForm, hform]

theorem matrixGroup_coded : Coded longForm 0x180 matrixGroup := by
  refine ⟨fun _ => ⟨rfl, rfl⟩, fun _ => ⟨rfl, rfl⟩, fun _ => ⟨rfl, rfl⟩, fun _ => ⟨rfl, rfl⟩, fun _ => ⟨rfl, rfl⟩, fun f => ?_, fun _ => ⟨rfl, rfl⟩,
    trivial⟩
  cases hform : f.form <;> simp [Instr.wf, Instr.form, longForm, hform]

theorem longGroups_coded (g : Nat) (ks : List (Long → Instr)) (h : longGroups[g]? = some ks) : Coded longForm (32 * g) ks := by
  have hg : g < 15 := (List.getElem?_eq_some_iff.mp h).1
  interval_cases g <;> cases h
  all_goals simp [↓engineGroup_coded, ↓matrixGroup_coded, Coded, controlGroup, uniformGroup, integerGroup, addressGroup, fp32Group, packedGroup,
    conversionGroup, laneGroup, poolGroup, globalGroup, dramGroup, syncGroup, systemGroup, Instr.wf, Instr.form, longForm]

theorem longInstr_coded {n : Nat} {f : Long} {i : Instr} (h : longInstr n f = some i) : i.wf = true ∧ i.form = longForm n f := by
  unfold longInstr at h
  split at h
  · cases h
  · next ks hks =>
    obtain ⟨k, hk, rfl⟩ := Option.map_eq_some_iff.mp h
    rw [← Nat.div_add_mod n 32]
    exact (longGroups_coded _ ks hks).at hk f

theorem shortInstr_coded {n : Nat} {f : Short} {i : Instr} (h : shortInstr n f = some i) : i.wf = true ∧ i.form = shortForm n f := by
  have hcoded : Coded shortForm 0 (shortTable0 ++ shortTable1 ++ shortTable2 ++ shortTable3) := by
    simp [Coded, shortTable0, shortTable1, shortTable2, shortTable3, Instr.wf, Instr.form, shortForm]
  obtain ⟨k, hk, rfl⟩ := Option.map_eq_some_iff.mp h
  rw [← Nat.zero_add n]
  exact hcoded.at hk f

/-- What a form stands for is well-formed and has that form. -/
theorem instr_form {fm : Form} {i : Instr} (h : fm.instr = some i) : i.wf = true ∧ i.form = fm := by
  cases fm with
  | long opc f => simpa only [longForm, BitVec.ofNat_toNat, BitVec.setWidth_eq] using longInstr_coded h
  | short sop f => simpa only [shortForm, BitVec.ofNat_toNat, BitVec.setWidth_eq] using shortInstr_coded h
  | device => cases h

/-! Parcels and forms. -/

theorem decodeParcels_short {sop : BitVec 6} {f : Short} {i : Instr} (h : shortInstr sop.toNat f = some i) (rest : List Word) :
    decodeParcels (shortWord sop f :: rest) = .ok (i, rest) := by
  simp only [decodeParcels, lengthCode_shortWord, sop_shortWord, shortFields_shortWord, h]

theorem decodeParcels_long {opc : BitVec 10} {f : Long} {i : Instr} (h : longInstr opc.toNat f = some i) (rest : List Word) :
    decodeParcels ((Form.long opc f).parcels ++ rest) = .ok (i, rest) := by
  have hfields := longFields_longWord opc f.lit.isSome f
  cases hlit : f.lit with
  | none =>
    rw [hlit] at hfields
    simp only [Form.parcels, hlit, decodeParcels, lengthCode_longWord, opcOf_longWord, Option.isSome_none, Bool.toNat_false, Option.toList_none,
      List.append_nil, List.cons_append, List.nil_append] at hfields ⊢
    rw [hfields, h]
  | some l =>
    rw [hlit] at hfields
    simp only [Form.parcels, hlit, decodeParcels, lengthCode_longWord, opcOf_longWord, Option.isSome_some, Bool.toNat_true, Option.toList_some,
      List.cons_append, List.nil_append] at hfields ⊢
    rw [hfields, h]

/-- The parcels of a long form are those that its fields were read from. -/
theorem long_parcels (w0 w1 : Word) (lit : Option Word) (h : lengthCode w0 = 1 + lit.isSome.toNat) :
    (Form.long (w0.extractLsb' 2 10) (longFields w0 w1 lit)).parcels = w0 :: w1 :: lit.toList := by
  obtain ⟨hlow, hhigh⟩ := twoParcels_split w0 w1
  change [(longWord _ lit.isSome (longFields w0 w1 lit)).extractLsb' 0 32, (longWord _ lit.isSome (longFields w0 w1 lit)).extractLsb' 32 32] ++
    lit.toList = _
  rw [longWord_longFields w0 w1 lit lit.isSome h, hlow, hhigh]
  rfl

/-- Parcels decode to an instruction exactly where they are those of a form that stands for it, and the parcels left over. -/
theorem decodeParcels_iff {ps rest : List Word} {i : Instr} :
    decodeParcels ps = .ok (i, rest) ↔ ∃ fm : Form, fm.instr = some i ∧ fm.parcels ++ rest = ps := by
  constructor
  · intro h
    unfold decodeParcels at h
    split at h
    · cases h
    · next w t =>
      split at h
      · next hcode =>
        split at h
        · next j hj =>
          cases h
          exact ⟨.short (w.extractLsb' 2 6) (shortFields w), hj, by rw [Form.parcels, shortWord_shortFields w hcode]; rfl⟩
        · cases h
      · next hcode =>
        split at h
        · next w1 t =>
          split at h
          · next j hj =>
            cases h
            exact ⟨.long (w.extractLsb' 2 10) (longFields w w1 none), hj, by rw [long_parcels w w1 none hcode]; rfl⟩
          · cases h
        · cases h
      · next hcode =>
        split at h
        · next w1 l t =>
          split at h
          · next j hj =>
            cases h
            exact ⟨.long (w.extractLsb' 2 10) (longFields w w1 (some l)), hj, by rw [long_parcels w w1 (some l) hcode]; rfl⟩
          · cases h
        · cases h
      · cases h
  · rintro ⟨fm, hi, rfl⟩
    cases fm with
    | long opc f => exact decodeParcels_long hi rest
    | short sop f => exact decodeParcels_short hi rest
    | device => cases hi

end Sys2Proof
end

section
/-! SUPPORT. Which codes are assigned (R124, R125), and what a turn does at parcels that do not decode (R111, R357). -/

namespace Sys2Proof

theorem groupSizes_eq : Machine.groupSizes = longGroups.map List.length := rfl

theorem longInstr_isSome (opc : Nat) (f : Long) : (longInstr opc f).isSome = true ↔ opc % 32 < Machine.groupSizes.getD (opc / 32) 0 := by
  rw [groupSizes_eq, List.getD_eq_getElem?_getD, List.getElem?_map, longInstr]
  cases longGroups[opc / 32]? with
  | none => simp
  | some g => simp

/-- Whether a long opcode is assigned does not depend on the fields. -/
theorem longInstr_none {opc : Nat} {f : Long} (h : longInstr opc f = none) (g : Long) : longInstr opc g = none := by
  have hf : ¬ (longInstr opc f).isSome = true := by simp [h]
  rw [longInstr_isSome, ← longInstr_isSome opc g] at hf
  simpa using hf

theorem shortInstr_isSome {sop : Nat} (f : Short) (h : sop < 64) : (shortInstr sop f).isSome = true := by
  have hlen : sop < (shortTable0 ++ shortTable1 ++ shortTable2 ++ shortTable3).length := h
  rw [shortInstr, List.getElem?_eq_getElem hlen]
  rfl

theorem decodeParcels_reserved {w : Word} {f : Long} (hcode : lengthCode w = 1) (h : longInstr (opcOf w) f = none) (w1 : Word) (rest : List Word) :
    decodeParcels (w :: w1 :: rest) = .error (.opcode (opcOf w)) := by
  simp only [decodeParcels, hcode, longInstr_none h]

namespace Machine

/-- A turn at parcels that do not decode, where no breakpoint stops it: the illegal-encoding fault in every lane of the group. -/
theorem turn_rejected {u : State} {c q n : Nat} {w : Warp} {r : Run} {e : Reject} (hat : warpAt u c q n = some w)
    (hrun : (focus u w.uid).cur.run = some r) (hbreak : breakLanes (focus u w.uid) (focus u w.uid).cur r = 0)
    (hdec : decodeParcels r.body = .error e) :
    turn c q n u = .next (preciseFault (focus u w.uid) r
      { cause := 0x02, info0 := 1, info1 := 2, aux := r.body.getD 1 0 ++ r.body.getD 0 0
        addr := if lengthCode (r.body.getD 0 0) = 2 then (r.body.getD 2 0).setWidth 64 else 0 }) := by
  simp only [turn, hat, runItem, hrun, hdec, badOpcode, hbreak, ne_eq, not_true_eq_false, if_false]

end Machine
end Sys2Proof
end

section
/-! SUPPORT. Fetch (R105): filling the sectors of a read changes no byte that a read returns, so that a parcel fetched is one of the values that
stand for it; the parcels of a run are fetched one after another. -/

namespace Sys2Proof.Machine

/-- The same bytes at their homes, the same earlier ones, the same marks of invalidation: what parcels are read from (R55, R105). -/
structure SameCode (s u : State) : Prop where
  byte : ∀ pa, homeByte u pa = homeByte s pa
  hist : u.hist = s.hist
  icache : u.icache = s.icache

theorem SameCode.refl (s : State) : SameCode s s := ⟨fun _ => rfl, rfl, rfl⟩

theorem SameCode.trans {s t u : State} (h : SameCode s t) (k : SameCode t u) : SameCode s u :=
  ⟨fun pa => (k.byte pa).trans (h.byte pa), k.hist.trans h.hist, k.icache.trans h.icache⟩

/-- The sectors valid after a fill: those before, and the one filled. -/
theorem sectorValid_fillSector {s : State} {pa : Nat} (h : sectorValid s pa = false) (x : Nat) :
    sectorValid (fillSector s pa) x = (sectorValid s x || decide (x / 32 = pa / 32)) := by
  unfold fillSector fillWith
  rw [if_neg (by simp [h])]
  simp only [sectorValid, lineOf, nget_nset]
  by_cases hline : x / 256 = pa / 256
  · rw [if_pos hline, hline, BitVec.getLsbD_or]
    have hbit : (1#8 <<< (pa / 32 % 8)).getLsbD (x / 32 % 8) = decide (x / 32 = pa / 32) := by
      rw [← BitVec.twoPow_eq, BitVec.getLsbD_twoPow]
      have : x / 32 % 8 < 8 := Nat.mod_lt _ (by omega)
      rw [Bool.eq_iff_iff]
      simp only [Bool.and_eq_true, decide_eq_true_eq]
      omega
    rw [hbit]
  · rw [if_neg hline]
    have : ¬ x / 32 = pa / 32 := by omega
    simp [this]

/-- The bytes in the slices after a fill: in its sector those of memory. -/
theorem l2b_fillSector {s : State} {pa : Nat} (h : sectorValid s pa = false) (x : Nat) :
    nget 0 (fillSector s pa).l2b x = if x / 32 = pa / 32 then nget 0 s.dram x else nget 0 s.l2b x := by
  unfold fillSector fillWith
  rw [if_neg (by simp [h])]
  simp only [nget_nsetRange, ngetRange, List.length_map, List.length_range]
  by_cases hx : x / 32 = pa / 32
  · have hin : pa / 32 * 32 ≤ x ∧ x < pa / 32 * 32 + 32 := by omega
    have hat : x - pa / 32 * 32 < 32 := by omega
    rw [if_pos hin, if_pos hx, List.getD_eq_getElem _ _ (by simpa using hat), List.getElem_map, List.getElem_range]
    congr 1
    omega
  · have hout : ¬ (pa / 32 * 32 ≤ x ∧ x < pa / 32 * 32 + 32) := by omega
    rw [if_neg hout, if_neg hx]

/-- A sector that comes to its slice brings the bytes that memory holds (R55). -/
theorem SameCode.fillSector (s : State) (pa : Nat) : SameCode s (fillSector s pa) := by
  cases hvalid : sectorValid s pa with
  | true =>
    have hkept : Machine.fillSector s pa = s := by
      unfold Machine.fillSector fillWith
      rw [if_pos hvalid]
    rw [hkept]
    exact .refl s
  | false =>
    have hrest : (Machine.fillSector s pa).host = s.host ∧ (Machine.fillSector s pa).peer = s.peer ∧ (Machine.fillSector s pa).dram = s.dram ∧
        (Machine.fillSector s pa).hist = s.hist ∧ (Machine.fillSector s pa).icache = s.icache := by
      unfold Machine.fillSector fillWith
      rw [if_neg (by simp [hvalid])]
      exact ⟨rfl, rfl, rfl, rfl, rfl⟩
    obtain ⟨hhost, hpeer, hdram, hhist, hicache⟩ := hrest
    refine ⟨fun x => ?_, hhist, hicache⟩
    unfold homeByte
    rw [hhost, hpeer, hdram, sectorValid_fillSector hvalid, l2b_fillSector hvalid]
    split
    · rfl
    · rfl
    · by_cases hx : x / 32 = pa / 32
      · have hold : sectorValid s x = false := by
          have hline : x / 256 = pa / 256 := by omega
          rw [← hvalid, sectorValid, sectorValid, lineOf, lineOf, hx, hline]
        simp [hx, hold]
      · simp [hx]

theorem SameCode.foldl {α : Type} {f : State → α → State} (hf : ∀ s x, SameCode s (f s x)) (l : List α) (s : State) : SameCode s (l.foldl f s) := by
  induction l generalizing s with
  | nil => exact .refl s
  | cons x l ih => exact (hf s x).trans (ih (f s x))

theorem SameCode.fillBytes (s : State) (pa n : Nat) : SameCode s (fillBytes s pa n) := by
  have hreach : SameCode s (reachHome s pa n) := by
    rcases reachHome_cases s pa n with h | h
    · rw [h]
      exact .refl s
    · rw [h]
      exact ⟨fun _ => rfl, rfl, rfl⟩
  unfold Machine.fillBytes
  dsimp only
  split
  · exact hreach.trans (.foldl (fun s k => .fillSector s _) _ _)
  · exact hreach

theorem SameCode.parcelValues {s u : State} (h : SameCode s u) (core pa : Nat) : parcelValues u core pa = parcelValues s core pa := by
  have hbyte : homeByte u = homeByte s := funext h.byte
  unfold Machine.parcelValues homeNat homeBytes byteBefore
  rw [hbyte, h.hist, h.icache]

theorem parcelValues_length_pos (s : State) (core pa : Nat) : 0 < (parcelValues s core pa).length := by
  unfold parcelValues
  dsimp only
  rw [List.eraseDups_cons]
  exact Nat.succ_pos _

theorem choose_lt (s : State) {n : Nat} (h : 0 < n) : (choose s n).1 < n := by
  unfold choose
  split
  · exact h
  · exact Nat.mod_lt _ h

/-- A parcel that is fetched stands at the address that its page gives, or stood there since the last invalidation (R105). -/
theorem codeParcel_value {s t : State} {core ten va : Nat} {w : Word} (h : codeParcel s core ten va = (.ok w, t)) :
    ∃ pa u, fetchAddr s (coreShelf core) ten (va % 2 ^ 60) = (.ok pa, u) ∧ w ∈ parcelValues u core pa := by
  unfold codeParcel at h
  split at h
  · cases h
  · next pa u hpage =>
    refine ⟨pa, u, hpage, ?_⟩
    rw [← (SameCode.fillBytes u pa 4).parcelValues core pa]
    dsimp only at h
    split at h
    · next x hx =>
      cases h
      rw [hx]
      exact List.mem_singleton.mpr rfl
    · cases h
      have hk := choose_lt (fillBytes u pa 4) (parcelValues_length_pos (fillBytes u pa 4) core pa)
      rw [List.getD_eq_getElem _ _ hk]
      exact List.getElem_mem hk

/-- A run of parcels is its first and the run after it. -/
theorem fetchParcels_cons {s t : State} {core ten n va : Nat} {w : Word} {ws : List Word}
    (h : fetchParcels core ten (n + 1) va s = (.ok (w :: ws), t)) :
    ∃ u, codeParcel s core ten (va % 2 ^ 60) = (.ok w, u) ∧ fetchParcels core ten n (va + 4) u = (.ok ws, t) := by
  unfold fetchParcels at h
  split at h
  · cases h
  · next x u hfirst =>
    split at h
    · next xs v hrest =>
      cases h
      exact ⟨u, hfirst, hrest⟩
    · cases h

theorem fetchParcels_length {s t : State} {core ten n va : Nat} {ws : List Word} (h : fetchParcels core ten n va s = (.ok ws, t)) : ws.length = n := by
  induction n generalizing s va ws with
  | zero =>
    cases h
    rfl
  | succ n ih =>
    cases ws with
    | nil =>
      unfold fetchParcels at h
      split at h
      · cases h
      · split at h <;> cases h
    | cons w ws =>
      obtain ⟨u, -, hrest⟩ := fetchParcels_cons h
      rw [List.length_cons, ih hrest]

/-- The header's two parcels side by side. The factor is a variable, for the power that the model writes to be met as it stands there. -/
theorem header_append {n : Nat} (hn : n = 2 ^ 32) (w0 w1 : Word) : dw (w0.toNat + w1.toNat * n) = w1 ++ w0 := by
  subst hn
  apply BitVec.eq_of_toNat_eq
  rw [twoParcels_toNat]
  simp only [dw, BitVec.toNat_ofNat]
  omega

/-- A clause that is fetched: its header is the two parcels at its address, its body the parcels after it (R105, R106, R110). -/
theorem fetchClause_clause {s t : State} {core ten va : Nat} {hdr : DWord} {body : List Word}
    (h : fetchClause s core ten va = (.clause hdr body, t)) :
    ∃ ws u, fetchParcels core ten 2 va s = (.ok ws, u) ∧ lengthCode (ws.getD 0 0) = 3 ∧ hdr = ws.getD 1 0 ++ ws.getD 0 0 ∧
      fetchParcels core ten (fld hdr 11 6) (va + 8) u = (.ok body, t) := by
  unfold fetchClause at h
  split at h
  · cases h
  · next ws u hhdr =>
    dsimp only at h
    rw [header_append (by norm_num)] at h
    split at h
    · cases h
    · next hcode =>
      split at h
      · cases h
      · split at h
        · cases h
        · next bs v hbody =>
          split at h
          · cases h
          · cases h
            exact ⟨ws, u, hhdr, not_not.mp hcode, rfl, hbody⟩

end Sys2Proof.Machine
end

section
/-! SUPPORT. The rows of the integer, compare, address, predicate and uniform instructions (R146 to R155), each shape once: an instruction that the
shared operation of its row issues completes with the row's result. -/

namespace Sys2Proof.Machine

section Shapes
variable {i : Instr} {it : Item} {ts : List VT} {pair : Bool} {bads : List Bad}

theorem vecRow_completes {val : State → Warp → Run → Nat → Nat} (hi : ∀ s, exec i s = aluOp false it ts pair bads val s) :
    (vecRow i it ts pair bads val).Completes :=
  row_completes _ fun s => (hi s).trans (by simp only [aluOp, vecRow, Bool.false_eq_true, if_false])

/-- A uniform result is that of lane 0 (R146). -/
theorem uniRow_completes (val : State → Warp → Run → Nat → Nat) (hi : ∀ s, exec i s = aluOp true it ts pair bads val s) :
    (uniRow i it ts pair bads fun s w r => val s w r 0).Completes :=
  row_completes _ fun s => (hi s).trans (by simp only [aluOp, uniRow, if_true])

theorem predRow_completes {val : State → Warp → Run → Nat → Bool} (hi : ∀ s, exec i s = predOp false it ts bads val s) :
    (predRow i it ts bads val).Completes :=
  row_completes _ fun s => (hi s).trans (by simp only [predOp, predRow, Bool.false_eq_true, if_false])

theorem qRow_completes (val : State → Warp → Run → Nat → Bool) (hi : ∀ s, exec i s = predOp true it ts bads val s) :
    (qRow i it ts bads fun s w r => val s w r 0).Completes :=
  row_completes _ fun s => (hi s).trans (by simp only [predOp, qRow, if_true])

end Shapes

/-! The families of rows. -/

section Families
variable {i : Instr} {it : Item}

theorem arithRow_completes {sat : Bool} {g : Int → Int → Int} (hi : ∀ s, exec i s = arith2 false sat it g s) : (arithRow i it sat g).Completes :=
  vecRow_completes hi

theorem high32Row_completes (hi : ∀ s, exec i s = mulHighOp it s) : (high32Row i it).Completes := vecRow_completes hi

theorem triple32Row_completes {g : Int → Int → Int → Int}
    (hi : ∀ s, exec i s = aluOp false it [vtOf it.ty, vtOf it.ty, vtOf it.ty] false (commonBads it [2, 6] 0)
      (fun s w r l => putInt it.ty false (g (intA it s w r l) (intB it s w r l) (intC it s w r l))) s) :
    (triple32Row i it g).Completes := vecRow_completes hi

theorem minRow_completes (hi : ∀ s, exec i s = minMaxOp true it s) : (pickRow i it min).Completes := vecRow_completes hi

theorem maxRow_completes (hi : ∀ s, exec i s = minMaxOp false it s) : (pickRow i it max).Completes := vecRow_completes hi

theorem absRow_completes (hi : ∀ s, exec i s = absOp it s) : (absRow i it).Completes := vecRow_completes hi

theorem shiftRow_completes {kind : Nat} {types : List Nat} (hi : ∀ s, exec i s = shiftOp false it kind types s) :
    (shiftRow i it kind types).Completes := vecRow_completes hi

theorem lutRow_completes (hi : ∀ s, exec i s = logicShort it s) : (lutRow i it).Completes := vecRow_completes hi

theorem countRow_completes {g : Nat → Nat → Nat} (hi : ∀ s, exec i s = countOp g it s) : (oneRow i it false g).Completes := vecRow_completes hi

theorem reverseRow_completes (hi : ∀ s, exec i s = reverseOp it s) : (oneRow i it (vtOf it.ty).pair brevN).Completes := vecRow_completes hi

theorem sArithRow_completes {sat : Bool} {g : Int → Int → Int} (hi : ∀ s, exec i s = arith2 true sat it g s) : (sArithRow i it sat g).Completes :=
  uniRow_completes (fun s w r l => putInt it.ty (sat && it.mb 52) (g (intA it s w r l) (intB it s w r l))) hi

theorem sBitRow_completes {g : Nat → Nat → Nat} (hi : ∀ s, exec i s = bit2 true it g s) : (sBitRow i it g).Completes :=
  uniRow_completes (fun s w r l => g (bitA it s w r l) (bitB it s w r l)) hi

theorem sShiftRow_completes {kind : Nat} {types : List Nat} (hi : ∀ s, exec i s = shiftOp true it kind types s) :
    (sShiftRow i it kind types).Completes :=
  uniRow_completes (fun s w r l => shiftVal kind (tyWidth it.ty) (bitA it s w r l) (numOf it .b s w r l) (it.mb 52)) hi

theorem sMoveRow_completes (hi : ∀ s, exec i s = moveOp true it s) : (sMoveRow i it).Completes :=
  uniRow_completes (fun s w r l => bitA it s w r l) hi

theorem sMadRow_completes (hi : ∀ s, exec i s = uniformMad it s) :
    (uniRow i it [vtOf it.ty, vtOf it.ty, vtOf it.ty] (vtOf it.ty).pair (commonBads it [2, 3, 6, 7] 0) fun s w r =>
      putInt it.ty false (intA it s w r 0 * intB it s w r 0 + intC it s w r 0)).Completes :=
  uniRow_completes (fun s w r l => putInt it.ty false (intA it s w r l * intB it s w r l + intC it s w r l)) hi

theorem sCompareRow_completes (hi : ∀ s, exec i s = compareOp true it s) :
    (qRow i it [vtOf it.ty, vtOf it.ty] (compareBads it) fun s w r => compareInt (it.m 58 56) (intA it s w r 0) (intB it s w r 0)).Completes :=
  qRow_completes (fun s w r l => compareInt (it.m 58 56) (intA it s w r l) (intB it s w r l)) hi

/-- ISEL selects by a predicate of the lane (R152). -/
theorem selectRow_completes (hi : ∀ s, exec i s = selectOp false it s) :
    (vecRow i it [vtOf it.ty, vtOf it.ty] (vtOf it.ty).pair (selectBads it) fun s w r l =>
      if it.mb 55 != pget w (it.m 54 52) l then bitA it s w r l else bitB it s w r l).Completes :=
  vecRow_completes fun s => (hi s).trans (by simp only [selectOp, Bool.false_eq_true, if_false]; rfl)

/-- SSEL selects by a uniform predicate (R152). -/
theorem sSelectRow_completes (hi : ∀ s, exec i s = selectOp true it s) :
    (uniRow i it [vtOf it.ty, vtOf it.ty] (vtOf it.ty).pair (selectBads it) fun s w r =>
      if it.mb 55 != qget w (it.m 54 52) then bitA it s w r 0 else bitB it s w r 0).Completes :=
  uniRow_completes (fun s w r l => if it.mb 55 != qget w (it.m 54 52) then bitA it s w r l else bitB it s w r l)
    fun s => (hi s).trans (by simp only [selectOp, if_true]; rfl)

end Families

/-! The tables of rows. -/

theorem arithmeticRows_complete (f : Long) (g : Short) : ∀ e ∈ arithmeticRows f g, e.Completes := by
  simp only [arithmeticRows, List.forall_mem_cons]
  exact ⟨arithRow_completes fun _ => rfl, arithRow_completes fun _ => rfl, arithRow_completes fun _ => rfl, arithRow_completes fun _ => rfl,
    arithRow_completes fun _ => rfl, arithRow_completes fun _ => rfl, vecRow_completes fun _ => rfl, high32Row_completes fun _ => rfl,
    high32Row_completes fun _ => rfl, high32Row_completes fun _ => rfl, triple32Row_completes fun _ => rfl, triple32Row_completes fun _ => rfl,
    vecRow_completes fun _ => rfl, minRow_completes fun _ => rfl, minRow_completes fun _ => rfl, minRow_completes fun _ => rfl,
    maxRow_completes fun _ => rfl, maxRow_completes fun _ => rfl, maxRow_completes fun _ => rfl, absRow_completes fun _ => rfl,
    absRow_completes fun _ => rfl, List.forall_mem_nil _⟩

theorem bitRows_complete (f : Long) (g : Short) : ∀ e ∈ bitRows f g, e.Completes := by
  simp only [bitRows, List.forall_mem_cons]
  exact ⟨shiftRow_completes fun _ => rfl, shiftRow_completes fun _ => rfl, shiftRow_completes fun _ => rfl, shiftRow_completes fun _ => rfl,
    shiftRow_completes fun _ => rfl, shiftRow_completes fun _ => rfl, vecRow_completes fun _ => rfl, vecRow_completes fun _ => rfl,
    lutRow_completes fun _ => rfl, lutRow_completes fun _ => rfl, lutRow_completes fun _ => rfl, countRow_completes fun _ => rfl,
    countRow_completes fun _ => rfl, countRow_completes fun _ => rfl, countRow_completes fun _ => rfl, reverseRow_completes fun _ => rfl,
    reverseRow_completes fun _ => rfl, vecRow_completes fun _ => rfl, vecRow_completes fun _ => rfl, List.forall_mem_nil _⟩

theorem chooseRows_complete (f : Long) : ∀ e ∈ chooseRows f, e.Completes := by
  simp only [chooseRows, List.forall_mem_cons]
  exact ⟨predRow_completes fun _ => rfl, selectRow_completes fun _ => rfl, sCompareRow_completes fun _ => rfl, sSelectRow_completes fun _ => rfl,
    vecRow_completes fun _ => rfl, vecRow_completes fun _ => rfl, List.forall_mem_nil _⟩

/-- PSET and PLOP write a predicate of each active lane, or the uniform one (R155). -/
theorem predicateRows_complete (f : Long) : ∀ e ∈ predicateRows f, e.Completes := by
  simp only [predicateRows, List.forall_mem_cons]
  exact ⟨row_completes _ fun _ => rfl, row_completes _ fun _ => rfl, List.forall_mem_nil _⟩

theorem uniformRows_complete (f : Long) (g : Short) : ∀ e ∈ uniformRows f g, e.Completes := by
  simp only [uniformRows, List.forall_mem_cons]
  exact ⟨sMoveRow_completes fun _ => rfl, sMoveRow_completes fun _ => rfl, sArithRow_completes fun _ => rfl, sArithRow_completes fun _ => rfl,
    sArithRow_completes fun _ => rfl, sArithRow_completes fun _ => rfl, sArithRow_completes fun _ => rfl, sArithRow_completes fun _ => rfl,
    sMadRow_completes fun _ => rfl,
    sBitRow_completes fun _ => rfl, sBitRow_completes fun _ => rfl, sBitRow_completes fun _ => rfl, sBitRow_completes fun _ => rfl,
    sBitRow_completes fun _ => rfl, sBitRow_completes fun _ => rfl, sShiftRow_completes fun _ => rfl, sShiftRow_completes fun _ => rfl,
    sShiftRow_completes fun _ => rfl, sShiftRow_completes fun _ => rfl, sShiftRow_completes fun _ => rfl, List.forall_mem_nil _⟩

end Sys2Proof.Machine
end

section
/-! SUPPORT. The transfers where every target is a place that a transfer may go to (R106, R138, R139). -/

namespace Sys2Proof.Machine

/-- What a transfer does where its checks pass. -/
def transferDo (it : Item) (lit link ret : Bool) (s : State) (w : Warp) (r : Run) : State :=
  let go := activeLanes w r it
  let tgt := fun l => if lit then literalTarget r it else dw (operand s w r it (.int 64 false) .a l)
  match firstBadTarget tgt (lanesOf go) s with
  | (some (l, k), s) => targetFault s r it (tgt l) l k
  | (none, s) =>
    afterStops
      (endClause { s with cur := linkWarp s.cur go r it link ret } (advance r it) fun l =>
        if lon go l then dw ((tgt l).toNat % 2 ^ 60) else dw (fallThrough r)) r false (ret && go != 0)

theorem transferOp_issues (it : Item) (lit link ret : Bool) (s : State) :
    transferOp lit link ret it s = issue it (fun _ _ _ => transferNeeds it lit link) s (transferDo it lit link ret) := rfl

theorem transfer_completes {i : Instr} {it : Item} {lit link ret : Bool} (hi : ∀ s, exec i s = transferOp lit link ret it s) :
    transferCompletes i it lit link ret := by
  intro s r s' hready go tgt hgood
  rw [hi, transferOp_issues, issue_ready it _ s _ r hready]
  simp only [transferDo]
  rw [hgood]

end Sys2Proof.Machine
end

section
/-! SUPPORT. The short DADD whose B7 names a latch (R162) beside its row, which does not ask about B7: its fault takes a SEQ, and where its destination
is odd as well, the row would report that instead. -/

namespace Sys2Proof.Machine

theorem latchedDadd_quiet : Quiet latchedDadd := ⟨by decide +kernel, by decide +kernel, by decide +kernel, by decide +kernel⟩

/-- The fault's record takes a SEQ of the module (R352). -/
theorem latchedDadd_seq : (badTrap latchedDadd latchedRun daddItem ⟨false, 1, 0x40⟩).seq ≠ latchedDadd.seq := by decide +kernel

/-- DADD.f64 v5 = v2 + b0, short. -/
def oddDadd : Short := { daddOfLatch with dst := 5 }

def oddItem : Item := shortItem 0x23 false 0x500 oddDadd

/-- Its clause, with a capture in b0. -/
def oddRun : Run := { capture (fetchRun [shortWord 0x23 oddDadd]) { uni := false, vals := [] } with slot := 1 }

/-- A warp at that instruction. -/
def atOddDadd : State :=
  let s := State.reset.withFetchWord 32 (shortWord 0x23 oddDadd).toNat
  { s with cur := { s.cur with run := some oddRun } }

/-- The row of the short DADD for it. -/
def oddRow : Row := roundRow (.daddShort oddDadd) oddItem [0x0A] 2 fun m a b _ => addFV m a b

theorem oddRow_mem (f : Long) : oddRow ∈ floatRows f oddDadd :=
  List.mem_append_left _ (List.mem_append_left _ (List.mem_append_right _ (List.mem_of_getElem? (i := 9) rfl)))

/-- The row finds the odd destination (Table 20.4, subcode 2). -/
theorem oddRow_bad : firstBad (specBads atOddDadd atOddDadd.cur oddRun oddRow.it (oddRow.sp atOddDadd atOddDadd.cur oddRun)) = some ⟨false, 2, 5⟩ := by
  decide +kernel

/-- The instruction finds the latch first (subcode 1). -/
theorem oddDadd_faults : exec (.daddShort oddDadd) atOddDadd = .next (badTrap atOddDadd oddRun oddItem ⟨false, 1, 0x40⟩) := by
  rw [exec_daddShort]
  exact issue_bad oddItem (fun _ _ _ => daddNeeds oddItem) atOddDadd (daddDo oddItem) oddRun ⟨false, 1, 0x40⟩ rfl rfl
    (by decide +kernel) (by decide +kernel) (by decide +kernel) (.inr (by decide +kernel))

theorem oddDadd_records : badTrap atOddDadd oddRun oddItem ⟨false, 1, 0x40⟩ ≠ badTrap atOddDadd oddRun oddItem ⟨false, 2, 5⟩ := by decide +kernel

end Sys2Proof.Machine
end

section
/-! SUPPORT. That a step always answers a next state: each instruction is issued where a clause runs, each event answers by itself,
and all of the module's own work is one or the other (R111, R311). -/

namespace Sys2Proof.Machine

/-- An outcome that is a next state. -/
def Goes (o : Out) : Prop := ∃ t, o = .next t

section
variable {it : Item} {s : State} {r : Run} (h : s.cur.run = some r)
include h

theorem issue_goes {sp : State → Warp → Run → Spec} {k : State → Warp → Run → State} : Goes (issue it sp s k) := by
  unfold issue
  rw [h]
  dsimp only
  split
  · exact ⟨_, rfl⟩
  split
  · exact ⟨_, rfl⟩
  split
  · exact ⟨_, rfl⟩
  split
  · split
    · exact ⟨_, rfl⟩
    · exact ⟨_, rfl⟩
  · exact ⟨_, rfl⟩
  · exact ⟨_, rfl⟩

theorem badOpcode_goes : Goes (badOpcode s) := by
  unfold badOpcode
  rw [h]
  dsimp only
  split
  · exact ⟨_, rfl⟩
  · exact ⟨_, rfl⟩

theorem aluOp_goes {u : Bool} {ts : List VT} {pair : Bool} {bads : List Bad} {g : State → Warp → Run → Nat → Nat} :
    Goes (aluOp u it ts pair bads g s) := by
  unfold aluOp
  exact issue_goes h

theorem predOp_goes {u : Bool} {ts : List VT} {bads : List Bad} {g : State → Warp → Run → Nat → Bool} : Goes (predOp u it ts bads g s) := by
  unfold predOp
  exact issue_goes h

theorem fltOp_goes {ts : List VT} {pair : Bool} {bads : List Bad} {g : State → Warp → Run → Nat → Nat} : Goes (fltOp it ts pair bads g s) := by
  unfold fltOp
  exact issue_goes h

theorem laneOpKeeps_goes {keeps : Warp → Run → Lanes} {uses : List Use} {pair : Bool} {bads : List Bad} {extra : List (Nat × Nat)}
    {more : Warp → Run → Warp → Warp} {g : State → Warp → Run → Nat → Nat} : Goes (laneOpKeeps keeps it uses pair bads extra more g s) := by
  unfold laneOpKeeps
  exact issue_goes h

theorem laneOp_goes {uses : List Use} {pair : Bool} {bads : List Bad} {extra : List (Nat × Nat)}
    {more : Warp → Run → Warp → Warp} {g : State → Warp → Run → Nat → Nat} : Goes (laneOp it uses pair bads extra more g s) := by
  unfold laneOp
  exact laneOpKeeps_goes h

theorem cvtOp_goes {src : Nat} {bUse : List Use} {more : List Bad} : Goes (cvtOp src bUse more it s) := by
  unfold cvtOp
  exact issue_goes h

theorem transferOp_goes {lit link ret : Bool} : Goes (transferOp lit link ret it s) := by
  unfold transferOp
  exact issue_goes h

theorem exitOp_goes : Goes (exitOp it s) := by
  unfold exitOp
  exact issue_goes h

theorem yieldOp_goes : Goes (yieldOp it s) := by
  unfold yieldOp
  exact issue_goes h

theorem nopOp_goes : Goes (nopOp it s) := by
  unfold nopOp
  exact issue_goes h

theorem moveOp_goes {u : Bool} : Goes (moveOp u it s) := by
  unfold moveOp
  exact aluOp_goes h

theorem arith2_goes {u : Bool} {sat : Bool} {g : Int → Int → Int} : Goes (arith2 u sat it g s) := by
  unfold arith2
  exact aluOp_goes h

theorem bit2_goes {u : Bool} {g : Nat → Nat → Nat} : Goes (bit2 u it g s) := by
  unfold bit2
  exact aluOp_goes h

theorem shiftOp_goes {u : Bool} {kind : Nat} {types : List Nat} : Goes (shiftOp u it kind types s) := by
  unfold shiftOp
  exact aluOp_goes h

theorem compareOp_goes {u : Bool} : Goes (compareOp u it s) := by
  unfold compareOp
  exact predOp_goes h

theorem selectOp_goes {u : Bool} : Goes (selectOp u it s) := by
  unfold selectOp
  exact aluOp_goes h

theorem paramLoad_goes : Goes (paramLoad it s) := by
  unfold paramLoad
  exact issue_goes h

theorem mulHighOp_goes : Goes (mulHighOp it s) := by
  unfold mulHighOp
  exact aluOp_goes h

theorem minMaxOp_goes {least : Bool} : Goes (minMaxOp least it s) := by
  unfold minMaxOp
  exact aluOp_goes h

theorem absOp_goes : Goes (absOp it s) := by
  unfold absOp
  exact aluOp_goes h

theorem logicShort_goes : Goes (logicShort it s) := by
  unfold logicShort
  exact aluOp_goes h

theorem countOp_goes {g : Nat → Nat → Nat} : Goes (countOp g it s) := by
  unfold countOp
  exact aluOp_goes h

theorem reverseOp_goes : Goes (reverseOp it s) := by
  unfold reverseOp
  exact aluOp_goes h

theorem scalarOp_goes {types : List Nat} {n : Nat} {k : Kernel} : Goes (scalarOp types n k it s) := by
  unfold scalarOp
  exact fltOp_goes h

theorem minMaxF_goes {types : List Nat} {opx : Nat} {least : Item → Bool} : Goes (minMaxF types opx least it s) := by
  unfold minMaxF
  exact fltOp_goes h

theorem floatCompare_goes {types : List Nat} {ftz : Bool} : Goes (floatCompare types ftz it s) := by
  unfold floatCompare
  exact predOp_goes h

theorem packedOp_goes {n : Nat} {k : Kernel} : Goes (packedOp n k it s) := by
  unfold packedOp
  exact fltOp_goes h

theorem sfuOp_goes {types : List Nat} {rnd : Nat} {g : Fmt → Nat → Bool → Nat → FV → Nat} : Goes (sfuOp types rnd g it s) := by
  unfold sfuOp
  exact fltOp_goes h

theorem laneMove_goes : Goes (laneMove it s) := by
  unfold laneMove
  exact laneOp_goes h

theorem shflOp_goes : Goes (shflOp it s) := by
  unfold shflOp
  exact laneOp_goes h

theorem foldOp_goes {scan : Bool} : Goes (foldOp scan it s) := by
  unfold foldOp
  exact laneOp_goes h

theorem ldsOp_goes : Goes (ldsOp it s) := by
  unfold ldsOp
  exact issue_goes h

theorem stsOp_goes : Goes (stsOp it s) := by
  unfold stsOp
  exact issue_goes h

theorem atomgOp_goes {red : Bool} : Goes (atomgOp red it s) := by
  unfold atomgOp
  exact issue_goes h

theorem rowOp_goes {cp : Bool} : Goes (rowOp cp it s) := by
  unfold rowOp
  exact issue_goes h

theorem gridSyncOp_goes {kind : Nat} : Goes (gridSyncOp kind it s) := by
  unfold gridSyncOp
  exact issue_goes h

theorem rdsrOp_goes : Goes (rdsrOp it s) := by
  unfold rdsrOp
  exact issue_goes h

theorem pmovOp_goes {u : Bool} : Goes (pmovOp u it s) := by
  dsimp only [pmovOp]
  split
  · exact issue_goes h
  · exact aluOp_goes h

theorem voteOp_goes : Goes (voteOp it s) := by
  dsimp only [voteOp]
  split
  · exact laneOp_goes h
  · exact issue_goes h

/-- Each instruction where a clause runs: its shared operation, or its own, is issued. Where an operation takes functions, `exec` is unfolded first,
for the unifier to meet no match under them. -/
theorem exec_goes (i : Instr) : Goes (exec i s) := by
  cases i with
  | bra f | brx f | call f | callx f | ret f => exact transferOp_goes h
  | exit f | exitShort f => exact exitOp_goes h
  | rcv f => delta exec execRcv rcvOp; exact issue_goes h
  | yield f | yieldShort f => exact yieldOp_goes h
  | nop f | nopShort f => exact nopOp_goes h
  | launch f => delta exec execLaunch launchOp; exact issue_goes h
  | smov f | smovShort f => exact moveOp_goes h
  | sadd f | saddShort f | ssub f | ssubShort f | smul f | smulShort f | iadd f | iaddShort f | isub f | isubShort f | imul f | imulShort f =>
    exact arith2_goes h
  | smad f => delta exec execSmad uniformMad; exact aluOp_goes h
  | sand f | sandShort f | sor f | sorShort f | sxor f | sxorShort f => exact bit2_goes h
  | sshl f | sshlShort f | sshr f | sshrShort f | ssha f | shl f | shlShort f | shr f | shrShort f | sha f | shaShort f => exact shiftOp_goes h
  | scmp f | icmp f => exact compareOp_goes h
  | ssel f | isel f => exact selectOp_goes h
  | sldp f | sldpShort f => exact paramLoad_goes h
  | iadd3 f => delta exec execIadd3 add3Op; exact aluOp_goes h
  | imulh f | imulhI32Short f | imulhN32Short f => exact mulHighOp_goes h
  | imad f => delta exec execImad madOp; exact aluOp_goes h
  | imadw f => delta exec execImadw madWideOp; exact aluOp_goes h
  | imin f | iminI32Short f | iminN32Short f | imax f | imaxI32Short f | imaxN32Short f => exact minMaxOp_goes h
  | iabs f | iabsShort f => exact absOp_goes h
  | isad f => delta exec execIsad sadOp; exact aluOp_goes h
  | shf f => delta exec execShf funnelOp; exact aluOp_goes h
  | lop3 f => delta exec execLop3 logicOp; exact aluOp_goes h
  | lop3AndShort f | lop3OrShort f | lop3XorShort f => exact logicShort_goes h
  | popc f | popcShort f | clz f | clzShort f => exact countOp_goes h
  | brev f | brevShort f => exact reverseOp_goes h
  | bfe f => delta exec execBfe bfeOp; exact aluOp_goes h
  | bfi f => delta exec execBfi bfiOp; exact aluOp_goes h
  | lea f => delta exec execLea leaOp; exact aluOp_goes h
  | lea64 f => delta exec execLea64 lea64Op; exact aluOp_goes h
  | pset f => delta exec execPset psetOp; exact predOp_goes h
  | plop f => delta exec execPlop plopOp; exact issue_goes h
  | pmov f => exact pmovOp_goes h
  | fadd f | faddShort f | fmul f | fmulShort f | ffma f | dadd f | daddShort f | dmul f | dmulShort f | dfma f => exact scalarOp_goes h
  | fmin f | fminShort f | fmax f | fmaxShort f | dmnmx f =>
    delta exec
    exact minMaxF_goes h
  | fcmp f | dcmp f => exact floatCompare_goes h
  | fclass f => delta exec execFclass classOp; exact predOp_goes h
  | frnd f => delta exec execFrnd frndOp; exact fltOp_goes h
  | fscale f => delta exec execFscale fscaleOp; exact fltOp_goes h
  | hadd2 f | hadd2F16Short f | hadd2Bf16Short f | hmul2 f | hmul2F16Short f | hmul2Bf16Short f | hfma2 f => exact packedOp_goes h
  | hmnmx2 f => delta exec execHmnmx2 packedMinMax; exact fltOp_goes h
  | cvt f => delta exec execCvt cvtLong; exact cvtOp_goes h
  | cvtF32I32Short f | cvtI32F32Short f | cvtBf16F32Short f | cvtF32Bf16Short f => exact cvtOp_goes h
  | cvtp f => delta exec execCvtp cvtpOp; exact issue_goes h
  | cvtq f => delta exec execCvtq cvtqOp; exact issue_goes h
  | rcp f | rcpShort f | rsq f | rsqShort f | sqrt f | sqrtShort f | ex2 f | ex2Short f | lg2 f | lg2Short f | sin f | cos f | tanh f | tanhShort f =>
    delta exec
    exact sfuOp_goes h
  | mov f | movShort f => exact laneMove_goes h
  | movi f => delta exec execMovi moviOp; exact laneOp_goes h
  | prmt f => delta exec execPrmt prmtOp; exact laneOp_goes h
  | shfl f | shflIdxShort f | shflUpShort f | shflDownShort f | shflXorShort f => exact shflOp_goes h
  | vote f => exact voteOp_goes h
  | matchLanes f => delta exec execMatchLanes matchOp; exact laneOp_goes h
  | redux f | reduxAddShort f | reduxMaxShort f | scan f => exact foldOp_goes h
  | compress f => delta exec execCompress compressOp; exact laneOpKeeps_goes h
  | expand f => delta exec execExpand expandOp; exact laneOpKeeps_goes h
  | part f => delta exec execPart partOp; exact issue_goes h
  | lds f | ldsB32Short f | ldsB64Short f => exact ldsOp_goes h
  | ldsm f => delta exec execLdsm ldsmOp; exact issue_goes h
  | sts f | stsB32Short f | stsB64Short f => exact stsOp_goes h
  | atoms f => delta exec execAtoms atomsOp; exact issue_goes h
  | reds f => delta exec execReds redsOp; exact issue_goes h
  | stg f => delta exec execStg stgOp; exact issue_goes h
  | atomg f | redg f => exact atomgOp_goes h
  | gather f => delta exec execGather gatherOp; exact issue_goes h
  | tcopy f => delta exec execTcopy tcopyOp; exact issue_goes h
  | tstore f => delta exec execTstore tstoreOp; exact issue_goes h
  | pcopy f => delta exec execPcopy pcopyOp; exact issue_goes h
  | pcopyR f => delta exec execPcopyR pcopyROp; exact issue_goes h
  | bload f => delta exec execBload bloadOp; exact issue_goes h
  | preft f => delta exec execPreft preftOp; exact issue_goes h
  | town f => delta exec execTown townOp; exact issue_goes h
  | rowzf f | rowcp f => exact rowOp_goes h
  | qpost f => delta exec execQpost qpostOp; exact issue_goes h
  | qmerge f => delta exec execQmerge qmergeOp; exact issue_goes h
  | mma f => delta exec execMma mmaOp; exact issue_goes h
  | mmas f => delta exec execMmas mmasOp; exact issue_goes h
  | kset f => delta exec execKset ksetOp; exact issue_goes h
  | sign f => delta exec execSign signOp; exact issue_goes h
  | chld f => delta exec execChld chldOp; exact issue_goes h
  | chrun f => delta exec execChrun chrunOp; exact issue_goes h
  | chrunTile f => delta exec execChrunTile chrunTileOp; exact issue_goes h
  | itset f => delta exec execItset itsetOp; exact issue_goes h
  | binit f => delta exec execBinit binitOp; exact issue_goes h
  | arrive f => delta exec execArrive arriveOp; exact issue_goes h
  | expect f => delta exec execExpect expectOp; exact issue_goes h
  | waitp f => delta exec execWaitp waitpOp; exact issue_goes h
  | btest f => delta exec execBtest btestOp; exact issue_goes h
  | fence f => delta exec execFence fenceOp; exact issue_goes h
  | csync f => delta exec execCsync csyncOp; exact issue_goes h
  | dsync f | gsync f => exact gridSyncOp_goes h
  | twait f => delta exec execTwait twaitOp; exact issue_goes h
  | xbegin f => delta exec execXbegin xbeginOp; exact issue_goes h
  | xend f => delta exec execXend xendOp; exact issue_goes h
  | xabort f => delta exec execXabort xabortOp; exact issue_goes h
  | rdsr f | rdsrShort f => exact rdsrOp_goes h
  | wrsr f => delta exec execWrsr wrsrOp; exact issue_goes h
  | trap f => delta exec execTrap trapOp; exact issue_goes h
  | bpt f => delta exec execBpt bptOp; exact issue_goes h
  | tret f => delta exec execTret tretOp; exact issue_goes h
  | rdtr f => delta exec execRdtr rdtrOp; exact issue_goes h
  | wrtr f => delta exec execWrtr wrtrOp; exact issue_goes h
  | baredit f => delta exec execBaredit bareditOp; exact issue_goes h
  | _ => exact ⟨_, rfl⟩

end

theorem runItem_goes (s : State) : Goes (runItem s) := by
  unfold runItem
  cases hrun : s.cur.run with
  | none => exact ⟨_, rfl⟩
  | some r =>
    dsimp only
    cases decodeParcels r.body with
    | error e => exact badOpcode_goes hrun
    | ok q => exact exec_goes hrun q.1

theorem turn_goes (c q n : Nat) (s : State) : Goes (turn c q n s) := by
  unfold turn
  cases warpAt s c q n with
  | none => exact ⟨_, rfl⟩
  | some w => exact runItem_goes (focus s w.uid)

theorem device_goes {i : Instr} (hi : i.form = .device) (s : State) : Goes (exec i s) := by
  cases i with
  | clauseIssue | rcvHoldExpiry | ageSwap | congestionLevel | congestionLevelExpiry | poolAccessAtTarget | stagingEarlyPublish
    | homeApplyPublication | publicationAck | boundaryReleaseComplete | l2Writeback | atomicGroupApply | hostAtomicop | stackRead
    | stackWrite | stackAtomic | stackQuery | stackRowop | stackCtrl | stackReply | queryChunk | stackRefresh | queryTripleReturn
    | rowopComplete | irtctlActWrite | drainClear | engineTileLand | barrierCredit | mmaResultWrite | mmasStep | chrunTileRow
    | hwBarrierComplete | watchRegister | watchAnswer | twaitTimeout | watchCancel | launchRecordRead | launchStart | dependenceWatchRetry
    | clusterGrant | starvationBoost | warpRetire | launchComplete | preemptPriority | tctlSuspWrite | contextSaveComplete
    | saveHeldTimeout | contextResume | qidxWidxWrite | tlbinvGo | tlbinvComplete | operandLogReplay | faultUnitMigrate | pageRevive
    | remoteHomeRequest | remoteHomeReply | remoteHomeTimeout | frameRetire | handlerStart | wctlResume | wctlKill | wctlHalt | wctlStepOn
    | wctlStepOff | tarsorCellSend | tarsorDataCell | tarsorDedupReference | tarsorReplayRequest | tarsorIdleCell | linkReplayLimit
    | linkAckTimeout | linkTrainingDone | tlctlRetrain | tlctlEnWrite | mbheadWrite | mbWrite | mbRead | mbRegwr | mbRegrd | mbMigrate
    | mbSave | mbImage | moduleReset | romAndFuses | calibration | electionIdentifier | electionTimeout | verification | firmwareStart
    | firmwareStartTimeout | memoryInitialisation | thermalTrip | powerTokenPass | eqidxCidxWrite | eqctlClr | tenantReset
    | tenantResetComplete | registerWrite | coolantOrDieTemperatureChange =>
    exact ⟨_, rfl⟩
  | _ => cases hi

theorem heldBack_goes (s : State) {o : Out} (h : Goes o) : Goes (heldBack s o) := by
  obtain ⟨t, rfl⟩ := h
  by_cases heq : t.early = s.early
  · exact ⟨t, heldBack_stands s t heq⟩
  · exact ⟨s, heldBack_waits s t heq⟩

/-- Works that answer a next state in every state. -/
def AllGo (ws : List Work) : Prop := ∀ w ∈ ws, ∀ s, Goes (w s)

theorem AllGo.nil : AllGo [] := nofun

theorem AllGo.cons {w : Work} {ws : List Work} (h : ∀ s, Goes (w s)) (hs : AllGo ws) : AllGo (w :: ws) :=
  List.forall_mem_cons.2 ⟨h, hs⟩

theorem AllGo.append {xs ys : List Work} (hx : AllGo xs) (hy : AllGo ys) : AllGo (xs ++ ys) :=
  List.forall_mem_append.2 ⟨hx, hy⟩

theorem AllGo.flatMap {α : Type} {xs : List α} {f : α → List Work} (h : ∀ x, AllGo (f x)) : AllGo (xs.flatMap f) := by
  intro w hw
  obtain ⟨x, -, hx⟩ := List.mem_flatMap.1 hw
  exact h x w hx

theorem AllGo.map {α : Type} {xs : List α} {f : α → Work} (h : ∀ x s, Goes (f x s)) : AllGo (xs.map f) := by
  intro w hw
  obtain ⟨x, -, rfl⟩ := List.mem_map.1 hw
  exact h x

theorem AllGo.ite {c : Prop} [Decidable c] {xs ys : List Work} (hx : AllGo xs) (hy : AllGo ys) : AllGo (if c then xs else ys) := by
  split
  · exact hx
  · exact hy

theorem AllGo.next {g : State → State} {ws : List Work} (hs : AllGo ws) : AllGo ((fun s => .next (g s)) :: ws) :=
  AllGo.cons (fun _ => ⟨_, rfl⟩) hs

theorem eachPlace_go {n : Nat} {fs : List (Nat → Work)} (h : ∀ i, AllGo (fs.map fun f => f i)) : AllGo (eachPlace n fs) :=
  AllGo.flatMap h

theorem bootWork_go (s : State) : AllGo (bootWork s) := by
  unfold bootWork
  split
  case h_4 =>
    split
    · exact .next .nil
    · exact .nil
  case h_8 => exact .nil
  all_goals exact .next .nil

theorem mailWork_go (s : State) : AllGo (mailWork s) := by
  unfold mailWork
  cases mbNext s with
  | none => exact .nil
  | some c =>
    dsimp only
    split
    all_goals exact .next .nil

theorem warpWork_go (w : Warp) : AllGo (warpWork turn w) := by
  have hreplay : AllGo (if w.olog.isEmpty then [] else [execOperandLogReplay w.core w.quad w.slot]) := .ite .nil (.next .nil)
  unfold warpWork
  cases w.run with
  | some r => exact .cons (turn_goes _ _ _) (.append (.append (.ite (.next .nil) .nil) (.ite (.next .nil) .nil)) hreplay)
  | none =>
    exact .append (.append (.append (.append (.next (.next .nil)) hreplay) (.ite (.next .nil) .nil)) (.ite (.next .nil) .nil))
      (.ite .nil (.next .nil))

theorem parkWork_go (s : State) : AllGo (parkWork s) :=
  .append (.append (.append (.append (.flatMap fun _ => .flatMap fun _ => .ite .nil (.next (.next .nil)))
    (.flatMap fun _ => .flatMap fun _ => .next (.next .nil))) (.flatMap fun _ => .ite .nil (.next (.next .nil))))
    (.flatMap fun _ => .next (.next .nil))) (.map fun _ _ => ⟨_, rfl⟩)

theorem memoryWork_go (s : State) : AllGo (memoryWork s) := by
  have hstage : AllGo (eachPlace s.staging.length [execHomeApplyPublication, execPublicationAck, execStagingEarlyPublish]) :=
    eachPlace_go fun _ => .next (.next (.next .nil))
  have hatomic : AllGo (eachPlace (s.reqs.flatMap (·.groups)).length [fun n => execAtomicGroupApply n false, execHostAtomicop]) :=
    eachPlace_go fun _ => .next (.next .nil)
  have hstack : AllGo (eachPlace s.packets.length
      [execStackRead, execStackWrite, execStackAtomic, execStackQuery, execQueryChunk, execQueryTripleReturn, execStackRowop, execStackReply]) :=
    eachPlace_go fun _ => .next (.next (.next (.next (.next (.next (.next (.next .nil)))))))
  have hengine : AllGo (eachPlace s.cmds.length [execEngineTileLand, execMmasStep, execChrunTileRow, execRowopComplete]) :=
    eachPlace_go fun _ => .next (.next (.next (.next .nil)))
  exact .append (.append (.append (.append (.append (.append (.append hstage hatomic) hstack) hengine)
    (eachPlace_go fun _ => .next .nil)) (eachPlace_go fun _ => .next .nil)) (.ite (.next .nil) .nil)) (.ite (.next .nil) .nil)

theorem waitWork_go (s : State) : AllGo (waitWork s) :=
  .append (eachPlace_go fun _ => .next .nil) (eachPlace_go fun _ => .next (.next (.next (.next (.next .nil)))))

theorem schedulerWork_go (s : State) : AllGo (schedulerWork s) :=
  .append (.append (.append (.append (.append (.append (.map fun _ _ => ⟨_, rfl⟩) (eachPlace_go fun _ => .next (.next .nil)))
    (.ite .nil (.next (.next .nil)))) (.map fun _ _ => ⟨_, rfl⟩)) (eachPlace_go fun _ => .next (.next .nil)))
    (eachPlace_go fun _ => .next .nil)) (.map fun _ _ => ⟨_, rfl⟩)

theorem timedWork_go (s : State) : AllGo (timedWork s) :=
  .flatMap fun _ => .ite (.next .nil) (.ite (.next .nil) .nil)

theorem wctlWork_go (s : State) :
    AllGo (s.wctl.map fun e => if e.2 / 2 ^ 24 = 1 then execWctlResume e.1 else execWctlKill e.1) := by
  refine .map fun e u => ?_
  split
  · exact ⟨_, rfl⟩
  · exact ⟨_, rfl⟩

theorem ownWork_go (s : State) : AllGo (ownWork turn s) := by
  unfold ownWork
  split
  · exact .append (bootWork_go s) (mailWork_go s)
  · exact .append (.append (.flatMap warpWork_go) (wctlWork_go s))
      (.append (.append (.append (.append (.append (memoryWork_go s) (waitWork_go s)) (parkWork_go s)) (schedulerWork_go s)) (timedWork_go s))
        (mailWork_go s))

theorem nextWork_goes (s : State) : Goes (nextWork turn s) := by
  unfold nextWork
  dsimp only
  split
  next w hw => exact heldBack_goes _ (ownWork_go s w (List.mem_of_getElem? hw) _)
  next => exact ⟨_, rfl⟩

theorem step_goes {s : State} (hs : ∀ i, s.agenda.head? = some (.event i) → i.form = .device) : s.goesOn := by
  change Goes (step s)
  cases hagenda : s.agenda with
  | nil =>
    have hstep : step s = nextWork turn s := by
      unfold step
      rw [hagenda]
    rw [hstep]
    exact nextWork_goes s
  | cons a t =>
    cases a with
    | event i =>
      rw [step_event hagenda]
      exact heldBack_goes _ (device_goes (hs i (by rw [hagenda]; rfl)) _)
    | upset u => exact ⟨_, step_upset hagenda⟩
    | turn c q n =>
      rw [step_turn hagenda]
      exact heldBack_goes _ (turn_goes c q n _)
    | pass n =>
      have hstep : step s = .next (passTime n { s with agenda := t }) := by
        unfold step
        rw [hagenda]
      exact ⟨_, hstep⟩

end Sys2Proof.Machine
end

section
/-! The obligations on encoding and assembly: the decoder, fetch, issue, instructions on registers, transfers. -/

namespace Sys2Proof.Settled
open Sys2Proof.Machine

/-- Settles O3: an instruction's code stands for it, and the parcels of a code are read as that code. -/
theorem encodedInstructionsDecodeBack : Obligations.EncodedInstructionsDecodeBack := by
  intro i rest hwf hform
  have hi : i.form.instr = some i := by rw [form_instr i hwf, if_neg hform]
  exact decodeParcels_iff.mpr ⟨i.form, hi, rfl⟩

/-- Settles O4: what parcels decode to has the form that they are the parcels of. -/
theorem decodedParcelsEncodeBack : Obligations.DecodedParcelsEncodeBack := by
  intro ps i rest h
  obtain ⟨fm, hi, hps⟩ := decodeParcels_iff.mp h
  obtain ⟨hwf, rfl⟩ := instr_form hi
  refine ⟨hwf, fun hdevice => ?_, hps⟩
  rw [hdevice] at hi
  cases hi
/-- Settles O6: each word is decoded. -/
theorem exampleWordsDecode : Obligations.ExampleWordsDecode := by
  unfold Obligations.ExampleWordsDecode wordsDecode
  decide

/-- Settles O2: each parcel is fetched by itself, and filling its sectors changes no byte. -/
theorem clauseIsTheBytesAtItsAddress : Obligations.ClauseIsTheBytesAtItsAddress := by
  refine ⟨?_, fun s core ten n va w ws t h => fetchParcels_cons h, ?_⟩
  · intro s core ten va hdr body t h
    obtain ⟨ws, u, hhdr, hcode, hword, hbody⟩ := fetchClause_clause h
    exact ⟨ws, u, hhdr, fetchParcels_length hhdr, hcode, hword, hbody, fetchParcels_length hbody⟩
  · intro s core ten va w t hva h
    have hvalue := codeParcel_value h
    rwa [Nat.mod_eq_of_lt hva] at hvalue

/-- Settles O5: the tables list each code once, and a turn looks for a breakpoint before it faults. -/
theorem assignedOpcodesAndReservedFault : Obligations.AssignedOpcodesAndReservedFault := by
  refine ⟨longInstr_isSome, fun _ f => shortInstr_isSome f, fun w w1 rest f hcode hnone => decodeParcels_reserved hcode hnone w1 rest, ?_⟩
  intro s t c q n w r e u hagenda hat hrun hbreak hdec
  rw [step_turn hagenda, turn_rejected hat hrun hbreak hdec]

/-- Settles O9: each instruction is issued by the shared operation of its row. -/
theorem integerInstructionsComplete : Obligations.IntegerInstructionsComplete := by
  intro f g e he
  simp only [integerRows, List.mem_append] at he
  obtain ((he | he) | he) | he := he
  · exact arithmeticRows_complete f g e he
  · exact bitRows_complete f g e he
  · exact chooseRows_complete f e he
  · exact predicateRows_complete f e he

/-- Settles O10: each instruction is issued by the shared operation of its row. -/
theorem uniformInstructionsComplete : Obligations.UniformInstructionsComplete := uniformRows_complete

/-- Settles O17: the five transfers are one operation. -/
theorem transfersGoToTheirTargets : Obligations.TransfersGoToTheirTargets := fun _ =>
  ⟨transfer_completes fun _ => rfl, transfer_completes fun _ => rfl, transfer_completes fun _ => rfl, transfer_completes fun _ => rfl,
    transfer_completes fun _ => rfl⟩

/-- Refutes O8: a short DADD with a latch in B7 and an odd destination reports the latch (subcode 1, R162), its row the destination (subcode 2). -/
theorem not_issueOrderOfEveryRow : ¬ Obligations.IssueOrderOfEveryRow := by
  intro h
  have hrow := h ⟨0, false, 7, 0, 0, 0, false, 0, none⟩ oddDadd oddRow
    (List.mem_append_left _ (List.mem_append_left _ (List.mem_append_left _ (List.mem_append_right _ (oddRow_mem _)))))
  obtain ⟨-, -, -, hbad, -⟩ := hrow atOddDadd oddRun rfl
  have hexec : exec (.daddShort oddDadd) atOddDadd = .next (badTrap atOddDadd oddRun oddItem ⟨false, 2, 5⟩) :=
    hbad _ rfl (by decide +kernel) (by decide +kernel) oddRow_bad (.inr (by decide +kernel))
  rw [oddDadd_faults] at hexec
  exact oddDadd_records (Host.Outcome.next.inj hexec)

/-- Refutes O13: the fault of a short DADD with a latch in B7 (R162), where its row sees nothing wrong, takes a SEQ of the module. -/
theorem not_registerInstructionsFrame : ¬ Obligations.RegisterInstructionsFrame := by
  intro h
  have hrow := h ⟨0, false, 7, 0, 0, 0, false, 0, none⟩ daddOfLatch daddRow (List.mem_append_left _ (List.mem_append_right _ (daddRow_mem _)))
  obtain ⟨houtside, -⟩ := hrow latchedDadd latchedRun _ daddRow_ready latchedDadd_quiet daddOfLatch_faults
  have hseq := congrArg State.seq houtside
  exact latchedDadd_seq hseq

/-- Settles O7: what runs is issued, an event answers by itself, and the module's own work is one or the other. -/
theorem everyStepAnswersANextState : Obligations.EveryStepAnswersANextState := fun _ hs => step_goes hs

end Sys2Proof.Settled
end

section
/-! SUPPORT. The shifts of R149 on numbers are those of bit vectors. -/

namespace Sys2Proof.Machine

theorem shiftVal_left {w a n : Nat} {wrap : Bool} (ha : a < 2 ^ w) :
    shiftVal 0 w a n wrap = (BitVec.ofNat w a <<< (if wrap then n % w else n)).toNat := by
  simp only [shiftVal, BitVec.toNat_shiftLeft, BitVec.toNat_ofNat, Nat.mod_eq_of_lt ha, Nat.shiftLeft_eq]
  generalize (if wrap then n % w else n) = k
  split
  · next hout => exact (Nat.mod_eq_zero_of_dvd ((Nat.pow_dvd_pow 2 hout).mul_left a)).symm
  · rfl

theorem shiftVal_right {w a n : Nat} {wrap : Bool} (ha : a < 2 ^ w) :
    shiftVal 1 w a n wrap = (BitVec.ofNat w a >>> (if wrap then n % w else n)).toNat := by
  simp only [shiftVal, BitVec.toNat_ushiftRight, BitVec.toNat_ofNat, Nat.mod_eq_of_lt ha, Nat.shiftRight_eq_div_pow]
  generalize (if wrap then n % w else n) = k
  split
  · next hout => exact (Nat.div_eq_of_lt (ha.trans_le (Nat.pow_le_pow_right (by decide) hout))).symm
  · rfl

/-- The sign-extended pattern is the bit vector's integer. -/
theorem signedOf_eq_toInt {w a : Nat} : signedOf w a = (BitVec.ofNat w a).toInt := by
  simp only [signedOf, BitVec.toInt_eq_toNat_cond, BitVec.toNat_ofNat]
  split <;> split <;> omega

/-- Past all its bits, a pattern shifted right arithmetically is its sign throughout. -/
theorem toInt_div_of_le {w k : Nat} (x : BitVec w) (h : w ≤ k) :
    x.toInt / (2 ^ k : Nat) = x.toInt / (2 ^ w : Nat) := by
  have hlow := x.le_two_mul_toInt
  have hhigh := x.two_mul_toInt_lt
  have hbound : (2 ^ w : Int) ≤ 2 ^ k := pow_le_pow_right₀ (by decide) h
  push_cast
  rcases lt_or_ge x.toInt 0 with hneg | hpos
  · rw [Int.ediv_eq_neg_one_of_neg_of_le hneg (by omega), Int.ediv_eq_neg_one_of_neg_of_le hneg (by omega)]
  · rw [Int.ediv_eq_zero_of_lt hpos (by omega), Int.ediv_eq_zero_of_lt hpos (by omega)]

theorem shiftVal_arith {w a n : Nat} {wrap : Bool} :
    shiftVal 2 w a n wrap = ((BitVec.ofNat w a).sshiftRight (if wrap then n % w else n)).toNat := by
  simp only [shiftVal, wrapInt, BitVec.sshiftRight, BitVec.toNat_ofInt, Int.shiftRight_eq_div_pow, signedOf_eq_toInt]
  generalize (if wrap = true then n % w else n) = k
  rcases Nat.le_total k w with hin | hout
  · rw [Nat.min_eq_left hin]
  · rw [Nat.min_eq_right hout, toInt_div_of_le _ hout]

theorem funnel_left (a b : Word) (n : Nat) (wrap : Bool) :
    funnel true wrap a.toNat b.toNat n = (((b ++ a : BitVec 64) <<< (if wrap then n % 32 else min n 32)).extractLsb' 32 32).toNat := by
  simp only [funnel, extractLsb'_toNat_div, BitVec.toNat_shiftLeft, twoParcels_toNat, Nat.shiftLeft_eq, if_true]
  omega

theorem funnel_right (a b : Word) (n : Nat) (wrap : Bool) :
    funnel false wrap a.toNat b.toNat n = (((b ++ a : BitVec 64) >>> (if wrap then n % 32 else min n 32)).extractLsb' 0 32).toNat := by
  simp only [funnel, extractLsb'_toNat_div, BitVec.toNat_ushiftRight, twoParcels_toNat, Nat.shiftRight_eq_div_pow, Bool.false_eq_true, if_false,
    pow_zero, Nat.div_one]

end Sys2Proof.Machine
end

section
/-! SUPPORT. What a result changes in its warp (R116, R117, R153): the registers that the instruction names, those of lanes in active lanes alone, and
their parity marks; and what an instruction that goes on after such a result leaves unchanged. -/

namespace Sys2Proof.Machine

theorem mem_lanesOf {m : Lanes} {l : Nat} : l ∈ lanesOf m ↔ l < 32 ∧ lon m l = true := by
  rw [lanesOf, List.mem_filter, List.mem_range]

theorem predPut_getLsbD_other {m : BitVec 7} {i n : Nat} {x : Bool} (h : n ≠ i) : (predPut m i x).getLsbD n = m.getLsbD n := by
  have hbit : (1#7 <<< i).getLsbD n = false := by
    simp only [BitVec.getLsbD_shiftLeft, BitVec.getLsbD_one]
    grind
  by_cases hn : n < 7
  · cases x <;>
      simp only [predPut, if_true, if_false, Bool.false_eq_true, BitVec.getLsbD_or, BitVec.getLsbD_and, BitVec.getLsbD_not, hbit, hn, decide_true,
        Bool.not_false, Bool.and_true, Bool.or_false]
  · rw [BitVec.getLsbD_of_ge _ _ (by omega), BitVec.getLsbD_of_ge _ _ (by omega)]

theorem pget_pset_other {w : Warp} {i n lane l : Nat} {x : Bool} (h : n ≠ i ∨ l ≠ lane) : pget (pset w i lane x) n l = pget w n l := by
  by_cases hi : i = 7
  · rw [pset, if_pos hi]
  · simp only [pget, pset, if_neg hi, nget_nset]
    by_cases hl : l = lane
    · rw [if_pos hl, predPut_getLsbD_other (h.resolve_right (not_not_intro hl)), hl]
    · rw [if_neg hl]

theorem qget_qset_other {w : Warp} {i n : Nat} {x : Bool} (h : n ≠ i) : qget (qset w i x) n = qget w n := by
  by_cases hi : i = 7
  · rw [qset, if_pos hi]
  · simp only [qget, qset, if_neg hi, predPut_getLsbD_other h]

/-- The register that a parity mark is about, as results are named: a uniform predicate's mark is of class 4, its name of kind 3. -/
def markedReg (m : Nat × Nat × Nat) : Nat × Nat := (if m.1 = 4 then 3 else m.1, m.2.1)

/-- The warp `t` is `w` but for the registers named, per-lane ones in the lanes `act` alone, and their parity marks. -/
structure WritesOnly (named : List (Nat × Nat)) (act : Lanes) (w t : Warp) : Prop where
  vregs : ∀ n l, l < 32 → (0, n) ∉ named ∨ lon act l = false → vget t n l = vget w n l
  sregs : ∀ n, (1, n) ∉ named → sget t n = sget w n
  preds : ∀ n l, l < 32 → (2, n) ∉ named ∨ lon act l = false → pget t n l = pget w n l
  upreds : ∀ n, (3, n) ∉ named → qget t n = qget w n
  marks : ∀ m ∈ t.parity, m ∈ w.parity
  keptMarks : ∀ m ∈ w.parity, markedReg m ∉ named → m ∈ t.parity
  rest : t = { w with parity := t.parity, v := t.v, s := t.s, p := t.p, q := t.q }

namespace WritesOnly

variable {named : List (Nat × Nat)} {act : Lanes} {w u t : Warp}

protected theorem refl : WritesOnly named act w w :=
  ⟨fun _ _ _ _ => rfl, fun _ _ => rfl, fun _ _ _ _ => rfl, fun _ _ => rfl, fun _ h => h, fun _ h _ => h, rfl⟩

protected theorem trans (hwu : WritesOnly named act w u) (hut : WritesOnly named act u t) : WritesOnly named act w t where
  vregs n l hl h := (hut.vregs n l hl h).trans (hwu.vregs n l hl h)
  sregs n h := (hut.sregs n h).trans (hwu.sregs n h)
  preds n l hl h := (hut.preds n l hl h).trans (hwu.preds n l hl h)
  upreds n h := (hut.upreds n h).trans (hwu.upreds n h)
  marks m h := hwu.marks m (hut.marks m h)
  keptMarks _ h hm := hut.keptMarks _ (hwu.keptMarks _ h hm) hm
  rest := hut.rest.trans (congrArg (fun x : Warp => { x with parity := t.parity, v := t.v, s := t.s, p := t.p, q := t.q }) hwu.rest)

/-- Writing one register removes the mark of that register. -/
theorem keptMark {k : Nat × Nat × Nat} {ms : List (Nat × Nat × Nat)} (hk : markedReg k ∈ named) :
    ∀ m ∈ ms, markedReg m ∉ named → m ∈ ms.filter (· != k) := fun _ hm hnot =>
  List.mem_filter.mpr ⟨hm, bne_iff_ne.mpr fun heq => hnot (heq ▸ hk)⟩

theorem vset {r lane : Nat} (x : Word) (hr : (0, r) ∈ named) (hlane : lon act lane = true) (hlt : lane < 32) :
    WritesOnly named act w (vset w r lane x) where
  vregs n l hl h := by
    refine nget_nset_other 0 w.v (32 * r + lane) (32 * n + l) x fun heq => ?_
    obtain ⟨rfl, rfl⟩ : n = r ∧ l = lane := by omega
    exact h.elim (· hr) fun hoff => Bool.false_ne_true (hoff.symm.trans hlane)
  sregs _ _ := rfl
  preds _ _ _ _ := rfl
  upreds _ _ := rfl
  marks _ h := List.mem_of_mem_filter h
  keptMarks := keptMark hr
  rest := rfl

theorem sset {r : Nat} (x : Word) (hr : (1, r) ∈ named) : WritesOnly named act w (sset w r x) where
  vregs _ _ _ _ := rfl
  sregs n h := nget_nset_other 0 w.s r n x fun heq => h (heq ▸ hr)
  preds _ _ _ _ := rfl
  upreds _ _ := rfl
  marks _ h := List.mem_of_mem_filter h
  keptMarks := keptMark hr
  rest := rfl

theorem pset {i lane : Nat} (x : Bool) (hi : (2, i) ∈ named) (hlane : lon act lane = true) : WritesOnly named act w (pset w i lane x) := by
  by_cases hpt : i = 7
  · rw [Machine.pset, if_pos hpt]
    exact .refl
  have hpreds : ∀ n l, l < 32 → (2, n) ∉ named ∨ lon act l = false → pget (Machine.pset w i lane x) n l = pget w n l := fun n l _ h =>
    pget_pset_other (h.imp (fun hnot heq => hnot (heq ▸ hi)) fun hoff heq => Bool.false_ne_true (hoff.symm.trans (heq ▸ hlane)))
  rw [Machine.pset, if_neg hpt] at hpreds ⊢
  exact ⟨fun _ _ _ _ => rfl, fun _ _ => rfl, hpreds, fun _ _ => rfl, fun _ h => List.mem_of_mem_filter h, keptMark hi, rfl⟩

theorem qset {i : Nat} (x : Bool) (hi : (3, i) ∈ named) : WritesOnly named act w (qset w i x) := by
  by_cases hqt : i = 7
  · rw [Machine.qset, if_pos hqt]
    exact .refl
  have hupreds : ∀ n, (3, n) ∉ named → qget (Machine.qset w i x) n = qget w n := fun n h => qget_qset_other fun heq => h (heq ▸ hi)
  rw [Machine.qset, if_neg hqt] at hupreds ⊢
  exact ⟨fun _ _ _ _ => rfl, fun _ _ => rfl, fun _ _ _ _ => rfl, hupreds, fun _ h => List.mem_of_mem_filter h, keptMark hi, rfl⟩

theorem vputNat {pair : Bool} {r lane : Nat} (x : Nat) (hr : ∀ j < if pair then 2 else 1, (0, r + j) ∈ named) (hlane : lon act lane = true)
    (hlt : lane < 32) : WritesOnly named act w (vputNat w pair r lane x) := by
  cases pair with
  | false => exact vset _ (hr 0 (by decide)) hlane hlt
  | true => exact (vset _ (hr 0 (by decide)) hlane hlt).trans (vset _ (hr 1 (by decide)) hlane hlt)

theorem sputNat {pair : Bool} {r : Nat} (x : Nat) (hr : ∀ j < if pair then 2 else 1, (1, r + j) ∈ named) :
    WritesOnly named act w (sputNat w pair r x) := by
  cases pair with
  | false => exact sset _ (hr 0 (by decide))
  | true => exact (sset _ (hr 0 (by decide))).trans (sset _ (hr 1 (by decide)))

theorem quiet {s : State} (h : WritesOnly named act s.cur t) (hquiet : Quiet s) : Quiet { s with cur := t } := by
  rw [Quiet, h.rest]
  exact hquiet

/-- Writes lane after lane. -/
theorem foldl {f : Warp → Nat → Warp} {ls : List Nat} (h : ∀ l ∈ ls, ∀ u, WritesOnly named act u (f u l)) : WritesOnly named act w (ls.foldl f w) := by
  induction ls generalizing w with
  | nil => exact .refl
  | cons l ls ih => exact (h l List.mem_cons_self w).trans (ih fun k hk => h k (List.mem_cons_of_mem l hk))

theorem vecWrite {it : Item} {pair : Bool} {res : Nat → Nat}
    (hd : it.f.nowb = false → ∀ j < if pair then 2 else 1, (0, it.d + j) ∈ named) : WritesOnly named act w (vecWrite w it act pair res) := by
  unfold Machine.vecWrite
  split
  · exact .refl
  · next hnowb =>
    refine foldl fun l hl u => ?_
    obtain ⟨hlt, hon⟩ := mem_lanesOf.mp hl
    exact vputNat _ (hd (eq_false_of_ne_true hnowb)) hon hlt

end WritesOnly

/-- Two positions in one clause, whose latches differ at most in that of the first's slot (R117). -/
def SameLatches (r q : Run) : Prop := q.grp = r.grp ∧ q.tsz = r.tsz ∧ ∀ k, k ≠ r.slot % 4 → nget none q.lat k = nget none r.lat k

theorem sameLatches_refl (r : Run) : SameLatches r r := ⟨rfl, rfl, fun _ _ => rfl⟩

theorem sameLatches_capture (r : Run) (l : Latch) : SameLatches r (capture r l) :=
  ⟨rfl, rfl, fun k hk => nget_nset_other none r.lat (r.slot % 4) k (some l) hk⟩

/-- Going on moves the position and may mark the warp as yielding, no more. -/
theorem nextSlot_eq (w : Warp) (r : Run) (it : Item) :
    ∃ run pc yielded, nextSlot w r it = { w with run := run, pc := pc, yielded := yielded } ∧ ∀ q, run = some q → q = advance r it := by
  unfold nextSlot
  dsimp only
  split
  · exact ⟨none, _, _, rfl, fun q hq => nomatch hq⟩
  · exact ⟨some (advance r it), _, _, rfl, fun q hq => (Option.some.inj hq).symm⟩

/-- An instruction whose effect is to go on after writes to its results alone has the frame of a row. -/
theorem rowFrame_of_writes {e : Row} (hcomplete : e.Completes)
    (heff : ∀ s r, ∃ w q, e.eff s s.cur r = finish { s with cur := w } q e.it ∧
      WritesOnly (resultRegs e.it (e.sp s s.cur r) ++ secondRegs e) (activeLanes s.cur r e.it) s.cur w ∧ SameLatches r q) :
    RowFrame e := by
  intro s r t named hready hquiet hexec
  obtain ⟨w, q, hfinish, hwrites, hgrp, htsz, hlat⟩ := heff s r
  obtain ⟨run, pc, yielded, hnext, hrun⟩ := nextSlot_eq w q e.it
  have hend : t = { s with cur := nextSlot w q e.it } := (Host.Outcome.next.inj (hexec.symm.trans (hcomplete s r hready))).trans
    (hfinish.trans (finish_quiet { s with cur := w } q e.it (hwrites.quiet hquiet)))
  obtain ⟨hv, hs, hp, hq, hmarks, hkept, hrest⟩ := hwrites
  rw [hnext] at hend
  subst hend
  generalize w.parity = parity, w.v = v, w.s = sregs, w.p = preds, w.q = upreds at hrest
  subst hrest
  refine ⟨rfl, hv, hs, hp, hq, fun x hx => ?_, hmarks, hkept, ?_⟩
  · rw [hrun x hx]
    exact ⟨hgrp, htsz, hlat⟩
  · simp only [ite_self]


/-! The results that a description names, and the rows that end by writing them. -/

section Results
variable {it : Item} {sp : Spec} {n j : Nat} {u : Bool}

theorem mem_resultRegs_dstV (hu : .dstV n ∈ sp.uses) (hnowb : it.f.nowb = false) (hj : j < n) : (0, it.d + j) ∈ resultRegs it sp :=
  List.mem_flatMap.mpr ⟨.dstV n, List.mem_filter.mpr ⟨hu, rfl⟩, by simp [useRegs, hnowb, hj]⟩

theorem mem_resultRegs_dstS (hu : .dstS n ∈ sp.uses) (hnowb : it.f.nowb = false) (hj : j < n) : (1, it.d + j) ∈ resultRegs it sp :=
  List.mem_flatMap.mpr ⟨.dstS n, List.mem_filter.mpr ⟨hu, rfl⟩, by simp [useRegs, hnowb, hj]⟩

theorem mem_resultRegs_dstP (hu : .dstP u ∈ sp.uses) : (if u then 3 else 2, it.d) ∈ resultRegs it sp :=
  List.mem_flatMap.mpr ⟨.dstP u, List.mem_filter.mpr ⟨hu, rfl⟩, List.mem_singleton_self _⟩

end Results

section Frames
variable {i : Instr} {it : Item} {ts : List VT} {pair : Bool} {bads : List Bad}

theorem vecRow_frame {val : State → Warp → Run → Nat → Nat} (hc : (vecRow i it ts pair bads val).Completes) :
    RowFrame (vecRow i it ts pair bads val) :=
  rowFrame_of_writes hc fun _ r => ⟨_, _, rfl,
    .vecWrite fun hnowb _ hj => List.mem_append_left _ (mem_resultRegs_dstV (List.mem_append_right _ (List.mem_singleton_self _)) hnowb hj),
    sameLatches_capture r _⟩

theorem uniRow_frame {val : State → Warp → Run → Nat} (hc : (uniRow i it ts pair bads val).Completes) : RowFrame (uniRow i it ts pair bads val) := by
  refine rowFrame_of_writes hc fun s r => ⟨_, _, rfl, ?_, sameLatches_capture r _⟩
  split
  · next hgo =>
    have hnowb : it.f.nowb = false := by simpa using (Bool.and_eq_true_iff.mp hgo).2
    exact .sputNat _ fun _ hj => List.mem_append_left _ (mem_resultRegs_dstS (List.mem_append_right _ (List.mem_singleton_self _)) hnowb hj)
  · exact .refl

theorem predRow_frame {val : State → Warp → Run → Nat → Bool} (hc : (predRow i it ts bads val).Completes) : RowFrame (predRow i it ts bads val) :=
  rowFrame_of_writes hc fun _ r => ⟨_, _, rfl,
    .foldl fun _ hl _ => .pset _ (List.mem_append_left _ (mem_resultRegs_dstP (u := false) (List.mem_append_right _ (List.mem_singleton_self _))))
      (mem_lanesOf.mp hl).2,
    sameLatches_refl r⟩

theorem qRow_frame {val : State → Warp → Run → Bool} (hc : (qRow i it ts bads val).Completes) : RowFrame (qRow i it ts bads val) := by
  refine rowFrame_of_writes hc fun s r => ⟨_, _, rfl, ?_, sameLatches_refl r⟩
  split
  · exact .qset _ (List.mem_append_left _ (mem_resultRegs_dstP (u := true) (List.mem_append_right _ (List.mem_singleton_self _))))
  · exact .refl

end Frames

/-- ICMP, ISEL, SCMP and SSEL. -/
theorem compareRows_frame (f : Long) : ∀ e ∈ (chooseRows f).take 4, RowFrame e := by
  have hcomplete : ∀ e ∈ (chooseRows f).take 4, e.Completes := fun e he => chooseRows_complete f e (List.mem_of_mem_take he)
  simp only [chooseRows, List.take_succ_cons, List.take_zero, List.forall_mem_cons] at hcomplete ⊢
  obtain ⟨hicmp, hisel, hscmp, hssel, -⟩ := hcomplete
  exact ⟨predRow_frame hicmp, vecRow_frame hisel, qRow_frame hscmp, uniRow_frame hssel, List.forall_mem_nil _⟩

end Sys2Proof.Machine
end

section
/-! SUPPORT. The illegal-operand faults of a compare (R152, Table 20.4): its type first, then its code. -/

namespace Sys2Proof.Machine

theorem op_longItem {opc : Nat} {uni : Bool} {f : Long} (h : opc < 2 ^ 10) : (longItem opc uni f).op = opc := by
  have hext := f.lit.isSome.toNat_le
  change bitsN (longWord (BitVec.ofNat 10 opc) f.lit.isSome f).toNat 11 2 = opc
  rw [bitsN, longWord_toNat, BitVec.toNat_ofNat]
  omega

theorem lostRead_of_nothingLost {s : State} {w : Warp} {r : Run} {it : Item} {sp : Spec} (h : nothingLost w r = true) (hop : it.op ≠ 0x1C5) :
    lostRead s w r it sp = none := by
  rw [lostRead, if_pos h, rdtrLost, if_pos hop]

/-- The compare's own conditions come after those of its fields. -/
theorem specBads_icmpNeeds {s : State} {w : Warp} {r : Run} {it : Item} {bads : List Bad} (h : specBads s w r it (icmpNeeds it []) = []) :
    specBads s w r it (icmpNeeds it bads) = bads := by
  unfold specBads at h ⊢
  rw [List.append_eq_nil_iff] at h
  rw [icmpNeeds] at h ⊢
  rw [h.1, List.nil_append]

/-- The type is reported before the code. -/
theorem firstBad_type (code : Bool) (x y : Nat) : firstBad (opdBad true 5 x ++ opdBad code 6 y ++ encBad false 7 52) = some ⟨false, 5, x⟩ := by
  cases code <;> rfl

section Faults
variable {it : Item} (hzero : it.m 55 52 = 0)
include hzero

theorem firstBad_compareBads_type (hty : it.ty ∉ ([2, 3, 6, 7, 8, 9] : List Nat)) : firstBad (compareBads it) = some ⟨false, 5, it.ty⟩ := by
  have hbad : (!([2, 3, 6, 7] ++ [8, 9] : List Nat).contains it.ty) = true := by
    rw [Bool.not_eq_true', ← Bool.not_eq_true, List.contains_iff_mem]
    exact hty
  rw [compareBads, hbad, hzero]
  exact firstBad_type _ _ _

theorem firstBad_compareBads_code (hty : it.ty ∈ ([2, 3, 6, 7, 8, 9] : List Nat))
    (hcode : 6 ≤ it.m 58 56 ∨ it.ty ∈ ([8, 9] : List Nat) ∧ 2 ≤ it.m 58 56) :
    firstBad (compareBads it) = some ⟨false, 6, it.m 58 56⟩ := by
  have hgood : (!([2, 3, 6, 7] ++ [8, 9] : List Nat).contains it.ty) = false := by
    rw [Bool.not_eq_false', List.contains_iff_mem]
    exact hty
  have hbad : (decide (6 ≤ it.m 58 56) || (decide (8 ≤ it.ty) && decide (it.ty ≤ 9) && decide (2 ≤ it.m 58 56))) = true := by
    simp only [List.mem_cons, List.not_mem_nil, or_false] at hcode
    simp only [Bool.or_eq_true, Bool.and_eq_true, decide_eq_true_eq]
    omega
  rw [compareBads, hgood, hbad, hzero]
  rfl

end Faults

/-- What ICMP does where its checks pass. -/
def icmpDo (it : Item) (s : State) (w : Warp) (r : Run) : State :=
  predResult s r it fun l => compareInt (it.m 58 56) (intA it s w r l) (intB it s w r l)

theorem execIcmp_issues (f : Long) (s : State) :
    let it := longItem 0x055 false f
    exec (.icmp f) s = issue it (fun _ _ _ => icmpNeeds it (compareBads it)) s (icmpDo it) := rfl

/-- A compare whose own condition fails stops its group with the fault that the condition names. -/
theorem execIcmp_faults {f : Long} {s : State} {r : Run} {b : Bad} (hrun : s.cur.run = some r) (htransit : r.transit = false)
    (hbreak : breakLanes s s.cur r = 0)
    (hclear : blocked s.cur r false (specRegs (longItem 0x055 false f) (icmpNeeds (longItem 0x055 false f) [])) = false)
    (hfields : specBads s s.cur r (longItem 0x055 false f) (icmpNeeds (longItem 0x055 false f) []) = [])
    (hlost : nothingLost s.cur r = true) (hbad : firstBad (compareBads (longItem 0x055 false f)) = some b) :
    exec (.icmp f) s = .next (badTrap s r (longItem 0x055 false f) b) := by
  let it := longItem 0x055 false f
  have hop : it.op ≠ 0x1C5 := by rw [op_longItem (by decide)]; decide
  rw [execIcmp_issues]
  exact issue_bad it (fun _ _ _ => icmpNeeds it (compareBads it)) s (icmpDo it) r b hrun htransit hbreak hclear
    (by rw [specBads_icmpNeeds hfields]; exact hbad) (.inr (lostRead_of_nothingLost hlost hop))

end Sys2Proof.Machine
end

section
/-! SUPPORT. EXIT, YIELD, NOP and RCV (R140 to R142) where they may issue. -/

namespace Sys2Proof.Machine

theorem idleRows_complete (f : Long) (g : Short) : ∀ e ∈ idleRows f g, e.Completes := by
  simp only [idleRows, List.forall_mem_cons]
  exact ⟨row_completes _ fun _ => rfl, row_completes _ fun _ => rfl, row_completes _ fun _ => rfl, row_completes _ fun _ => rfl,
    List.forall_mem_nil _⟩

/-- A hint is set where its target is a place that a transfer may go to. -/
theorem rcvOp_completes {i : Instr} {it : Item} (hi : ∀ s, exec i s = rcvOp it s) : hintCompletes i it := by
  intro s r s' hready act hgood
  rw [hi, rcvOp, issue_ready it _ s _ r hready]
  dsimp only
  rw [hgood]

/-- The lanes that end leave the warp; the others go on, unless a handler has none left. -/
theorem exitOp_completes {i : Instr} {it : Item} (hi : ∀ s, exec i s = exitOp it s) : exitCompletes i it := by
  intro s r t hready hexit
  refine (hi s).trans ((issue_ready it (fun _ _ _ => _) s (exitDo it) r hready).trans ?_)
  rw [exitDo, hexit]

end Sys2Proof.Machine
end

section
/-! SUPPORT. LAUNCH (R143): what AppendToQueue answers in each case of R276, and the instruction's end with its status. -/

namespace Sys2Proof.Machine

section Append
variable {s : State} {core tenant q : Nat} {img : List Byte}

/-- There is no such queue. -/
theorem appendRecord_absent (h : 7 < q ∨ queueOn s (8 * tenant + q) = false) : appendRecord s core tenant q img = .status 2 s :=
  if_pos (by simpa using h)

theorem appendRecord_full (hq : q ≤ 7) (hon : queueOn s (8 * tenant + q) = true)
    (hfull : queueSlots s (8 * tenant + q) ≤ queueCount s (8 * tenant + q)) : appendRecord s core tenant q img = .status 1 s :=
  (if_neg (by simp [hq, hon])).trans (if_pos hfull)

/-- The image goes to the slot at WIDX, which then counts it. -/
theorem appendRecord_room {pa : Nat} {x : DWord} {u : State} (hq : q ≤ 7) (hon : queueOn s (8 * tenant + q) = true)
    (hroom : queueCount s (8 * tenant + q) < queueSlots s (8 * tenant + q))
    (hslot : translate s (coreShelf core) tenant (slotVa s (8 * tenant + q) (fld (pkgReg s 0x21 (8 * tenant + q)) 47 32)) .write 1 = (.ok pa x, u))
    (hfree : anyLocked u [pa] = false) (hheld : anyHeld u [pa] = false) :
    appendRecord s core tenant q img =
      let y := pkgReg u 0x21 (8 * tenant + q)
      .status 0 (pkgPut (applyWrite u (atAddr pa img)) 0x21 (8 * tenant + q) (putFld y 47 32 (fld y 47 32 + 1))) := by
  refine (if_neg (by simp [hq, hon])).trans ((if_neg (Nat.not_le.mpr hroom)).trans ?_)
  dsimp only
  rw [hslot]
  exact if_neg (by simp [hfree, hheld])

end Append

/-- A LAUNCH with nothing to release, whose image is readable, ends with the status that AppendToQueue gives. -/
theorem launchDo_status {it : Item} {s s' t : State} {r : Run} {loc : List (Nat × Option Nat × DWord)} {d : Nat}
    (hguard : guardU s.cur it = true) (hroom : dcFull s.cur it.dc = false) (hclear : Clear s r [5])
    (hloc : let a := operand s s.cur r it (.int 64 false) .a 0
      translateLanes (past s r [5]) s.cur imageLanes (fun j => globalCheck (a + 64 * j) 64) (fun j => a + 64 * j) .read 1 true = (.ok loc, s'))
    (hfree : anyLocked s' (loc.filterMap (·.2.1)) = false)
    (happend : appendRecord (imageFill s' loc) s.cur.core (tenantOf s' s.cur) (operand s s.cur r it vtCount .b 0) (imageBytes s' loc) =
      .status d t) :
    launchDo it s s.cur r = finish (onCur t (launchStatus it d)) r it := by
  unfold launchDo
  dsimp only
  rw [if_neg (by simp [hguard]), if_neg (ne_true_of_eq_false hroom), boundary_clear s r _ _ hclear, hloc]
  dsimp only
  rw [if_neg (ne_true_of_eq_false hfree), happend]

theorem launchOp_completes {i : Instr} {it : Item} (hi : ∀ s, exec i s = launchOp it s) : launchCompletes i it := by
  intro s r s' loc hready a hguard hroom hclear hloc hfree q k v Gives
  have hgives : ∀ d t, appendRecord v s.cur.core (tenantOf s' s.cur) q (imageBytes s' loc) = .status d t → Gives d t := fun d t happend =>
    (hi s).trans ((issue_ready it _ s (launchDo it) r hready).trans
      (congrArg Host.Outcome.next (launchDo_status hguard hroom hclear hloc hfree happend)))
  exact ⟨fun habsent => hgives 2 v (appendRecord_absent habsent), fun hq hon hfull => hgives 1 v (appendRecord_full hq hon hfull),
    fun pa x u hq hon hcount hslot hlock hheld => hgives 0 _ (appendRecord_room hq hon hcount hslot hlock hheld), hgives⟩

end Sys2Proof.Machine
end

section
/-! The obligations on control and integer instructions: shifts, compares and selects, EXIT, YIELD, NOP and RCV, LAUNCH. -/

namespace Sys2Proof.Settled
open Sys2Proof.Machine

/-- Settles O14: each shift of a number is that of the bit vector. -/
theorem shiftsMoveBits : Obligations.ShiftsMoveBits :=
  ⟨fun _ _ _ _ _ ha => ⟨shiftVal_left ha, shiftVal_right ha, shiftVal_arith⟩, fun a b n wrap => ⟨funnel_left a b n wrap, funnel_right a b n wrap⟩,
    fun f g e he => bitRows_complete f g e (List.mem_of_mem_take he)⟩

/-- Settles O15: each instruction writes its results alone, and of a compare's own conditions its type's comes first. -/
theorem compareAndSelect : Obligations.CompareAndSelect := by
  refine ⟨fun f e he => ⟨chooseRows_complete f e (List.mem_of_mem_take he), compareRows_frame f e he⟩, ?_⟩
  intro f s r it hrun htransit hbreak hclear hfields hzero hlost
  have hfaults {b : Bad} (hbad : firstBad (compareBads it) = some b) : exec (.icmp f) s = .next (badTrap s r it b) :=
    execIcmp_faults hrun htransit hbreak hclear hfields hlost hbad
  refine ⟨fun hty => hfaults (firstBad_compareBads_type hzero hty), fun hty hcode => hfaults (firstBad_compareBads_code hzero ?_ (.inr ⟨hty, hcode⟩)),
    fun hty hcode => hfaults (firstBad_compareBads_code hzero ?_ (.inl hcode))⟩
  · exact List.mem_append_right [2, 3, 6, 7] hty
  · exact List.mem_append_left [8, 9] hty

/-- Settles O18: YIELD and NOP are rows without operands, RCV and EXIT each an operation of its own. -/
theorem exitYieldNopHint : Obligations.ExitYieldNopHint := fun f g =>
  ⟨idleRows_complete f g, rcvOp_completes fun _ => rfl, exitOp_completes fun _ => rfl, exitOp_completes fun _ => rfl⟩

/-- Settles O46: the status is that of AppendToQueue. -/
theorem launchAppendsARecord : Obligations.LaunchAppendsARecord := fun _ => launchOp_completes fun _ => rfl

end Sys2Proof.Settled
end

section
/-! SUPPORT. Pool accesses of ATOMS and REDS that pass every check, and of an STS whose one lane is misaligned (R175, R176, R178). -/

namespace Sys2Proof.Machine

/-- A misaligned pool address fails before its bounds and owner are looked at (R176). -/
theorem poolCheck_misaligned (s : State) (w : Warp) (a n align : Nat) (owner : Bool) (h : a % align ≠ 0) :
    poolCheck s w a n align owner = some ⟨0x06, Nat.log2 align, dw a, 2⟩ := if_pos h

/-- An atomic on a pool whose lanes all pass their checks applies its groups at once. -/
theorem atomCompletes_of_issue {i : Instr} {it : Item} {sp : Spec} {ret : Bool}
    (hi : ∀ s, exec i s = issue it (fun _ _ _ => sp) s (atomPoolDo false ret it)) : atomCompletes i it sp ret := by
  intro s r hr n q act addr hstruck hchk hgo
  have hpass : ∀ l ∈ act, (poolReadCheck s s.cur (addr l) n n).or (struckBad r l (act.headD 0) (addr l)) = none := by
    intro l hl
    rw [struckBad_none _ _ _ _ hstruck, Option.or_none]
    exact hchk l hl
  rw [hi s, issue_ready it (fun _ _ _ => sp) s _ r hr]
  refine congrArg Host.Outcome.next ?_
  unfold atomPoolDo
  extract_lets
  rw [firstLane_none act _ hpass]
  exact overCauseway_own _ s _ _ _ hgo

end Sys2Proof.Machine
end

section
/-! SUPPORT. MMAS and CHRUN.tile: a command that starts is its instruction's, and the steps that find nothing wrong, one after the other
(R189, R218 to R220, R228, R230). -/

namespace Sys2Proof.Machine

/-! The command that a sweep or a chain sweep starts. -/

section Commands
variable {w : Warp} {r : Run} {it : Item}

theorem mmasSteps_started (s : State) : (mmasSteps s w r it).Gives (Started .mmas w r it) := by
  unfold mmasSteps
  exact .step fun _ _ => .step fun _ _ => startCmd_started fun _ => .ok (newCmd_issuedBy w r it .mmas)

theorem sideBooks_issuedBy {kind : CmdKind} {cbis live : List Nat} {c : Cmd} {s : State} (h : c.IssuedBy w r it kind) :
    (sideBooks r it cbis live c s).Gives (Cmd.IssuedBy w r it kind) :=
  .step fun _ _ => .ok h

/-- From its iterators on, a chain sweep's command is the one that it was made as. -/
theorem chrunTileIssue_started {s : State} {c : Cmd} {d : Iter} {xs : List Iter} (h : c.IssuedBy w r it .chrun) :
    (chrunTileIssue s w r it c d xs).Gives (Started .chrun w r it) := by
  unfold chrunTileIssue
  dsimp only
  split
  · exact .fault
  split
  · exact .fault
  exact .step fun _ _ => .step fun _ _ => .step fun _ _ => .step fun _ _ => .step fun _ _ =>
    .unlessHeld (startCmd_started fun _ => sideBooks_issuedBy h)

theorem chrunTileSteps_started (s : State) : (chrunTileSteps s w r it).Gives (Started .chrun w r it) := by
  unfold chrunTileSteps
  dsimp only
  split
  · exact fun _ _ h => nomatch h
  · exact chrunTileIssue_started (newCmd_issuedBy w r it .chrun)

end Commands

/-! Steps that find nothing wrong. -/

theorem mmas_completes (f : Long) : mmasCompletes (.mmas f) (longItem 0x181 true f) := by
  intro s r lit a n ctl bar at_ c p ra rd rs tiles hr hg hdc ha hcol hd hasc hbar hrowsA hrowsD hrowsSc hgroups had has hds hbars hbook
    e hroom
  rw [issue_onceDo (fun _ => rfl) hr hg hdc]
  refine congrArg Host.Outcome.next ?_
  have hends : ∀ x ∈ [align16 a 2, if at_.2 % 16 ≠ 0 then some (⟨0x06, 4, dw (at_.1 * 65536 + at_.2), 0⟩ : LaneBad) else none,
      align16 p.d 2, if mmasMx lit then align16 p.asc 2 else none, align16 bar 2,
      rowsBad s s.cur a (c.aSpans c.liveRows), rowsBad s s.cur p.d (c.dSpans c.liveRows), rowsBad s s.cur p.asc (c.scSpans c.liveRows),
      groupsBad s s.cur lit at_.1 at_.2 p], x = none := by
    have hscales : (if mmasMx lit then align16 p.asc 2 else none) = none :=
      ite_eq_right_iff.mpr fun hmx => align16_ok _ _ (hasc hmx)
    simp [align16_ok _ _ ha, hcol, align16_ok _ _ hd, hscales, align16_ok _ _ hbar, hrowsA, hrowsD, hrowsSc, hgroups]
  have happart : sharedBad s s.cur 3 (sharedBytes ra rd ++ sharedBytes ra rs ++ sharedBytes rd rs) = none :=
    sharedBad_none _ _ _ (by rw [had, has, hds]; rfl)
  have hcodebook : (if mmasTb lit = 0x13 && ((blockOf s s.cur).bind (·.cb)).isNone then some (⟨0x24, 2, 0, 0⟩ : LaneBad) else none) =
      none := if_neg (by
        simp only [Bool.and_eq_true, decide_eq_true_eq, not_and, Bool.not_eq_true, Option.isNone_eq_false_iff]
        exact hbook)
  unfold mmasSteps
  refine (issued_bind (issCheck_firstOf hends)).trans ?_
  refine (issued_bind (issCheck_firstOf (List.forall_mem_cons.mpr ⟨happart, List.forall_mem_cons.mpr ⟨hbars,
    List.forall_mem_singleton.mpr hcodebook⟩⟩))).trans ?_
  exact startCmd_room hroom rfl

theorem chrunTile_completes (f : Long) : chrunTileCompletes (.chrunTile f) (longItem 0x185 true f) := by
  intro s r d xs l u e' u1 ch thread ctl bar iters is c hr hg hdc hiters hspace hshape hbar hfix k live hsides happart hbars hlogged e
    hroom hbooks
  rw [issue_onceDo (fun _ => rfl) hr hg hdc]
  refine congrArg Host.Outcome.next ?_
  have hshapes : ¬ (xs.any fun x => (d.tens.dims.zip x.tens.dims).any fun e => e.2 ≠ e.1 && e.2 ≠ 1) = true := by
    simpa [or_iff_not_imp_left] using hshape
  have hlogged : (is.any fun i => boxLogged s.cur (k.side i) (k.sidePos i live)) = false := by simpa using hlogged
  have hsteps : chrunTileSteps s s.cur r (longItem 0x185 true f) = chrunTileIssue s s.cur r (longItem 0x185 true f) c d xs := by
    unfold chrunTileSteps
    dsimp only
    rw [hiters]
  rw [hsteps]
  unfold chrunTileIssue
  extract_lets
  rw [if_neg (by simp [hspace]), if_neg hshapes]
  refine (issued_bind (issCheck_ok (align16_ok _ _ hbar))).trans ?_
  refine (issued_bind hfix).trans ?_
  refine (issued_bind (issCheck_ok (List.findSome?_eq_none_iff.mpr hsides))).trans ?_
  refine (issued_bind (issCheck_ok (sharedBad_none _ _ _ (List.flatMap_eq_nil_iff.mpr fun i hi => ?apart)))).trans ?_
  case apart =>
    split
    next x hx =>
      have hskipped : (i = 0 || !x.tens.space || inPlace d x) = true ∨
          sharedBytes ((k.side i).fullRanges u s.cur) ((k.side 0).fullRanges u s.cur) = [] := by
        simpa [or_assoc] using happart i hi x hx
      exact ite_eq_left_iff.mpr hskipped.resolve_left
    next => rfl
  refine (issued_bind (issCheck_ok hbars)).trans ?_
  refine (issued_unheld hlogged).trans ?_
  exact startCmd_room hroom hbooks

end Sys2Proof.Machine
end

section
/-! SUPPORT. An instruction that acts once for its group, behind its guard (R116, R188); plain PCOPY, PREFT and QMERGE (R195, R198, R272,
R273). -/

namespace Sys2Proof.Machine

section Once
variable {i : Instr} {it : Item} {sp : State → Warp → Run → Spec} {steps : State → Warp → Run → Item → Iss State}
  (hi : ∀ s, exec i s = issue it sp s (onceDo steps it)) {s : State} {r : Run} (hr : Ready s r it (sp s s.cur r))
include hi hr

/-- What `issue_onceDo` says, where the requirements depend on the clause too: the steps' answer is the effect. -/
theorem exec_onceDo_guarded (hg : guardU s.cur it = true) (hd : dcFull s.cur it.dc = false) :
    exec i s = .next (issued s (steps s s.cur r it)) := by
  rw [hi s, issue_ready it sp s _ r hr]
  simp [onceDo, hg, hd]

/-- One whose guard is false only goes on. -/
theorem exec_onceDo_unguarded (hg : guardU s.cur it = false) : exec i s = .next (finish s r it) := by
  rw [hi s, issue_ready it sp s _ r hr, onceDo_guard steps it s s.cur r hg]

end Once

/-- A false guard is all that an instruction behind its guard needs to have no effect. -/
theorem idleUnderGuard_of_onceDo {i : Instr} {it : Item} {sp : State → Warp → Run → Spec}
    {steps : State → Warp → Run → Item → Iss State} (hi : ∀ s, exec i s = issue it sp s (onceDo steps it)) :
    idleUnderGuard i it sp :=
  fun _ _ hr hg _ => exec_onceDo_unguarded hi hr hg

/-! Plain PCOPY, PREFT and QMERGE. -/

theorem issBox_passes {s : State} {r : Run} {it : Item} {t : Tensor} {a k : Nat} {x : Option (Except Nat LaneBad)} (h : x = none) :
    issBox s r it t a k x = .ok () s := by
  rw [h, issBox_ok]

theorem issued_ok (s0 t s : State) : issued s0 (.ok t s) = t := rfl

/-- What plain PCOPY requires: the length that C gives is judged with the fields. -/
def pcopyNeeds (it : Item) (s : State) (w : Warp) (r : Run) : Spec :=
  let n := uniVal s w r it .c
  { uses := [.src .a vtCount accUni, .src .b vtCount accUni, .src .c vtCount accUni]
    bads := dcBads it ++ ctlBads s w it ++ maskBads w it ++ modZero it 60 60 ++ modZero it 58 56 ++ modZero it 54 52 ++
      opdBad (it.mb 55) 6 1 ++ opdBad (n % 16 ≠ 0 || n < 16 || 0x80000 < n) 8 n
    extra := [(1, it.d)] }

/-- What PREFT requires. -/
def preftNeeds (it : Item) : Spec :=
  { uses := [.unused .a, .src .b vtCount accUni, .src .c vtCount accS, .dstNone]
    bads := dcBads it ++ originBads it 4 ++ modZero it 60 60 ++ modZero it 58 52
    extra := engineRegs it 4 }

/-- What QMERGE requires. -/
def qmergeNeeds (it : Item) (s : State) (w : Warp) (r : Run) : Spec :=
  let n := uniVal s w r it .c
  { uses := [.src .a vtCount accS, .src .b vtCount accS, .src .c vtCount { v := false, latch := false, sr := false, uni := true },
      .dstNone]
    bads := modZero it 63 56 ++ opdBad (4 < it.m 54 52) 6 (it.m 54 52) ++ opdBad (n = 0 || 256 < n) 8 n }

theorem pcopy_completes (f : Long) : pcopyCompletes (.pcopy f) (longItem 0x142 true f) := by
  intro s r a b n bar hr hg hd ha hb hbar hspanA hspanB hbars c e hroom
  rw [exec_onceDo_guarded (sp := pcopyNeeds _) (fun _ => rfl) hr hg hd]
  refine congrArg Host.Outcome.next ?_
  have hchecks : ∀ x ∈ [align16 a 2, align16 b 2, align16 bar 2, spanBad s s.cur a 0 n, spanBad s s.cur b 0 n,
      barBad s s.cur (bitsN a 23 20) bar (rawTiles s s.cur a 0 n ++ rawTiles s s.cur b 0 n)], x = none := by
    simp [align16_ok _ _ ha, align16_ok _ _ hb, align16_ok _ _ hbar, hspanA, hspanB, hbars]
  unfold pcopySteps
  refine (issued_bind (issCheck_firstOf hchecks)).trans ?_
  exact startCmd_room hroom rfl

theorem preft_completes (f : Long) : preftCompletes (.preft f) (longItem 0x144 true f) := by
  intro s r t fmt b hr hg hd htens horg c hfmt k hbox hlogged
  rw [issue_onceDo (sp := fun _ _ it => preftNeeds it) (fun _ => rfl) hr hg hd]
  refine congrArg Host.Outcome.next ?_
  unfold preftSteps
  refine (issued_bind (readAtOrigin_ok htens horg)).trans ?_
  dsimp only
  rw [hfmt]
  dsimp only
  refine (issued_bind (issBox_passes hbox)).trans ?_
  exact (issued_unheld hlogged).trans (issued_ok s _ s)

theorem qmerge_completes (f : Long) : qmergeCompletes (.qmerge f) (longItem 0x163 true f) := by
  intro s r q a b n hd len hr hg ha hb hspanB hspanA src dst hownedB hownedA hgo hpoison v
  refine (issue_ready (longItem 0x163 true f) (qmergeNeeds _) s (qmergeDo false _) r hr).trans (congrArg Host.Outcome.next ?_)
  have hchecks : firstOf [align16 b 2, align16 a 2, spanBad s s.cur b 0 len, spanBad s s.cur a 0 (tripleBytes hd),
      (ownedTile s src.1 src.2 len).map fun k => (⟨0x21, k, dw b, 2⟩ : LaneBad),
      (ownedTile s dst.1 dst.2 (tripleBytes hd)).map fun k => (⟨0x21, k, dw a, 2⟩ : LaneBad)] = none :=
    firstOf_none _ (by simp [align16_ok _ _ ha, align16_ok _ _ hb, hspanB, hspanA, hownedB, hownedA])
  unfold qmergeDo
  dsimp only
  rw [if_neg (by simp [hg]), hchecks]
  refine (overCauseway_own _ s _ _ _ hgo).trans ?_
  exact if_neg (ne_true_of_eq_false hpoison)

end Sys2Proof.Machine
end

section
/-! The obligations on pool atomics and misaligned stores, sweeps, copies, prefetches and merges, and on false guards. -/

namespace Sys2Proof.Settled
open Sys2Proof.Machine

/-- Settles O29: a command that starts is its instruction's, and steps that find nothing wrong make the command that is under way. -/
theorem sweepCommandsStart : Obligations.SweepCommandsStart := fun f =>
  ⟨commandStarts_of_issue (fun _ => rfl) fun s _ _ => mmasSteps_started s,
    commandStarts_of_issue (fun _ => rfl) fun s _ _ => chrunTileSteps_started s, mmas_completes f, chrunTile_completes f⟩

/-- Settles O21: both are atomics on the pool; REDS returns nothing. -/
theorem poolAtomicsComplete : Obligations.PoolAtomicsComplete := fun _ =>
  ⟨atomCompletes_of_issue fun _ => rfl, atomCompletes_of_issue fun _ => rfl⟩

/-- Settles O24: alignment is the first check of the one lane. -/
theorem misalignedPoolStoreStops : Obligations.MisalignedPoolStoreStops := by
  intro f s r l it n hr hl ha
  refine (issue_ready it (fun _ _ _ => ldsNeeds it) s _ r hr).trans (congrArg Host.Outcome.next ?_)
  exact stsDo_oneLaneBad it s s.cur r l _ hl (poolCheck_misaligned s s.cur _ n n true ha)

/-- Settles O30: with every check passed each instruction reaches its effect. -/
theorem copyPrefetchMergeComplete : Obligations.CopyPrefetchMergeComplete := fun f =>
  ⟨pcopy_completes f, preft_completes f, qmerge_completes f⟩

/-- Settles O34: each of the nine acts once for its group, behind its guard. -/
theorem falseGuardMeansNoEffect : Obligations.FalseGuardMeansNoEffect := fun _ =>
  ⟨idleUnderGuard_of_onceDo fun _ => rfl, idleUnderGuard_of_onceDo fun _ => rfl, idleUnderGuard_of_onceDo fun _ => rfl,
    idleUnderGuard_of_onceDo fun _ => rfl, idleUnderGuard_of_onceDo fun _ => rfl, idleUnderGuard_of_onceDo fun _ => rfl,
    idleUnderGuard_of_onceDo fun _ => rfl, idleUnderGuard_of_onceDo fun _ => rfl, idleUnderGuard_of_onceDo fun _ => rfl⟩

end Sys2Proof.Settled
end

section
/-! SUPPORT. What KSET, SIGN and MMA do to the convergence register that they name (R208 to R211, R214, R215), each case of the effect
by its own hypotheses. -/

namespace Sys2Proof.Machine

/-- An instruction that `issue` makes and that may issue takes its effect. -/
theorem exec_issued {i : Instr} {it : Item} {sp : State → Warp → Run → Spec} {k : State → Warp → Run → State}
    {s t : State} {r : Run} (hi : exec i s = issue it sp s k) (hr : Ready s r it (sp s s.cur r)) (hk : k s s.cur r = t) :
    exec i s = .next t := by
  rw [hi, issue_ready it sp s k r hr, hk]

/-- A valid register that names the warp passes the test that SIGN and MMA make of it. -/
theorem not_foreign {k : Conv} {w : Warp} (hv : k.v = true) (hwarp : k.warp = w.wid) :
    ¬ (!k.v || decide (k.warp ≠ w.wid)) = true := by
  simp [hv, hwarp]

section Convergence
variable {it : Item} {s : State} {w : Warp} {r : Run} {b : Block} (hb : blockOf s w = some b)
include hb

/-- A register that is not open is claimed (R209). -/
theorem ksetDo_claims (hg : guardU w it = true) (hclosed : ((convOf b (it.d % 16)).v && (convOf b (it.d % 16)).isOpen) = false) :
    ksetDo it s w r =
      finish (convPut s b (it.d % 16) { v := true, warp := w.wid, set := w32 (uniVal s w r it .a) &&& w.live }) r it := by
  simp [ksetDo, hb, hg, hclosed]

/-- A register that is not valid, or is another warp's, takes no signature (R210). -/
theorem signDo_faults (hact : activeLanes w r it ≠ 0) (hk : (convOf b (it.d % 16)).v = false ∨ (convOf b (it.d % 16)).warp ≠ w.wid) :
    signDo it s w r = convFault s r 1 0 (it.d % 16) (convOf b (it.d % 16)) := by
  have hstale : (!(convOf b (it.d % 16)).v || decide ((convOf b (it.d % 16)).warp ≠ w.wid)) = true := by simpa using hk
  simp only [signDo, hb]
  rw [if_neg hact, if_pos hstale]

section Valid
variable (hact : activeLanes w r it ≠ 0) (hv : (convOf b (it.d % 16)).v = true) (hwarp : (convOf b (it.d % 16)).warp = w.wid)
include hact hv hwarp

/-- The lanes that SIGN places in SIGNED leave DROPPED. -/
theorem signDo_signs (hdrop : it.mb 52 = false) :
    let k := convOf b (it.d % 16)
    let ls := activeLanes w r it &&& k.set &&& ~~~ k.arrived
    signDo it s w r = finish (convPut s b (it.d % 16) { k with signed := k.signed ||| ls, dropped := k.dropped &&& ~~~ ls }) r it := by
  intro k ls
  unfold signDo
  rw [hb]
  dsimp only
  rw [if_neg hact, if_neg (not_foreign hv hwarp), if_neg (by simp [hdrop])]

/-- The lanes that SIGN.drop places in DROPPED leave SIGNED; the round is checked. -/
theorem signDo_drops {t : State} (hdrop : it.mb 52 = true)
    (hround : let k := convOf b (it.d % 16)
      let ls := activeLanes w r it &&& k.set &&& ~~~ k.arrived
      checkRound (convPut s b (it.d % 16) { k with dropped := k.dropped ||| ls, signed := k.signed &&& ~~~ ls })
        w.ctx w.clu w.bid (it.d % 16) none = some t) :
    signDo it s w r = finish t r it := by
  unfold signDo
  rw [hb]
  dsimp only at hround ⊢
  rw [if_neg hact, if_neg (not_foreign hv hwarp), if_pos hdrop, hround]

end Valid
end Convergence

/-! The instructions. -/

theorem exec_kset (f : Long) (s : State) : exec (.kset f) s = ksetOp (longItem 0x182 true f) s := rfl
theorem exec_sign (f : Long) (s : State) : exec (.sign f) s = signOp (longItem 0x183 false f) s := rfl
theorem exec_mma (f : Long) (s : State) : exec (.mma f) s = mmaOp (longItem 0x180 false f) s := rfl

theorem kset_completes (f : Long) : ksetCompletes (.kset f) (longItem 0x182 true f) := by
  intro s r b hr hb hg hclosed
  exact exec_issued (exec_kset f s) hr (ksetDo_claims hb hg hclosed)

theorem sign_completes (f : Long) : signCompletes (.sign f) (longItem 0x183 false f) := by
  intro s r b hr k act ls hb hact hv hwarp
  exact ⟨fun hdrop => exec_issued (exec_sign f s) hr (signDo_signs hb hact hv hwarp hdrop),
    fun t hdrop hround => exec_issued (exec_sign f s) hr (signDo_drops hb hact hv hwarp hdrop hround)⟩

theorem sign_faults (f : Long) : signFaults f := by
  intro s r b it k hr hb hact hk
  exact exec_issued (exec_sign f s) hr (signDo_faults hb hact hk)

/-- Each check of R214 passes in turn, so the group's lanes arrive and the round is checked. -/
theorem mma_completes (f : Long) : mmaCompletes (.mma f) (longItem 0x180 false f) := by
  intro s r b t hr n k hb hdc hlimits hv hwarp hsigned hrows hmpc hround
  refine exec_issued (exec_mma f s) hr ?_
  have hmembers : ¬ (decide (r.grp &&& ~~~ (k.set &&& k.signed) ≠ 0) ||
      (lanesOf r.grp).any fun l => decide (mmaM (longItem 0x180 false f) ≤ l)) = true := by
    simpa [hsigned] using hrows
  have hplace : ¬ (decide (k.mpc ≠ 0) && decide (k.mpc ≠ r.pc.toNat)) = true := by
    simpa [or_iff_not_imp_left] using hmpc
  unfold mmaDo
  rw [hb]
  dsimp only
  rw [if_neg (by simp [hdc]), hlimits]
  dsimp only
  rw [if_neg (not_foreign hv hwarp), if_neg hmembers, if_neg hplace, hround]

end Sys2Proof.Machine
end

section
/-! SUPPORT. What CHLD, ITSET and CHRUN on registers do (R226 to R229). -/

namespace Sys2Proof.Machine

theorem exec_chld (f : Long) (s : State) : exec (.chld f) s = chldOp (longItem 0x184 true f) s := rfl
theorem exec_itset (f : Long) (s : State) : exec (.itset f) s = itsetOp (longItem 0x186 true f) s := rfl
theorem exec_chrun (f : Long) (s : State) : exec (.chrun f) s = chrunOp (longItem 0x185 false f) s := rfl

theorem chld_completes (f : Long) : chldCompletes (.chld f) (longItem 0x184 true f) := by
  intro s r b hr hb hg hidle ch
  refine exec_issued (exec_chld f s) hr ?_
  unfold chldDo
  rw [if_neg (by simp [hg]), if_neg (by simp [hidle]), hb]

/-- The record and the origin pass their checks, so the iterator is set. -/
theorem itset_completes (f : Long) : itsetCompletes (.itset f) (longItem 0x186 true f) := by
  intro s r t hr hg htens horg
  refine exec_issued (exec_itset f s) hr ((if_pos hg).trans ?_)
  unfold itsetSteps
  exact (issued_bind (readAtOrigin_ok htens horg)).trans (issued_ok s _ s)

/-- With room in its counter and its energy charged, CHRUN writes its lanes. -/
theorem chrun_completes (f : Long) : chrunCompletes (.chrun f) (longItem 0x185 false f) := by
  intro s r t ch ins hr hdc hcharge lanes w
  refine exec_issued (exec_chrun f s) hr ?_
  unfold chrunDo
  rw [if_neg (by simp [hdc])]
  dsimp only
  rw [hcharge]

end Sys2Proof.Machine
end

section
/-! The obligations on the convergence registers and on the chains. -/

namespace Sys2Proof.Settled
open Sys2Proof.Machine

/-- Settles O31: KSET passes its one test; MMA's lanes pass each check of R214 and arrive. -/
theorem convergenceInstructionsComplete : Obligations.ConvergenceInstructionsComplete := fun f => ⟨kset_completes f, mma_completes f⟩

/-- Settles O32: with an active lane the register decides: the warp's own takes the lanes, any other faults. -/
theorem signActsInItsLanes : Obligations.SignActsInItsLanes := fun f => ⟨sign_completes f, sign_faults f⟩

/-- Settles O33: nothing holds the three back, so each reaches its effect. -/
theorem chainInstructionsComplete : Obligations.ChainInstructionsComplete := fun f =>
  ⟨chld_completes f, itset_completes f, chrun_completes f⟩

end Sys2Proof.Settled
end

section
/-! SUPPORT. Barrier objects that lanes use in the executing core's own pool: BINIT, EXPECT, ARRIVE, WAITP and BTEST (R236 to R241). -/

namespace Sys2Proof.Machine

theorem exec_binit (f : Long) (s : State) : exec (.binit f) s = binitOp (longItem 0x1A0 true f) s := rfl
theorem exec_expect (f : Long) (s : State) : exec (.expect f) s = expectOp (longItem 0x1A2 true f) s := rfl
theorem exec_arrive (f : Long) (s : State) : exec (.arrive f) s = arriveOp (longItem 0x1A1 false f) s := rfl
theorem exec_waitp (f : Long) (s : State) : exec (.waitp f) s = waitpOp (longItem 0x1A3 false f) s := rfl
theorem exec_btest (f : Long) (s : State) : exec (.btest f) s = btestOp (longItem 0x1A4 false f) s := rfl

/-- With its guard true and its checks passed, BINIT's one access goes to its object. -/
theorem binitDo_accesses {it : Item} {s : State} {r : Run} (hguard : guardU s.cur it = true)
    (hchk : poolCheck s s.cur (operand s s.cur r it vtCount .a 0) 16 16 true = none) :
    let p := poolLoc s s.cur (operand s s.cur r it vtCount .a 0) 16
    binitDo false it s s.cur r = overCauseway false [p.1] s r.arrived fun _ =>
      finish (barWrite { s with barSigs := s.barSigs.filter fun e => e.1 / 65536 != poolKey p.1 p.2 } p.1 p.2
        (dw (operand s s.cur r it vtCount .b 0 * 2 ^ 34 + 16 + it.m 54 52)) 0) r.arrived it := by
  unfold binitDo
  dsimp only
  rw [if_neg (by simp [hguard]), hchk]

theorem binit_completes (f : Long) : binitCompletes (.binit f) (longItem 0x1A0 true f) := by
  intro s r a b hready p hguard hchk hgo
  exact exec_issued (exec_binit f s) hready ((binitDo_accesses hguard hchk).trans (overCauseway_own _ s _ _ _ hgo))

theorem expect_completes (f : Long) : expectCompletes (.expect f) (longItem 0x1A2 true f) := by
  intro s r hready a b hguard htransit hobj p o
  obtain ⟨hpass, hgo⟩ := hobj
  obtain ⟨hchk, -⟩ := hpass _ List.mem_cons_self
  refine exec_issued (exec_expect f s) hready ?_
  unfold expectDo
  dsimp only
  rw [if_neg (by simp [hguard]), hchk]
  exact barAccess_here s r _ _ _ _ _ (fun l hl => (hpass l hl).1) (fun l hl => (hpass l hl).2) htransit hgo fun _ _ => rfl

/-- No object overflows, so that the arrivals at each take effect behind the release. -/
theorem arrive_completes (f : Long) : arriveCompletes (.arrive f) (longItem 0x1A1 false f) := by
  intro s r hready act addr loc hact htransit hobj hclear hroom
  obtain ⟨hpass, hgo⟩ := hobj
  refine exec_issued (exec_arrive f s) hready ?_
  unfold arriveDo
  dsimp only
  rw [if_neg (by simpa using hact)]
  exact barAccess_released s r _ _ _ _ _ _ rfl (fun l hl => (hpass l hl).1) (fun l hl => (hpass l hl).2) htransit hgo hclear hroom

/-- BTEST with an active lane reads its objects as they stand. -/
theorem btestDo_reads {it : Item} {s : State} {r : Run} :
    let act := lanesOf (activeLanes s.cur r it)
    let addr := operand s s.cur r it vtCount .a
    let tok := operand s s.cur r it vtCount .b
    let loc := fun l => poolLoc s s.cur (addr l) 16
    let obj := fun l => (barRead s (loc l).1 (loc l).2).1
    let ok := fun l => tokenDone (barPhase (obj l)) (tok l)
    let take := fun (w : Warp) l =>
      acquireAt (barScope (obj l)) false (phaseSigs s (loc l).1 (loc l).2 (tok l % 2 ^ 16)) (1#32 <<< l) w
    act ≠ [] → r.transit = false → ObjectsUsable s act addr →
    btestDo false it s s.cur r = finish (onCur (atObjects s s.cur act addr) fun w =>
      (act.filter ok).foldl take (act.foldl (fun w l => pset w it.d l (ok l)) w)) r it := by
  intro act addr tok loc obj ok take hact htransit hobj
  obtain ⟨hpass, hgo⟩ := hobj
  unfold btestDo
  dsimp only
  rw [if_neg (by simpa using hact)]
  exact barAccess_here s r _ _ _ _ _ (fun l hl => (hpass l hl).1) (fun l hl => (hpass l hl).2) htransit hgo fun _ _ => rfl

theorem btest_completes (f : Long) : btestCompletes (.btest f) (longItem 0x1A4 false f) := by
  intro s r hready act addr tok loc obj ok take hact htransit hobj
  exact exec_issued (exec_btest f s) hready (btestDo_reads hact htransit hobj)

/-! WAITP dooms an open transaction first, which touches no object. -/

@[simp] theorem barRead_past (s : State) (r : Run) (scs : List Nat) (core off : Nat) : barRead (past s r scs) core off = barRead s core off := rfl
@[simp] theorem phaseSigs_past (s : State) (r : Run) (scs : List Nat) (core off p : Nat) :
    phaseSigs (past s r scs) core off p = phaseSigs s core off p := rfl

@[simp] theorem barRead_doom (s : State) (c core off : Nat) : barRead (doom s c) core off = barRead s core off := by
  simp only [barRead, poolNat, poolBytes, doom_pool]

theorem poolReadCheck_doom (s : State) (w : Warp) (c a n align : Nat) :
    poolReadCheck (doom s c) w a n align = poolReadCheck s w a n align := by
  rw [doom_eq]
  rfl

theorem poolReadCheck_congr {s : State} {w v : Warp} {a n align : Nat} (hcore : v.core = w.core) (hctx : v.ctx = w.ctx) (hclu : v.clu = w.clu) :
    poolReadCheck s v a n align = poolReadCheck s w a n align := by
  have hat : poolAt s v a n = poolAt s w a n := poolAt_congr s s w v a n rfl hcore hctx hclu
  unfold poolReadCheck poolCheck
  rw [hat]

theorem goesOut_doom (s : State) (w : Warp) (c : Nat) (cores : List Nat) : goesOut (doom s c) w cores = goesOut s w cores := by
  simp only [goesOut, doom_warps]

@[simp] theorem phaseSigs_doom (s : State) (c core off p : Nat) : phaseSigs (doom s c) core off p = phaseSigs s core off p := by
  rw [doom_eq]
  rfl

theorem objScopes_doom (s : State) (c : Nat) (objs : List (Nat × Nat)) : objScopes (doom s c) objs = objScopes s objs := by
  simp only [objScopes, barRead_doom]

/-- A boundary concerns the same warp before and after its transaction is doomed. -/
theorem boundary_doom (s : State) (c : Nat) (r : Run) (scs : List Nat) (k : State → Run → State) :
    boundary (doom s c) s.cur r scs k = boundary (doom s c) (doom s c).cur r scs k := by
  have hlevel : scopeLevel (doom s c) s.cur = scopeLevel (doom s c) (doom s c).cur := by
    funext scope
    simp only [scopeLevel, blockOf, doom_ctx, doom_clu, doom_bid]
    rfl
  simp only [boundary, outstanding, hlevel, doom_uid, doom_core, doom_olog]

/-- An access to objects concerns the same warp before and after its transaction is doomed. -/
theorem barAccess_doom (rel atTarget : Bool) (s : State) (c : Nat) (r : Run) (it : Item) (lanes : List Nat) (addr : Nat → Nat)
    (bad : State → Nat → Option Nat) (go : State → Run → State) :
    barAccess rel atTarget (doom s c) s.cur r it lanes addr bad go = barAccess rel atTarget (doom s c) (doom s c).cur r it lanes addr bad go := by
  have hloc : ∀ t a n, poolLoc t (doom s c).cur a n = poolLoc t s.cur a n := fun t a n =>
    poolLoc_congr t t s.cur (doom s c).cur a n rfl (doom_core s c) (doom_ctx s c) (doom_clu s c)
  have hkey : (doom s c).cur.key = s.cur.key := by simp only [Warp.key, doom_ctx, doom_clu]
  have hchk : ∀ a n align, poolReadCheck (doom s c) (doom s c).cur a n align = poolReadCheck (doom s c) s.cur a n align := fun a n align =>
    poolReadCheck_congr (doom_core s c) (doom_ctx s c) (doom_clu s c)
  simp only [barAccess, barFault, poolCores, hloc, hkey, hchk, boundary_doom]

/-- Objects that a warp may use it may use with its transaction doomed. -/
theorem objectsUsable_doom {s : State} {lanes : List Nat} {addr : Nat → Nat} (c : Nat) (h : ObjectsUsable s lanes addr) :
    ObjectsUsable (doom s c) lanes addr := by
  obtain ⟨hpass, hgo⟩ := h
  refine ⟨fun l hl => ?_, ?_⟩
  · rw [poolReadCheck_congr (doom_core s c) (doom_ctx s c) (doom_clu s c), poolReadCheck_doom, poolLoc_doom, barRead_doom]
    exact hpass l hl
  · simp only [poolCores, poolLoc_doom]
    rw [goesOut_doom, goesOut, doom_core]
    exact hgo

theorem atObjects_past_doom (s : State) (c : Nat) (r : Run) (scs : List Nat) (w : Warp) (lanes : List Nat) (addr : Nat → Nat) :
    atObjects (past (doom s c) r scs) w lanes addr =
      onCur (past (doom s c) r scs) (metTiles (past (doom s c) r scs) lanes (fun l => poolLoc s w (addr l) 16) 16) := by
  simp only [atObjects, past, poolLoc_onCur, poolLoc_doom_who]

/-- Lanes whose token is complete return behind the release, the others park. -/
theorem waitp_completes (f : Long) : waitpCompletes (.waitp f) (longItem 0x1A3 false f) := by
  intro s r hready act addr tok obj st scs hact htransit hobj hclear back rest gs t
  refine exec_issued (exec_waitp f s) hready ?_
  obtain ⟨hpass, hgo⟩ := objectsUsable_doom 0x05 hobj
  have hscs : scs = objScopes (doom s 0x05) (act.map fun l => poolLoc (doom s 0x05) (doom s 0x05).cur (addr l) 16) := by
    simp only [poolLoc_doom, objScopes_doom]
    rfl
  unfold waitpDo
  dsimp only
  rw [if_neg (by simpa using hact), barAccess_doom, barAccess_released (doom s 0x05) r _ act addr _ _ scs hscs (fun l hl => (hpass l hl).1)
    (fun l hl => (hpass l hl).2) htransit hgo hclear fun _ _ => rfl]
  simp only [poolLoc_doom, barRead_onCur, barRead_past, barRead_doom, phaseSigs_onCur, phaseSigs_past, phaseSigs_doom]
  rw [← atObjects_past_doom]

end Sys2Proof.Machine
end

section
/-! SUPPORT. TWAIT and the transactions (R245 to R251) where they may issue. -/

namespace Sys2Proof.Machine

theorem exec_twait (f : Long) (s : State) : exec (.twait f) s = twaitOp (longItem 0x1A9 false f) s := rfl
theorem exec_xend (f : Long) (s : State) : exec (.xend f) s = xendOp (longItem 0x1AB true f) s := rfl

/-- Watches in memory of the module alone are sent, and their lanes park. -/
theorem twaitLook_sends {it : Item} {act : List Nat} {v : Nat → LaneVal} {watch : Bool} {s s' : State} {r : Run}
    {loc : List (Nat × Option Nat × DWord)}
    (hloc : translateLanes s s.cur act (fun l => globalCheck (v l).va (tyBytes it.ty)) (fun l => (v l).va) .read 1 true = (.ok loc, s'))
    (hhost : firstLane act (watchHostBad loc fun l => (v l).va) = none) (hmapped : ∀ l ∈ act, (locOf loc l).1.isSome = true) :
    twaitLook it act v watch s r =
      endWait (sendWatches s' it (some r) r.pc (dw (fallThrough r)) (r.begun - 1) act loc v) r it (lanesFrom act) watch := by
  have hall : act.find? (fun l => ((locOf loc l).1).isNone) = none := by
    rw [List.find?_eq_none]
    intro l hl
    rw [Option.isNone_eq_false_iff.mpr (hmapped l hl)]
    exact Bool.false_ne_true
  unfold twaitLook
  dsimp only
  rw [hloc]
  dsimp only
  rw [hhost, hall]

theorem twait_completes (f : Long) : twaitCompletes (.twait f) (longItem 0x1A9 false f) := by
  intro s r s' loc hready act v va q u hact hclear hloc hhost hmapped
  refine exec_issued (exec_twait f s) hready ?_
  unfold twaitDo
  dsimp only
  rw [if_neg (by simpa using hact)]
  exact (boundary_clear u q [twScope _] _ hclear).trans (twaitLook_sends hloc hhost hmapped)

theorem transactionRows_complete (f : Long) : ∀ e ∈ transactionRows f, e.Completes := by
  simp only [transactionRows, List.forall_mem_cons]
  exact ⟨row_completes _ fun _ => rfl, row_completes _ fun _ => rfl, List.forall_mem_nil _⟩

section Xend
variable {it : Item} {s : State} {r : Run} (hguard : guardU s.cur it = true)
include hguard

/-- Outside a transaction. -/
theorem xendDo_outside (hopen : s.cur.txn.isOpen = false) : xendDo it s s.cur r = closeTxn s r it (some 0x0B) false := by
  simp [xendDo, hguard, hopen]

section Open
variable (hopen : s.cur.txn.isOpen = true)
include hopen

/-- A doomed one fails with the cause that doomed it. -/
theorem xendDo_doomed (hdoomed : s.cur.txn.doomed = true) : xendDo it s s.cur r = closeTxn s r it none false := by
  simp [xendDo, hguard, hopen, hdoomed]

/-- With nothing to wait for and no poison read, the versions of the lines read decide. -/
theorem xendDo_decides (hdoomed : s.cur.txn.doomed = false)
    (hlocked : anyLocked s ((writeSet s s.cur).map (·.pa) ++ s.cur.txn.reads.map fun e => e.1 * 256) = false)
    (hheld : anyHeld s ((writeSet s s.cur).map (·.pa)) = false) (hatomic : (writeSet s s.cur).any (atomicBefore s) = false)
    (hahead : aheadOfSet s s.cur = []) (hpoison : ∀ e ∈ s.cur.txn.reads, poisonedAt s (e.1 * 256) 256 = false) :
    xendDo it s s.cur r =
      if s.cur.txn.reads.all fun e => nget 0 s.ver e.1 == e.2 then closeTxn (commitSet s s.cur r) r it (some 0x01) true
      else closeTxn { s with staging := s.staging.filter fun e => e.txn != s.cur.uid } r it (some 0x02) false := by
  have hclean : s.cur.txn.reads.find? (fun e => poisonedAt s (e.1 * 256) 256) = none := by
    rw [List.find?_eq_none]
    exact fun e he => ne_true_of_eq_false (hpoison e he)
  unfold xendDo
  dsimp only
  rw [if_neg (by simp [hguard]), if_neg (by simp [hopen]), if_neg (ne_true_of_eq_false hdoomed), if_neg (by simp [hlocked, hheld, hatomic]),
    if_neg (by simp [hahead]), hclean]

end Open
end Xend

theorem xend_completes (f : Long) : xendCompletes (.xend f) (longItem 0x1AB true f) := by
  intro s r hready hguard w
  have hexec {t : State} (h : xendDo (longItem 0x1AB true f) s s.cur r = t) : exec (.xend f) s = .next t :=
    exec_issued (exec_xend f s) hready h
  refine ⟨fun hopen => hexec (xendDo_outside hguard hopen), fun hopen hdoomed => hexec (xendDo_doomed hguard hopen hdoomed), ?_⟩
  intro hopen hdoomed hlocked hheld hatomic hahead hpoison
  have hdecides := xendDo_decides (r := r) hguard hopen hdoomed hlocked hheld hatomic hahead hpoison
  refine ⟨fun hsame => hexec (hdecides.trans (if_pos ?_)), fun hchanged => hexec (hdecides.trans (if_neg ?_))⟩
  · simpa using hsame
  · simpa using hchanged

end Sys2Proof.Machine
end

section
/-! SUPPORT. Hardware barriers and watches: each event where it is enabled (R243, R246 to R248). -/

namespace Sys2Proof.Machine

section Events
variable {n : Nat} {s : State}

theorem hwBarrierComplete_releases {x : HwInst} (hat : ((hwWaiting s).filter (hwComplete s))[n]? = some x) :
    hwBarrierComplete n s = { mapWarps s (hwRelease s x (hwSigs s x)) with
      saved := s.saved.map fun v => { v with warps := v.warps.map (hwRelease s x (hwSigs s x)) } } := by
  unfold hwBarrierComplete
  rw [hat]

variable {x : Watch}

section Register
variable (hat : (s.watches.filter fun x => x.st == 0)[n]? = some x) (hfree : (lineOf s x.pa).locked = false)
  (hdrain : drainHolds s (coreShelf x.core) x.gen x.pa = false) (hclean : poisonedAt s x.pa x.width = false)
include hat hfree hdrain hclean

theorem watchRegister_holds (hholds : watchHolds x (homeNat s x.pa x.width) = true) :
    watchRegister n s = putWatch s { x with st := 3, answer := 1, sig := homeSigs s x.pa x.width, set := setSeen s x.pa x.width s.order } := by
  unfold watchRegister
  rw [hat]
  dsimp only
  rw [if_neg (by simp [hfree, hdrain]), if_neg (by simp [hclean]), if_pos hholds]

theorem watchRegister_enters (hholds : watchHolds x (homeNat s x.pa x.width) = false)
    (hroom : watchCount s (homeSlice s (coreShelf x.core) x.pa) 1 < Config.tideEntries) :
    watchRegister n s = putWatch s { x with st := 1 } := by
  unfold watchRegister
  rw [hat]
  dsimp only
  rw [if_neg (by simp [hfree, hdrain]), if_neg (by simp [hclean]), if_neg (ne_true_of_eq_false hholds), if_pos hroom]

end Register

theorem watchAnswer_delivers {w : Warp} (hat : (s.watches.filter fun x => x.st == 3)[n]? = some x) (hwarp : x.warp ≠ 0)
    (hclean : x.answer ≠ 5) (hfind : findWarp s x.warp = some w) : watchAnswer n s = putWarp (dropWatch s x.id) (answerLanes x w) := by
  unfold watchAnswer
  rw [hat]
  dsimp only
  rw [if_neg hwarp, hfind]
  exact if_neg hclean

theorem twaitTimeout_cancels (hat : (s.watches.filter fun x => !x.cancel && (x.deadline.any fun d => decide (d ≤ s.clk)))[n]? = some x) :
    twaitTimeout n s = putWatch s { x with cancel := true } := by
  unfold twaitTimeout
  rw [hat]

theorem watchCancel_answers (hat : (s.watches.filter fun x => x.cancel && (x.st == 1 || x.st == 2))[n]? = some x) :
    watchCancel n s = putWatch s { x with st := 3, answer := 2 } := by
  unfold watchCancel
  rw [hat]

end Events

theorem waitEvents_hold : waitEvents :=
  ⟨fun _ _ _ hat => congrArg Host.Outcome.next (hwBarrierComplete_releases hat),
    fun _ _ _ hat hfree hdrain hclean =>
      ⟨fun hholds => congrArg Host.Outcome.next (watchRegister_holds hat hfree hdrain hclean hholds),
        fun hholds hroom => congrArg Host.Outcome.next (watchRegister_enters hat hfree hdrain hclean hholds hroom)⟩,
    fun _ _ _ _ hat hwarp hclean hfind => congrArg Host.Outcome.next (watchAnswer_delivers hat hwarp hclean hfind),
    fun _ _ _ hat => congrArg Host.Outcome.next (twaitTimeout_cancels hat),
    fun _ _ _ hat => congrArg Host.Outcome.next (watchCancel_answers hat)⟩

end Sys2Proof.Machine
end

section
/-! SUPPORT. RDSR, WRSR, TRAP and BPT (R254, R255), and the handler's instructions inside and outside a handler (R256, R257). -/

namespace Sys2Proof.Machine

theorem systemRows_complete (f : Long) (g : Short) : ∀ e ∈ systemRows f g, e.Completes := by
  simp only [systemRows, List.forall_mem_cons]
  exact ⟨row_completes _ fun _ => rfl, row_completes _ fun _ => rfl, row_completes _ fun _ => rfl, List.forall_mem_nil _⟩

theorem softTrap_idle {cause : Nat} {it : Item} {s : State} {w : Warp} {r : Run} (hact : activeLanes w r it = 0) :
    softTrap cause it s w r = finish s r it := if_pos hact

theorem softTrap_stops {cause : Nat} {it : Item} {s : State} {w : Warp} {r : Run} (hact : activeLanes w r it ≠ 0) :
    let next := advance r it
    let at_ := if next.body.isEmpty then { next with pc := dw (fallThrough r) } else next
    softTrap cause it s w r = takeTrap s { cause := cause, pc := at_.pc.toNat, lanes := activeLanes w r it } r.grp (some at_) := if_neg hact

/-- The active lanes decide whether a software trap stops them or only goes on. -/
theorem trapCompletes_of_softTrap {i : Instr} {it : Item} {sp : State → Warp → Run → Spec} {cause : State → Warp → Run → Nat}
    (hi : ∀ s, exec i s = issue it sp s fun s w r => softTrap (cause s w r) it s w r) :
    trapCompletes i it sp fun s r => cause s s.cur r := by
  intro s r hready act next at_
  exact ⟨fun hact => exec_issued (hi s) hready (softTrap_idle hact), fun hact => exec_issued (hi s) hready (softTrap_stops hact)⟩

theorem trap_completes (f : Long) :
    let it := longItem 0x1C2 false f
    trapCompletes (.trap f) it (trapNeeds it) fun s r => 0xE0 + operand s s.cur r it vtCount .a 0 :=
  trapCompletes_of_softTrap (cause := fun s w r => 0xE0 + operand s w r (longItem 0x1C2 false f) vtCount .a 0) fun _ => rfl

theorem bpt_completes (f : Long) :
    let it := longItem 0x1C3 false f
    trapCompletes (.bpt f) it (fun _ _ _ => { uses := noUses, bads := modNone it }) fun _ _ => 0xC1 :=
  trapCompletes_of_softTrap (cause := fun _ _ _ => 0xC1) fun _ => rfl

/-! The handler's instructions. -/

theorem exec_tret (f : Long) (s : State) : exec (.tret f) s = tretOp (longItem 0x1C4 false f) s := rfl
theorem exec_rdtr (f : Long) (s : State) : exec (.rdtr f) s = rdtrOp (longItem 0x1C5 false f) s := rfl
theorem exec_wrtr (f : Long) (s : State) : exec (.wrtr f) s = wrtrOp (longItem 0x1C6 false f) s := rfl
theorem exec_baredit (f : Long) (s : State) : exec (.baredit f) s = bareditOp (longItem 0x1C7 true f) s := rfl

theorem tret_completes (f : Long) : tretCompletes (.tret f) (longItem 0x1C4 false f) := by
  intro s r t s' hready hclear hfind htarget
  refine exec_issued (exec_tret f s) hready ?_
  unfold tretDo
  rw [boundary_clear s r _ _ hclear, hfind]
  dsimp only
  rw [htarget]

theorem findWarp_uid {s : State} {w : Warp} {uid : Nat} (hfind : findWarp s uid = some w) : w.uid = uid := by
  have h := List.find?_some hfind
  simp only [Bool.and_eq_true, beq_iff_eq] at h
  exact h.1

/-- A warp that is not the focused one is replaced among the others. -/
theorem putWarp_other {s : State} {w : Warp} (h : w.uid ≠ s.cur.uid) :
    putWarp s w = { s with warps := s.warps.map fun x => if x.uid == w.uid then w else x } := if_neg h.symm

theorem find?_map_replace {l : List Warp} {w x : Warp} {p : Warp → Bool} (hp : ∀ y : Warp, p y = true → y.uid = w.uid) (hw : p w = true)
    (hfind : l.find? p = some x) : (l.map fun y => if y.uid == w.uid then w else y).find? p = some w := by
  induction l with
  | nil => cases hfind
  | cons y l ih =>
    rw [List.map_cons, List.find?_cons]
    by_cases hy : y.uid = w.uid
    · rw [if_pos (beq_iff_eq.mpr hy), hw]
    · have hnot : p y = false := Bool.eq_false_iff.mpr fun h => hy (hp y h)
      rw [List.find?_cons, hnot] at hfind
      rw [if_neg (by simpa using hy), hnot]
      exact ih hfind

/-- A number that is not the focused warp's is sought among the others. -/
theorem findWarp_other {s : State} {uid : Nat} (h : uid ≠ s.cur.uid) : findWarp s uid = s.warps.find? fun w => w.uid == uid && uid != 0 := by
  unfold findWarp State.allWarps
  split
  · rfl
  · exact List.find?_cons_of_neg (by simp [h.symm])

/-- A warp that replaces one of its number, not the focused one, is the one found under it. -/
theorem findWarp_putWarp {s : State} {w x : Warp} {uid : Nat} (hfind : findWarp s uid = some x) (huid : w.uid = uid) (hcur : uid ≠ s.cur.uid) :
    findWarp (putWarp s w) uid = some w := by
  subst huid
  have hmatch := List.find?_some hfind
  have hzero : (w.uid != 0) = true := (Bool.and_eq_true_iff.mp hmatch).2
  rw [findWarp_other hcur] at hfind
  rw [putWarp_other hcur, findWarp_other (by exact hcur)]
  exact find?_map_replace (fun y hy => beq_iff_eq.mp (Bool.and_eq_true_iff.mp hy).1) (by simp [hzero]) hfind

theorem itemWrite_vreg {s : State} {tw : Warp} {uid a l : Nat} {x : Word} (hfind : findWarp s uid = some tw) (hclass : itemClass a = 0) :
    itemWrite s uid a l x = some (putWarp s (vset tw (itemIdx a) l x)) := by
  unfold itemWrite
  rw [hfind, hclass]
  rfl

/-- v registers of the trapped warp are written lane after lane, each write found by the next. -/
theorem itemWrites_vreg {s : State} {tw : Warp} {uid a : Nat} (val : Nat → Word) (ls : List Nat) (hfind : findWarp s uid = some tw)
    (hclass : itemClass a = 0) (hcur : uid ≠ s.cur.uid) :
    ∃ t, ls.foldl (fun acc l => acc.bind fun u => itemWrite u uid a l (val l)) (some s) = some t ∧
      findWarp t uid = some (ls.foldl (fun w l => vset w (itemIdx a) l (val l)) tw) := by
  induction ls generalizing s tw with
  | nil => exact ⟨s, rfl, hfind⟩
  | cons l ls ih =>
    rw [List.foldl_cons, Option.bind_some, itemWrite_vreg hfind hclass]
    have huid : tw.uid = uid := findWarp_uid hfind
    refine ih (findWarp_putWarp hfind huid hcur) ?_
    rwa [putWarp_other (by rwa [vset_uid, huid])]

theorem wrtrDo_writes {it : Item} {s t : State} {r : Run} :
    let a := operand s s.cur r it vtCount .a 0 % 2 ^ 16
    let act := lanesOf (activeLanes s.cur r it)
    (if itemWide (servedBy s s.cur) a then act.take 1 else act).foldl (fun acc l => acc.bind fun u =>
      itemWrite u s.cur.serves a l (w32 (operand s s.cur r it (.bits 32) .b l))) (some s) = some t →
    wrtrDo it s s.cur r = finish t r it := by
  intro a act h
  unfold wrtrDo
  dsimp only
  rw [h]

theorem item_completes (f : Long) : itemCompletes f := by
  refine ⟨?reads, ?writes, ?vreg⟩
  case reads =>
    intro s r it a hready
    exact exec_issued (exec_rdtr f s) hready rfl
  case writes =>
    intro s r t it a act lanes hready hwrites
    exact exec_issued (exec_wrtr f s) hready (wrtrDo_writes hwrites)
  intro s r tw it a act hready hfind hclass hserves
  have hlanes : itemWide (servedBy s s.cur) a = false := by simp [itemWide, hclass]
  obtain ⟨t, hwrites, hfound⟩ := itemWrites_vreg (fun l => w32 (operand s s.cur r it (.bits 32) .b l)) act hfind hclass hserves
  refine ⟨t, exec_issued (exec_wrtr f s) hready (wrtrDo_writes ?_), hfound⟩
  rw [if_neg (ne_true_of_eq_false hlanes)]
  exact hwrites

theorem baredit_completes (f : Long) : bareditCompletes (.baredit f) (longItem 0x1C7 true f) := by
  intro s r hready a b p hguard htransit hchk hgo hclear o t u fd old new
  refine exec_issued (exec_baredit f s) hready ?_
  unfold bareditDo
  dsimp only
  rw [if_neg (by simp [hguard]), hchk]
  dsimp only
  rw [if_neg Bool.false_ne_true, if_neg (ne_true_of_eq_false htransit), boundary_clear s r _ _ hclear]
  exact overCauseway_own _ _ r _ _ hgo

/-! Outside a handler. -/

/-- Further conditions of an instruction come after the checks of its fields. -/
theorem specBads_append {s : State} {w : Warp} {r : Run} {it : Item} {uses : List Use} {own more : List Bad} :
    specBads s w r it { uses := uses, bads := own ++ more } = specBads s w r it { uses := uses, bads := own } ++ more := by
  simp only [specBads, List.append_assoc]

theorem blocked_of_no_pend {w : Warp} {r : Run} {wide : Bool} {regs : List (Nat × Nat)} (h : w.pend = []) : blocked w r wide regs = false := by
  simp [blocked, h]

theorem handlerBads_outside {w : Warp} (h : w.handler = false) : handlerBads w = [⟨false, 10, 0⟩] := by
  simp [handlerBads, h, opdBad]

/-- An instruction of the handler slot that nothing else is wrong with is an illegal operand in any other warp. -/
theorem handlerOp_faults {i : Instr} {it : Item} {uses : List Use} {own : List Bad} {k : State → Warp → Run → State} {s : State} {r : Run}
    (hi : exec i s = issue it (fun _ w _ => { uses := uses, bads := own ++ handlerBads w }) s k) (hop : it.op ≠ 0x1C5)
    (hrun : s.cur.run = some r) (htransit : r.transit = false) (houtside : s.cur.handler = false) (hbreak : breakLanes s s.cur r = 0)
    (hpend : s.cur.pend = []) (hlost : nothingLost s.cur r = true) (hfields : specBads s s.cur r it { uses := uses, bads := own } = []) :
    exec i s = .next (badTrap s r it ⟨false, 10, 0⟩) := by
  rw [hi]
  refine issue_bad it _ s k r _ hrun htransit hbreak (blocked_of_no_pend hpend) ?_ (.inr (lostRead_of_nothingLost hlost hop))
  rw [specBads_append, hfields, handlerBads_outside houtside]
  rfl

theorem handlerOnly_holds (f : Long) : handlerOnly f := by
  intro s r hrun htransit houtside hbreak hpend hlost
  have hop {opc : Nat} {uni : Bool} (hlt : opc < 2 ^ 10) (hne : opc ≠ 0x1C5) : (longItem opc uni f).op ≠ 0x1C5 := by
    rwa [op_longItem hlt]
  exact ⟨fun hfields => handlerOp_faults (exec_tret f s) (hop (by decide) (by decide)) hrun htransit houtside hbreak hpend hlost hfields,
    fun hfields => handlerOp_faults (exec_baredit f s) (hop (by decide) (by decide)) hrun htransit houtside hbreak hpend hlost hfields⟩

end Sys2Proof.Machine
end

section
/-! SUPPORT. What synchronisation and system instructions leave unchanged in a quiet warp (R237, R241, R242, R254). -/

namespace Sys2Proof.Machine

/-- Going on moves the position of a quiet warp and may mark it as yielding, no more. -/
theorem finish_moves {s : State} (r : Run) (it : Item) (hquiet : Quiet s) :
    ∃ run pc yielded, finish s r it = { s with cur := { s.cur with run := run, pc := pc, yielded := yielded } } := by
  obtain ⟨run, pc, yielded, hnext, -⟩ := nextSlot_eq s.cur r it
  exact ⟨run, pc, yielded, by rw [finish_quiet s r it hquiet, hnext]⟩

/-! BTEST: what its lanes meet and acquire touches no register. -/

theorem metTiles_eq (s : State) (lanes : List Nat) (loc : Nat → Nat × Nat) (n : Nat) (w : Warp) :
    metTiles s lanes loc n w = { w with obsAny := (metTiles s lanes loc n w).obsAny } := by
  unfold metTiles
  exact List.foldlRecOn (motive := fun t : Warp => t = { w with obsAny := t.obsAny }) lanes _ rfl fun t ht l _ =>
    congrArg (fun u : Warp => { u with
      obsAny := (t.meets l ((tilesOf (loc l).2 n).flatMap fun k => nget [] s.tileSigs (512 * (loc l).1 + k))).obsAny }) ht

/-- Acquiring lane after lane begins phases, no more. -/
theorem foldl_acquireAt_eq (sc : Nat → Nat) (gs : Nat → List Sig) (ls : List Nat) (w : Warp) :
    ∃ phase, ls.foldl (fun w l => acquireAt (sc l) false (gs l) (1#32 <<< l) w) w = { w with phase := phase } := by
  induction ls generalizing w with
  | nil => exact ⟨w.phase, rfl⟩
  | cons l ls ih =>
    obtain ⟨phase, h⟩ := ih (acquireAt (sc l) false (gs l) (1#32 <<< l) w)
    exact ⟨phase, h⟩

/-- Writing one predicate lane after lane leaves all but predicates and their parity marks. -/
theorem foldl_pset_eq (i : Nat) (x : Nat → Bool) (ls : List Nat) (w : Warp) :
    ∃ p parity, ls.foldl (fun w l => pset w i l (x l)) w = { w with p := p, parity := parity } := by
  induction ls generalizing w with
  | nil => exact ⟨w.p, w.parity, rfl⟩
  | cons l ls ih =>
    obtain ⟨p, parity, h⟩ := ih (pset w i l (x l))
    by_cases hpt : i = 7
    · exact ⟨p, parity, by rw [List.foldl_cons, h, pset, if_pos hpt]⟩
    · exact ⟨p, parity, by rw [List.foldl_cons, h, pset, if_neg hpt]⟩

/-- Going on after lanes have met tiles, one predicate has been written in lanes, and lanes have acquired. -/
theorem finish_tested {s : State} {r : Run} {it : Item} {m : Lanes} {u : Warp} {ls : List Nat} {i : Nat} {x : Nat → Bool} {sc : Nat → Nat}
    {gs : Nat → List Sig} (hquiet : Quiet s) (hu : u = { s.cur with obsAny := u.obsAny }) :
    let w := (lanesOf m).foldl (fun w l => pset w i l (x l)) u
    let t := finish { s with cur := ls.foldl (fun w l => acquireAt (sc l) false (gs l) (1#32 <<< l) w) w } r it
    { t with cur := s.cur } = s ∧ t.cur.v = s.cur.v ∧ t.cur.s = s.cur.s ∧ t.cur.q = s.cur.q ∧
      ∀ n l, l < 32 → n ≠ i ∨ lon m l = false → pget t.cur n l = pget s.cur n l := by
  generalize u.obsAny = obsAny at hu
  subst hu
  obtain ⟨p, parity, hwritten⟩ := foldl_pset_eq i x (lanesOf m) { s.cur with obsAny := obsAny }
  have hpreds : WritesOnly [(2, i)] m { s.cur with obsAny := obsAny }
      ((lanesOf m).foldl (fun w l => pset w i l (x l)) { s.cur with obsAny := obsAny }) :=
    .foldl fun l hl _ => .pset _ List.mem_cons_self (mem_lanesOf.mp hl).2
  dsimp only
  rw [hwritten] at hpreds ⊢
  obtain ⟨phase, hacquired⟩ := foldl_acquireAt_eq sc gs ls { s.cur with obsAny := obsAny, p := p, parity := parity }
  obtain ⟨run, pc, yielded, hend⟩ := finish_moves
    (s := { s with cur := { s.cur with obsAny := obsAny, p := p, parity := parity, phase := phase } }) r it hquiet
  rw [hacquired, hend]
  exact ⟨rfl, rfl, rfl, rfl, fun n l hl hn => hpreds.preds n l hl (hn.imp_left fun hne => by simpa using hne)⟩

/-- BTEST changes its predicate in active lanes, and of the rest only what its warp has observed and where it stands. -/
theorem btestDo_frame {it : Item} {s : State} {r : Run} (hquiet : Quiet s) (htransit : r.transit = false)
    (hobj : ObjectsUsable s (lanesOf (activeLanes s.cur r it)) (operand s s.cur r it vtCount .a)) :
    let t := btestDo false it s s.cur r
    { t with cur := s.cur } = s ∧ t.cur.v = s.cur.v ∧ t.cur.s = s.cur.s ∧ t.cur.q = s.cur.q ∧
      ∀ n l, l < 32 → n ≠ it.d ∨ lon (activeLanes s.cur r it) l = false → pget t.cur n l = pget s.cur n l := by
  by_cases hact : lanesOf (activeLanes s.cur r it) = []
  · obtain ⟨run, pc, yielded, hend⟩ := finish_moves r it hquiet
    have hdo : btestDo false it s s.cur r = finish s r it := if_pos (List.isEmpty_iff.mpr hact)
    rw [hdo, hend]
    exact ⟨rfl, rfl, rfl, rfl, fun _ _ _ _ => rfl⟩
  · rw [btestDo_reads hact htransit hobj]
    exact finish_tested hquiet (metTiles_eq ..)

/-! FENCE. -/

/-- A boundary waits, its entries raised, or is behind and the effect follows. -/
theorem boundary_cases (s : State) (w : Warp) (r : Run) (scs : List Nat) (k : State → Run → State) :
    (∃ staging run, boundary s w r scs k = { s with staging := staging, cur := { s.cur with run := run } }) ∨
    ∃ staging q, boundary s w r scs k = k (past { s with staging := staging } r scs) q := by
  unfold boundary
  dsimp only
  split
  · split
    · exact .inr ⟨s.staging, _, rfl⟩
    · exact .inl ⟨s.staging, s.cur.run, rfl⟩
  · split
    · exact .inl ⟨s.staging, s.cur.run, rfl⟩
    · split
      · exact .inl ⟨_, _, rfl⟩
      · exact .inr ⟨_, r, rfl⟩

theorem exec_fence (f : Long) (s : State) : exec (.fence f) s = fenceOp (longItem 0x1A5 false f) s := rfl

theorem fence_frame {it : Item} {s : State} {r : Run} (scs : List Nat) (sc : Nat) (hquiet : Quiet s) :
    let t := boundary s s.cur r scs fun s r => finish (onCur s (acquireAt sc true [] r.grp)) r it
    sameBytes s t ∧ sameRegs s t := by
  obtain ⟨staging, run, h⟩ | ⟨staging, q, h⟩ := boundary_cases s s.cur r scs fun s r => finish (onCur s (acquireAt sc true [] r.grp)) r it
  · rw [h]
    exact ⟨⟨rfl, rfl, rfl, rfl, rfl, rfl⟩, rfl, rfl, rfl, rfl⟩
  · obtain ⟨run, pc, yielded, hend⟩ := finish_moves
      (s := onCur (past { s with staging := staging } r scs) (acquireAt sc true [] q.grp)) q it hquiet
    rw [h, hend]
    exact ⟨⟨rfl, rfl, rfl, rfl, rfl, rfl⟩, rfl, rfl, rfl, rfl⟩

/-! BINIT. -/

theorem bytesOf_length (n x : Nat) : (bytesOf n x).length = n := by
  induction n generalizing x with
  | zero => rfl
  | succ n ih => rw [bytesOf, List.length_cons, ih]

/-- Storing an object's words leaves the pool's bytes outside its sixteen. -/
theorem barWrite_byte_outside (s : State) (core off : Nat) (w0 w1 : DWord) (k : Nat) (h : k < poolKey core off ∨ poolKey core off + 16 ≤ k) :
    nget 0 (barWrite s core off w0 w1).pool k = nget 0 s.pool k := by
  refine nget_nsetRange_other 0 s.pool _ k _ ?_
  rwa [List.length_append, bytesOf_length, bytesOf_length]

/-- An access that goes out leaves its clause under way over the Causeway, and the rest to its target. -/
theorem overCauseway_leaves {cores : List Nat} {s : State} {r : Run} {k : Unit → State} (hgo : goesOut s s.cur cores = true) :
    overCauseway false cores s r k = { s with
      cur := { s.cur with run := some { r with transit := true, targets := cores, stamp := s.fresh, met := false } }
      fresh := s.fresh + 1 } := by
  simp [overCauseway, hgo]

/-- Going on after an object's words have been stored and signals replaced. -/
theorem finish_stored {s : State} {r : Run} {it : Item} {core off : Nat} {w0 w1 : DWord} {sigs : NMap (List Sig)} (hquiet : Quiet s) :
    let t := finish (barWrite { s with barSigs := sigs } core off w0 w1) r it
    (∀ k, k < poolKey core off ∨ poolKey core off + 16 ≤ k → nget 0 t.pool k = nget 0 s.pool k) ∧
      { t with cur := s.cur, fresh := s.fresh, pool := s.pool, poolPoison := s.poolPoison, barSigs := s.barSigs } = s ∧ sameRegs s t := by
  obtain ⟨run, pc, yielded, hend⟩ := finish_moves (s := barWrite { s with barSigs := sigs } core off w0 w1) r it hquiet
  rw [hend]
  exact ⟨fun k hk => barWrite_byte_outside { s with barSigs := sigs } core off w0 w1 k hk, rfl, rfl, rfl, rfl, rfl⟩

/-- BINIT leaves its clause under way over the Causeway, or stores its object and goes on. -/
theorem binitDo_frame {it : Item} {s : State} {r : Run} (hquiet : Quiet s) (hguard : guardU s.cur it = true)
    (hchk : poolCheck s s.cur (operand s s.cur r it vtCount .a 0) 16 16 true = none) :
    let t := binitDo false it s s.cur r
    let p := poolLoc s s.cur (operand s s.cur r it vtCount .a 0) 16
    (∀ k, k < poolKey p.1 p.2 ∨ poolKey p.1 p.2 + 16 ≤ k → nget 0 t.pool k = nget 0 s.pool k) ∧
      { t with cur := s.cur, fresh := s.fresh, pool := s.pool, poolPoison := s.poolPoison, barSigs := s.barSigs } = s ∧ sameRegs s t := by
  intro t p
  have hdo : t = overCauseway false [p.1] s r.arrived _ := binitDo_accesses hguard hchk
  by_cases hgo : goesOut s s.cur [p.1] = true
  · rw [hdo, overCauseway_leaves hgo]
    exact ⟨fun _ _ => rfl, rfl, rfl, rfl, rfl, rfl⟩
  · rw [hdo, overCauseway_own _ s _ _ _ (eq_false_of_ne_true hgo)]
    exact finish_stored hquiet

/-! RDSR and YIELD. -/

theorem srWidth_cases (n : Nat) : srWidth n = 0 ∨ srWidth n = 32 ∨ srWidth n = 64 := by
  unfold srWidth
  split
  · exact .inr (.inl rfl)
  · split <;> simp

/-- A special register that is not reserved has as many words as are written. -/
theorem lt_srWidth_words {n j : Nat} (hn : srWidth n ≠ 0) (hj : j < if srWidth n / 32 == 2 then 2 else 1) : j < srWidth n / 32 := by
  obtain h | h | h := srWidth_cases n
  · exact absurd h hn
  · simpa [h] using hj
  · simpa [h] using hj

/-- Where every check passes an instruction that captures nothing has NOWB clear (R117), and its own conditions hold. -/
theorem nowb_of_specBads_nil {s : State} {w : Warp} {r : Run} {it : Item} {sp : Spec} (h : specBads s w r it sp = []) (hcapt : sp.capt = false) :
    it.f.nowb = false ∧ sp.bads = [] := by
  unfold specBads at h
  rw [List.append_eq_nil_iff, List.append_eq_nil_iff] at h
  obtain ⟨⟨-, hnowb⟩, hown⟩ := h
  exact ⟨by simpa [encBad, hcapt] using hnowb, hown⟩

theorem vputNat_preds (w : Warp) (pair : Bool) (r lane x : Nat) : (vputNat w pair r lane x).p = w.p ∧ (vputNat w pair r lane x).q = w.q := by
  cases pair <;> exact ⟨rfl, rfl⟩

theorem sputNat_preds (w : Warp) (pair : Bool) (r x : Nat) : (sputNat w pair r x).p = w.p ∧ (sputNat w pair r x).q = w.q := by
  cases pair <;> exact ⟨rfl, rfl⟩

/-- RDSR goes on after writing its destination, and no predicate. -/
theorem readRow_writes {i : Instr} {it : Item} {n : Nat} {u : Bool} {s : State} {r : Run} (hnowb : it.f.nowb = false) (hn : srWidth n ≠ 0) :
    let e := readRow i it n u
    ∃ w, e.eff s s.cur r = finish { s with cur := w } r it ∧
      WritesOnly (resultRegs it (e.sp s s.cur r)) (activeLanes s.cur r it) s.cur w ∧ w.p = s.cur.p ∧ w.q = s.cur.q := by
  intro e
  refine ⟨_, rfl, ?_⟩
  cases u with
  | true =>
    dsimp only
    rw [if_pos rfl]
    split
    · exact ⟨.refl, rfl, rfl⟩
    · exact ⟨.sputNat _ fun j hj => mem_resultRegs_dstS (List.mem_append_right _ (by simp)) hnowb (lt_srWidth_words hn hj), sputNat_preds ..⟩
  | false =>
    refine ⟨.foldl fun l hl _ => ?_, ?_⟩
    · obtain ⟨hlt, hon⟩ := mem_lanesOf.mp hl
      exact .vputNat _ (fun j hj => mem_resultRegs_dstV (List.mem_append_right _ (by simp)) hnowb (lt_srWidth_words hn hj)) hon hlt
    · exact List.foldlRecOn (motive := fun w : Warp => w.p = s.cur.p ∧ w.q = s.cur.q) _ _ ⟨rfl, rfl⟩ fun w hw l _ =>
        (vputNat_preds w ..).imp (·.trans hw.1) (·.trans hw.2)

theorem rdsr_frame (f : Long) (s : State) (r : Run) (t : State) :
    let it := longItem 0x1C0 false f
    let sp : Spec := (readRow (.rdsr f) it (it.m 60 52) (it.mb 63)).sp s s.cur r
    Ready s r it sp → Quiet s → exec (.rdsr f) s = .next t →
    { t with cur := s.cur } = s ∧
      (∀ m l, l < 32 → (0, m) ∉ resultRegs it sp ∨ lon (activeLanes s.cur r it) l = false → vget t.cur m l = vget s.cur m l) ∧
      (∀ m, (1, m) ∉ resultRegs it sp → sget t.cur m = sget s.cur m) ∧ t.cur.p = s.cur.p ∧ t.cur.q = s.cur.q := by
  intro it sp hready hquiet hexec
  have ⟨_, _, _, _, hchecks, _, _⟩ := hready
  obtain ⟨hnowb, hown⟩ := nowb_of_specBads_nil hchecks rfl
  have hwidth : srWidth (it.m 60 52) ≠ 0 := fun hreserved => by
    have hnumber := (List.append_eq_nil_iff.mp hown).2
    simp [opdBad, hreserved] at hnumber
  obtain ⟨w, heff, hwrites, hp, hq⟩ := readRow_writes (i := .rdsr f) (u := it.mb 63) (s := s) (r := r) hnowb hwidth
  obtain ⟨run, pc, yielded, hend⟩ := finish_moves (s := { s with cur := w }) r it (hwrites.quiet hquiet)
  have ht : t = _ := Host.Outcome.next.inj (hexec.symm.trans
    (systemRows_complete f ⟨0, 0, 0⟩ _ List.mem_cons_self s r hready))
  rw [ht, heff, hend]
  exact ⟨rfl, hwrites.vregs, hwrites.sregs, hp, hq⟩

theorem yield_frame (f : Long) (s : State) (r : Run) (t : State) :
    Ready s r (longItem 0x007 false f) (emptySpec (longItem 0x007 false f) false) → Quiet s → exec (.yield f) s = .next t →
    { t with cur := s.cur } = s ∧ sameRegs s t := by
  intro hready hquiet hexec
  have ht : t = _ := Host.Outcome.next.inj (hexec.symm.trans
    (idleRows_complete f ⟨0, 0, 0⟩ _ List.mem_cons_self s r hready))
  dsimp only at ht
  rw [ht, afterStops_quiet]
  · exact ⟨rfl, rfl, rfl, rfl, rfl⟩
  · exact hquiet

end Sys2Proof.Machine
end

section
/-! The obligations on barriers, fences, waits and transactions, on system and handler instructions, and on the events of waits. -/

namespace Sys2Proof.Settled
open Sys2Proof.Machine

/-- Settles O40: BTEST writes one predicate, a boundary raises entries at most, and BINIT stores its object where it does not go out. -/
theorem synchronisationFrames : Obligations.SynchronisationFrames := by
  refine fun f => ⟨⟨?btest, ?fence⟩, ?binit⟩
  case btest =>
    intro s r t it act hready hquiet htransit hobj hexec
    have ht : t = btestDo false it s s.cur r := Host.Outcome.next.inj (hexec.symm.trans (exec_issued (exec_btest f s) hready rfl))
    rw [ht]
    exact btestDo_frame hquiet htransit hobj
  case fence =>
    intro s r t it hready hquiet hexec
    have ht := Host.Outcome.next.inj (hexec.symm.trans (exec_issued (exec_fence f s) hready rfl))
    rw [ht]
    exact fence_frame _ _ hquiet
  case binit =>
    intro s r t it a b p hready hquiet hguard hchk hexec
    have ht : t = binitDo false it s s.cur r := Host.Outcome.next.inj (hexec.symm.trans (exec_issued (exec_binit f s) hready rfl))
    rw [ht]
    exact binitDo_frame hquiet hguard hchk

/-- Settles O35: each access finds its objects usable, in the executing core's pool. -/
theorem barrierObjectInstructionsComplete : Obligations.BarrierObjectInstructionsComplete := fun f =>
  ⟨binit_completes f, expect_completes f, arrive_completes f, waitp_completes f⟩

/-- Settles O36: BTEST's access releases nothing and reads its objects at once. -/
theorem barrierTestNeverParks : Obligations.BarrierTestNeverParks := btest_completes

/-- Settles O38: with nothing to release and every lane translated the watches are sent. -/
theorem tideWaitParksItsLanes : Obligations.TideWaitParksItsLanes := twait_completes

/-- Settles O39: the versions of the lines read decide what an XEND that waits for nothing does. -/
theorem transactionsOpenCommitAndFail : Obligations.TransactionsOpenCommitAndFail := fun f => ⟨transactionRows_complete f, xend_completes f⟩

/-- Settles O41: RDSR's writes are those of its destination; YIELD ends its clause. -/
theorem specialRegistersAreReadAndWritten : Obligations.SpecialRegistersAreReadAndWritten := fun f g =>
  ⟨systemRows_complete f g, rdsr_frame f, yield_frame f⟩

/-- Settles O42: both are software traps, which stop the active lanes at the next slot. -/
theorem trapAndBreakpointStop : Obligations.TrapAndBreakpointStop := fun f => ⟨trap_completes f, bpt_completes f⟩

/-- Settles O44: each instruction passes its checks, and what a write leaves is found by the next lane's. -/
theorem handlerInstructionsComplete : Obligations.HandlerInstructionsComplete := fun f =>
  ⟨tret_completes f, item_completes f, baredit_completes f⟩

/-- Settles O45: outside a handler the one check that fails is that of the handler slot. -/
theorem handlerInstructionsOutsideFault : Obligations.HandlerInstructionsOutsideFault := handlerOnly_holds

/-- Settles O51: each event's function takes the branch that its conditions select. -/
theorem waitEvents : Obligations.WaitEvents := waitEvents_hold

end Sys2Proof.Settled
end

section
/-! SUPPORT. Pre-emption, suspension, saves and resumption: each event where it is enabled (R286, R287, R289, R393). -/

namespace Sys2Proof.Machine

/-- A priority pre-emption takes its victim where each save under way has been reported as held. -/
theorem preempt_starts {s : State} {cs : List Cluster} (hheld : ∀ c ∈ s.clusters, c.saving = none ∨ c.heldReported = true)
    (hvictim : (waitingPrio s).bind (victim s) = some cs) : preempt s = startSave s cs := by
  have hfree : (s.clusters.any fun c => c.saving.isSome && !c.heldReported) = false := by
    rw [List.any_eq_false]
    intro c hc
    obtain hnone | hreported := hheld c hc
    · simp [hnone]
    · simp [hreported]
  unfold preempt
  rw [if_neg (ne_true_of_eq_false hfree), hvictim]

/-! TCTL_SUSP_WRITE (R286). -/

/-- TCTL holds SUSP alone of a word written. -/
theorem tctl_word (v : DWord) : putFld 0 0 0 (fld v 0 0) = BitVec.ofNat 64 (fbit v 0).toNat := by
  have hbit : (fbit v 0).toNat = fld v 0 0 := Nat.toNat_testBit v.toNat 0
  have hsmall : fld v 0 0 % 2 = fld v 0 0 := Nat.mod_eq_of_lt (hbit ▸ Bool.toNat_lt _)
  simp [putFld, bitsN, hbit, hsmall]

theorem suspWrite_clears {t : Nat} {v : DWord} {s : State} (hclear : fbit v 0 = false) : suspWrite t v s = pkgPut s 0x25 t 0 := by
  unfold suspWrite
  rw [tctl_word, hclear]
  rfl

theorem suspWrite_suspends {t : Nat} {v : DWord} {s : State} (hset : fbit v 0 = true) (hold : fbit (pkgReg s 0x25 t) 0 = false) :
    suspWrite t v s = (s.clusters.filter fun c => ctxTenant s c.ctx == t).foldl (suspendUnit t) (pkgPut s 0x25 t 1) := by
  unfold suspWrite
  rw [tctl_word, hset, hold]
  rfl

/-! CONTEXT_SAVE_COMPLETE and SAVE_HELD_TIMEOUT (R287, R393). -/

section Saving
variable {n : Nat} {s : State} {c : Cluster} (hat : (s.clusters.filter fun c => c.saving.isSome)[n]? = some c)
include hat

/-- A unit that nothing holds, whose staging is published and whose region can be written, is saved. -/
theorem saveComplete_saves (hready : ∀ x ∈ unitOf s c, x.saving.isSome = true ∧ saveReady s x = true)
    (hstaged : ∀ e ∈ s.staging, ∀ x ∈ unitOf s c, x.staged s e = false)
    (hregion : regionWaits s (ctxTenant s c.ctx) (((unitOf s c).map (saveUnits s)).sum) = none) :
    saveComplete n s = (unitOf s c).foldl saveCluster s := by
  have hall : ((unitOf s c).all fun x => x.saving.isSome && saveReady s x) = true := by
    simpa only [List.all_eq_true, Bool.and_eq_true] using hready
  have hnone : (s.staging.any fun e => (unitOf s c).any fun x => x.staged s e) = false := by
    simpa only [List.any_eq_false, Bool.not_eq_true] using hstaged
  unfold saveComplete
  rw [hat]
  dsimp only
  rw [if_pos hall, if_neg (ne_true_of_eq_false hnone), hregion]

/-- A save held past its time is reported with what holds the first of its clusters that is held. -/
theorem saveTimeout_reports {k : Nat × Nat × Nat} (hnew : c.heldReported = false) (hlate : c.saving.getD 0 + Config.sclk (2 ^ 24) ≤ s.clk)
    (hheld : (unitOf s c).findSome? (saveHeld s) = some k) (hwaits : (unitOf s c).all (saveReady s) = false) :
    saveTimeout n s = reportBare
      { s with clusters := s.clusters.map fun x =>
          if (unitOf s c).any fun y => y.ctx == x.ctx && y.num == x.num then { x with heldReported := true } else x }
      (ctxTenant s c.ctx) (((clusterCtx s c).map (·.queue)).getD 0)
      { cause := 0x66, info0 := k.1, info1 := k.2.1, aux := dw k.2.2, src := 3, sev := 2 } := by
  unfold saveTimeout
  rw [hat]
  dsimp only
  rw [if_neg (by simpa [hnew, hwaits] using hlate), hheld]
  rfl

end Saving

/-- A saved unit of a launch that runs is resumed where no higher work comes before it and all of it has a place. -/
theorem contextResume_resumes {n : Nat} {s t : State} {v : Saved} {c : Ctx} (hat : s.saved[n]? = some v) (hctx : findCtx s v.ctx = some c)
    (hready : s.boot.ready = true) (htrip : s.boot.tripped = false)
    (habove : (([3, 2, 1, 0] : List Nat).any fun l =>
      (decide (effPrio s c ≤ l) && coopBlocks s l) || (decide (effPrio s c < l) && !(levelQueues s l).isEmpty)) = false)
    (hwaits : (resumeUnit s c v).any (savedWaits s) = true) (hruns : suspended s c.tenant = false)
    (hplaced : resumeAll s c (resumeUnit s c v) = some t) : contextResume n s = t := by
  unfold contextResume
  rw [hat]
  dsimp only
  rw [hctx]
  dsimp only
  rw [if_neg (by rw [habove]; simp [hready, htrip, hwaits, hruns]), hplaced]
  rfl

theorem saveEvents_hold : saveEvents :=
  ⟨fun _ _ hheld hvictim => congrArg Host.Outcome.next (preempt_starts hheld hvictim),
    fun _ _ _ hclear => congrArg Host.Outcome.next (suspWrite_clears hclear),
    fun _ _ _ hset hold => congrArg Host.Outcome.next (suspWrite_suspends hset hold),
    fun _ _ _ hat hready hstaged hregion => congrArg Host.Outcome.next (saveComplete_saves hat hready hstaged hregion),
    fun _ _ _ _ hat hnew hlate hheld hwaits => congrArg Host.Outcome.next (saveTimeout_reports hat hnew hlate hheld hwaits),
    fun _ _ _ _ _ hat hctx hready htrip habove hwaits hruns hplaced =>
      congrArg Host.Outcome.next (contextResume_resumes hat hctx hready htrip habove hwaits hruns hplaced)⟩

end Sys2Proof.Machine
end

section
/-! The obligation on pre-emption and saves. -/

namespace Sys2Proof.Settled
open Sys2Proof.Machine

/-- Settles O53: each event's function takes the branch that its conditions select. -/
theorem saveEvents : Obligations.SaveEvents := saveEvents_hold

end Sys2Proof.Settled
end

section
/-! SUPPORT. Taking a trap (R311): reads of the core's own machinery and records in error queues leave the focused warp, the pool and the
number of the next record; the stop itself writes no register. -/

namespace Sys2Proof.Machine

/-- The same focused warp, pool and number of the next record. -/
structure SameFocus (s u : State) : Prop where
  cur : u.cur = s.cur
  pool : u.pool = s.pool
  seq : u.seq = s.seq

theorem SameFocus.refl (s : State) : SameFocus s s := ⟨rfl, rfl, rfl⟩

theorem SameFocus.trans {s t u : State} (h : SameFocus s t) (k : SameFocus t u) : SameFocus s u :=
  ⟨k.cur.trans h.cur, k.pool.trans h.pool, k.seq.trans h.seq⟩

theorem SameFocus.foldl {α : Type} {f : State → α → State} (hf : ∀ s x, SameFocus s (f s x)) (l : List α) (s : State) :
    SameFocus s (l.foldl f s) := by
  induction l generalizing s with
  | nil => exact .refl s
  | cons x l ih => exact (hf s x).trans (ih (f s x))

/-! Reads (R55, R292, R295, R105). -/

theorem choose_sameFocus (s : State) (n : Nat) : SameFocus s (choose s n).2 := by
  obtain ⟨k, hk⟩ := choose_free s n
  rw [hk]
  exact ⟨rfl, rfl, rfl⟩

theorem fillSector_sameFocus (s : State) (pa : Nat) : SameFocus s (fillSector s pa) := by
  unfold fillSector fillWith
  split
  · exact .refl s
  · exact ⟨rfl, rfl, rfl⟩

theorem fillBytes_sameFocus (s : State) (pa n : Nat) : SameFocus s (fillBytes s pa n) := by
  have hreach : SameFocus s (reachHome s pa n) := by
    obtain h | h := reachHome_cases s pa n
    · rw [h]
      exact .refl s
    · rw [h]
      exact ⟨rfl, rfl, rfl⟩
  unfold fillBytes
  dsimp only
  split
  · exact hreach.trans (.foldl (fun s _ => fillSector_sameFocus s _) _ _)
  · exact hreach

theorem fillWalkFrom_sameFocus (level base va : Nat) (s : State) : SameFocus s (fillWalkFrom s level base va) := by
  induction level generalizing s base with
  | zero => exact fillBytes_sameFocus ..
  | succ l ih =>
    unfold fillWalkFrom
    dsimp only
    split
    · exact fillBytes_sameFocus ..
    · exact (fillBytes_sameFocus ..).trans (ih _ _)

theorem fillWalk_sameFocus (s : State) (shelf tenant va : Nat) : SameFocus s (fillWalk s shelf tenant va) := by
  unfold fillWalk
  dsimp only
  split
  · exact fillWalkFrom_sameFocus ..
  · exact .refl s

theorem findLeaf_sameFocus (s : State) (shelf tenant va : Nat) : SameFocus s (findLeaf s shelf tenant va).2 := by
  have hchoose := choose_sameFocus s (walkChoices s shelf tenant va).length
  unfold findLeaf
  dsimp only
  generalize choose s (walkChoices s shelf tenant va).length = p at hchoose ⊢
  have hfill : SameFocus s (if p.1 = 0 then fillWalk p.2 shelf tenant va else p.2) := by
    split
    · exact hchoose.trans (fillWalk_sameFocus ..)
    · exact hchoose
  generalize (if p.1 = 0 then fillWalk p.2 shelf tenant va else p.2) = u at hfill ⊢
  have hcache : ∀ t : Tlb, SameFocus s (if u.tlb.contains t then u else { u with tlb := t :: u.tlb }) := by
    intro t
    split
    · exact hfill
    · exact ⟨hfill.cur, hfill.pool, hfill.seq⟩
  split
  · exact hcache _
  · exact hfill
  · exact hfill

theorem translate_sameFocus (s : State) (shelf tenant va : Nat) (acc : Acc) (ro : Nat) :
    SameFocus s (translate s shelf tenant va acc ro).2 := by
  have h := findLeaf_sameFocus s shelf tenant va
  unfold translate
  generalize findLeaf s shelf tenant va = p at h ⊢
  obtain ⟨w, u⟩ := p
  cases w <;> exact h

theorem fetchAddr_sameFocus (s : State) (shelf tenant va : Nat) : SameFocus s (fetchAddr s shelf tenant va).2 := by
  have h := findLeaf_sameFocus s shelf tenant va
  unfold fetchAddr
  generalize findLeaf s shelf tenant va = p at h ⊢
  obtain ⟨w, u⟩ := p
  cases w with
  | invalid | bad => exact h
  | leaf e g =>
    dsimp only
    repeat' split
    all_goals exact h

theorem sysRead_sameFocus (s : State) (shelf tenant va n : Nat) : SameFocus s (sysRead s shelf tenant va n).2 := by
  have h := translate_sameFocus s shelf tenant va .read 1
  unfold sysRead
  generalize translate s shelf tenant va .read 1 = p at h ⊢
  obtain ⟨x, u⟩ := p
  cases x with
  | ok pa e => exact h.trans (fillBytes_sameFocus u pa n)
  | zero | park | bad => exact h

theorem codeParcel_sameFocus (s : State) (core tenant va : Nat) : SameFocus s (codeParcel s core tenant va).2 := by
  have h := fetchAddr_sameFocus s (coreShelf core) tenant (va % 2 ^ 60)
  unfold codeParcel
  generalize fetchAddr s (coreShelf core) tenant (va % 2 ^ 60) = p at h ⊢
  obtain ⟨x, u⟩ := p
  cases x with
  | error => exact h
  | ok pa =>
    have hfill := h.trans (fillBytes_sameFocus u pa 4)
    dsimp only
    split
    · exact hfill
    · exact hfill.trans (choose_sameFocus ..)

theorem isHeader_sameFocus (s : State) (core tenant va : Nat) : SameFocus s (isHeader s core tenant va).2 := by
  have h := codeParcel_sameFocus s core tenant va
  unfold isHeader
  generalize codeParcel s core tenant va = p at h ⊢
  obtain ⟨x, u⟩ := p
  split
  · exact .refl s
  · cases x <;> exact h

theorem handlerEntry_sameFocus (s : State) (w : Warp) (cause : Nat) : SameFocus s (handlerEntry s w cause).2 := by
  unfold handlerEntry
  extract_lets shelf ten tv
  split
  · exact .refl s
  have hread := sysRead_sameFocus s shelf ten (fld tv 59 9 * 512 + 8 * vectorEntry cause) 8
  generalize sysRead s shelf ten (fld tv 59 9 * 512 + 8 * vectorEntry cause) 8 = p at hread ⊢
  obtain ⟨_ | bs, u⟩ := p
  · exact hread
  dsimp only
  split
  · exact hread
  have hheader := isHeader_sameFocus u w.core ten (fld (dw (ofBytes bs)) 59 3 * 8)
  generalize isHeader u w.core ten (fld (dw (ofBytes bs)) 59 3 * 8) = q at hheader ⊢
  obtain ⟨_ | _ | _, t⟩ := q
  · exact hread.trans hheader
  · exact hread.trans hheader
  · exact hread.trans hheader

/-! Records (R347, R351). -/

theorem homeByteSet_sameFocus (s : State) (core : Nat) (by_ : List Nat) (pa : Nat) (b : Byte) : SameFocus s (homeByteSet s core by_ pa b) := by
  unfold homeByteSet
  split
  · exact ⟨rfl, rfl, rfl⟩
  · exact ⟨rfl, rfl, rfl⟩
  · have h := fillSector_sameFocus { s with hist := ⟨pa, homeByte s pa, s.order, core, by_⟩ :: s.hist } pa
    exact ⟨h.cur, h.pool, h.seq⟩

theorem applyWrite_sameFocus (s : State) (ws : List (Nat × Byte)) : SameFocus s (applyWrite s ws) := by
  have hbytes := SameFocus.foldl (fun s (w : Nat × Byte) => homeByteSet_sameFocus s 512 ([hostSig s].flatMap (·.agents)) w.1 w.2) ws s
  have hlines : ∀ t (line : Nat), SameFocus t (lineWritten t line) := fun _ _ => ⟨rfl, rfl, rfl⟩
  unfold applyWrite applyWriteBy applyWriteBad
  extract_lets s1 s2 as clear s3
  have hs3 : SameFocus s s3 := ⟨hbytes.cur, hbytes.pool, hbytes.seq⟩
  exact hs3.trans (.foldl hlines _ s3)

theorem pkgPut_sameFocus (s : State) (fam idx : Nat) (v : DWord) : SameFocus s (pkgPut s fam idx v) :=
  ⟨mput_cur s _ v, mput_pool s _ v, mput_seq s _ v⟩

theorem eqAppend_sameFocus (s : State) (n : Nat) (ws : List DWord) : SameFocus s (eqAppend s n ws) := by
  unfold eqAppend
  extract_lets base idx ctl slots pidx cidx sFull ws' s1 s2 s3 s4
  have hfull : SameFocus s sFull := pkgPut_sameFocus ..
  have h1 : SameFocus s s1 := ⟨rfl, rfl, rfl⟩
  have h3 : SameFocus s s3 := h1.trans ((applyWrite_sameFocus s1 _).trans (pkgPut_sameFocus s2 _ _ _))
  have h4 : SameFocus s s4 := h3.trans (pkgPut_sameFocus s3 _ _ _)
  clear_value sFull s3 s4
  split
  · exact ⟨hfull.cur, hfull.pool, hfull.seq⟩
  split
  · exact ⟨h4.cur, h4.pool, h4.seq⟩
  · exact h3

/-! The stop (R311, R348). -/

/-- The cause stands in the low byte of a record (Table 19.1). -/
theorem recWord0_cause (seq ten que : Nat) (rep : Report) : fld (recWord0 seq ten que rep) 7 0 = rep.cause % 256 := by
  simp only [fld, recWord0, bitsN, dw, BitVec.toNat_ofNat]
  split <;> omega

/-- Dooming a warp's transaction changes no more of the warp than the transaction and its cause (R250). -/
theorem doom_cur (s : State) (c : Nat) : ∃ x k, (doom s c).cur = { s.cur with txn := x, xcause := k } := by
  rw [doom_eq]
  unfold doomWarp
  split
  · exact ⟨_, _, rfl⟩
  · exact ⟨_, _, rfl⟩

theorem doom_seq (s : State) (c : Nat) : (doom s c).seq = s.seq := by rw [doom_eq]

/-- A stop whose clause is kept: the trap holds it with the stopped lanes and the held rest of the group, whose lanes stand at its place. -/
theorem stopWith_stops (s : State) (ws : List DWord) (stopped grp : Lanes) (r : Run) :
    let t := stopWith s ws stopped grp (some r)
    t.cur.run = none ∧
    (∃ x, t.cur.trap = some x ∧ x.cause = BitVec.ofNat 8 (fld (wordAt ws 0) 7 0) ∧ x.stopped = stopped ∧
      x.held = grp &&& s.cur.live &&& ~~~ stopped ∧ x.run = some r ∧ x.moved = 0) ∧
    t.cur.pc = (setPcs s.cur r.grp r.pc).pc ∧ sameRegs s t ∧ t.pool = s.pool ∧ t.cur.live = s.cur.live ∧ t.seq = s.seq := by
  obtain ⟨txn, xcause, hdoom⟩ := doom_cur s 0x08
  unfold stopWith
  extract_lets cause s1 s2 w held w1 w2 t
  have hw : w = { s.cur with txn := txn, xcause := xcause } := hdoom
  have hentry := handlerEntry_sameFocus s2 w cause
  have hstop : ∃ u x, SameFocus u t ∧ u.cur = { w2 with run := none, trap := some x } ∧ u.pool = s.pool ∧ u.seq = s.seq ∧
      x.cause = BitVec.ofNat 8 cause ∧ x.stopped = stopped ∧ x.held = held ∧ x.run = some r ∧ x.moved = 0 := by
    have hreported : ∀ (b : Bool) (u : State) (n : Nat), SameFocus u (if b then u else eqAppend u n ws) := by
      intro b u n
      cases b
      · exact eqAppend_sameFocus u n ws
      · exact .refl u
    exact ⟨_, _, hreported .., rfl, hentry.pool.trans (doom_pool s 0x08), hentry.seq.trans (doom_seq s 0x08), rfl, rfl, rfl, rfl, rfl⟩
  obtain ⟨u, x, hreport, hcur, hpool, hseq, hcause, hstopped, hheld, hrun, hmoved⟩ := hstop
  have hlive : w.live = s.cur.live := by rw [hw]
  clear_value t
  rw [sameRegs, hreport.cur, hreport.pool, hreport.seq, hcur]
  refine ⟨rfl, ⟨x, rfl, hcause, hstopped, ?_, hrun, hmoved⟩, ?_, ⟨?_, ?_, ?_, ?_⟩, hpool, ?_, hseq⟩
  · rw [hheld, ← hlive]
  all_goals simp [w2, w1, setPcs, hw]

/-- A trap of a warp that is no handler's takes one SEQ for its record and stops the warp (R352). -/
theorem takeTrap_stops {s : State} (hhandler : s.cur.handler = false) (rep : Report) (grp : Lanes) (run : Option Run) :
    takeTrap s rep grp run = stopWith (warpRecord s s.cur rep).2 (warpRecord s s.cur rep).1 rep.lanes grp run :=
  if_neg (ne_true_of_eq_false hhandler)

theorem trapTaken_holds : trapTaken := by
  intro s rep r hhandler
  have hcause : BitVec.ofNat 8 (fld (wordAt (warpRecord s s.cur rep).1 0) 7 0) = BitVec.ofNat 8 rep.cause := by
    have hword : wordAt (warpRecord s s.cur rep).1 0 = recWord0 s.seq.toNat (tenantOf s s.cur) (((ctxOf s s.cur).map (·.queue)).getD 0) rep := rfl
    rw [hword, recWord0_cause]
    exact BitVec.eq_of_toNat_eq (Nat.mod_mod _ _)
  have h := stopWith_stops (warpRecord s s.cur rep).2 (warpRecord s s.cur rep).1 rep.lanes r.grp r
  rw [hcause] at h
  rw [takeTrap_stops hhandler]
  exact h

end Sys2Proof.Machine
end

section
/-! SUPPORT. Shoot-downs, replays, migrations, remote homes and retired frames: each event where it is enabled (R297, R301 to R306, R374, R375,
R377). -/

namespace Sys2Proof.Machine

/-! Shoot-downs (R297). -/

theorem tlbinvWrite_starts {v : DWord} {s : State} (hgo : fbit v 0 = true) (hidle : fbit (pkgReg s 0x2B 0) 63 = false) :
    let x := dw (fld v 59 16 * 2 ^ 16 + fld v 7 4 * 16 + fld v 3 2 * 4 + (if fbit v 1 then 0 else fld (pkgReg s 0x2B 0) 1 1) * 2)
    tlbinvWrite v s = { pkgPut s 0x2B 0 (putFld x 63 63 1) with shoot := some x } := by
  have hbusy : fld (pkgReg s 0x2B 0) 63 63 = 0 := by
    have hbit : (fbit (pkgReg s 0x2B 0) 63).toNat = fld (pkgReg s 0x2B 0) 63 63 := Nat.toNat_testBit _ 63
    rw [← hbit, hidle]
    rfl
  unfold tlbinvWrite
  dsimp only
  rw [if_neg (by simp [hgo]), if_neg (ne_true_of_eq_false hidle), hbusy, Nat.zero_mul, Nat.zero_add]

theorem tlbinvComplete_drops {s : State} {x : DWord} (hshoot : s.shoot = some x)
    (hbusy : shootBusy s (fld x 7 4) (shootFrames s (fld x 7 4) (fld x 3 2) (fld x 59 16 * 65536)) = false) :
    let ten := fld x 7 4
    let rs := shootFrames s ten (fld x 3 2) (fld x 59 16 * 65536)
    let t := dropReplicas (dropLeaves s ten (fld x 3 2) (fld x 59 16 * 65536)) rs
    let u := { t with
      shoot := none
      watches := t.watches.map fun w =>
        if w.tenant == ten && (w.st == 1 || w.st == 2) && inRanges rs w.pa then { w with st := 3, answer := 4 } else w }
    tlbinvComplete s = pkgPut u 0x2B 0 (putFld (pkgReg u 0x2B 0) 63 63 0) := by
  unfold tlbinvComplete
  rw [hshoot]
  exact if_neg (ne_true_of_eq_false hbusy)

/-! Replays (R301). -/

theorem logReplay_replays {c q n : Nat} {s : State} {w : Warp} {e : LogEntry} (hat : warpAt s c q n = some w) (hready : readyEntry w = some e) :
    logReplay c q n s = focus (replayEntry (focus s w.uid) e) s.cur.uid := by
  unfold logReplay
  rw [hat]
  dsimp only
  rw [hready]

/-- A parked store whose lanes translate and find room is staged, outside the transaction that is open when it replays. -/
theorem replayStg_stages {s u : State} {it : Item} {e : LogEntry} {v : Nat → LaneVal} {loc : List (Nat × Option Nat × DWord)}
    (hxlate : translateLanes s { s.cur with olog := olderOn s.cur e } (lanesOf e.mask) (fun _ => none) (fun l => (v l).va) .write 1 true = (.ok loc, u))
    (hroom : stageRoom (onCur u fun w => { w with txn := {} }) (it.m 54 52) (blocksOf loc) = true) :
    replayStg s it e v = replayed
      (onCur (stgStage (it.m 54 52) (stgBytes it) (onCur u fun w => { w with txn := {} }) (lanesOf e.mask) loc fun l => (v l).data)
        fun w => { w with txn := u.cur.txn }) e it.dc := by
  unfold replayStg replayAccess
  dsimp only
  rw [hxlate]
  exact if_neg (by simp [hroom])

theorem replayEntry_stg {s : State} {e : LogEntry} (hop : opcOf (e.insn.extractLsb' 0 32) = 0x120) :
    let w0 := e.insn.extractLsb' 0 32
    replayEntry s e =
      replayStg s (longItem 0x120 false (longFields w0 (e.insn.extractLsb' 32 32) (if lengthCode w0 = 2 then some e.lit else none))) e
        (payloadLane s e.pay.toNat) := by
  intro w0
  unfold replayEntry
  dsimp only
  rw [hop]
  rfl

/-! Migrations (R302 to R305, R377). -/

theorem migrFinish_moves {s u : State} {m : Migr} {a pfn : Nat} (h : MayMove s m a pfn u) : migrFinish s m = migrMoved s m a pfn u := by
  obtain ⟨-, hleaves, hbusy, hlines, hring, herr⟩ := h
  have hfree : (s.l2.any fun e => (e.2.locked || e.2.holdWr) && inRanges (migrRanges s m a) (256 * e.1)) = false := by
    rw [List.any_eq_false]
    exact fun e he => ne_true_of_eq_false (hlines e he)
  have hgood : ¬ (m.err && decide (m.kind < 3)) = true := by
    obtain h | h := herr
    · simp [h]
    · simp [Nat.not_lt.mpr h]
  unfold migrRanges migrOlds at hbusy hfree
  unfold migrFinish
  dsimp only
  rw [hleaves]
  dsimp only
  rw [if_neg (ne_true_of_eq_false hbusy), if_neg (ne_true_of_eq_false hfree), hring]
  dsimp only
  rw [if_neg hgood]
  rfl

theorem migrStart_begins {s : State} {m : Migr} {a : Nat} (h : MayBegin s m a) : migrStart s m = migrBegun s m a := by
  obtain ⟨hidle, hrings, hleaves⟩ := h
  unfold migrStart migrBegin
  rw [if_neg (ne_true_of_eq_false hidle), hrings, hleaves]
  rfl

section UnderWay
variable {t va a pfn : Nat} {s u : State} {m : Migr} (hfound : findMigr s t (va / 65536) = some m) (h : MayMove s m a pfn u)
include hfound h

theorem faultUnit_moves : faultUnit t va s = migrMoved s m a pfn u := by
  unfold faultUnit
  dsimp only
  rw [hfound]
  dsimp only
  rw [if_neg (ne_true_of_eq_false h.1), migrFinish_moves h]

theorem remoteRequest_moves : remoteRequest t va s = migrMoved s m a pfn u := by
  unfold remoteRequest
  dsimp only
  rw [hfound]
  dsimp only
  rw [if_neg (ne_true_of_eq_false h.1), migrFinish_moves h]

theorem pageRevive_moves (hkind : m.kind = 3) : pageRevive t va s = migrMoved s m a pfn u := by
  unfold pageRevive
  dsimp only
  rw [hfound]
  dsimp only
  rw [if_neg (by simp [h.1, hkind]), migrFinish_moves h]

end UnderWay

section Requests
variable {t va a : Nat} {s : State} {e : DWord} {g : Bool} (hnone : findMigr s t (va / 65536) = none) (hwalk : homeWalk s t va = .leaf e g)
  (hgood : leafBad e g = none) (hkey : leafKEY e = t)
include hnone hwalk hgood hkey

theorem faultUnit_begins (hparked : parkedOn s t (va / 65536) = true) (hstate : leafSTATE e = 1) (h : MayBegin s (moveOf t va 0 e) a) :
    faultUnit t va s = migrBegun s (moveOf t va 0 e) a := by
  unfold faultUnit
  dsimp only
  rw [hnone]
  dsimp only
  rw [if_neg (by simp [hparked]), hwalk]
  dsimp only
  rw [if_neg (by simp [hgood, hkey, hstate]), if_pos hstate]
  exact migrStart_begins h

theorem pageRevive_begins (hparked : parkedOn s t (va / 65536) = true) (hstate : leafSTATE e = 2) (h : MayBegin s (moveOf t va 3 e) a) :
    pageRevive t va s = migrBegun s (moveOf t va 3 e) a := by
  unfold pageRevive
  dsimp only
  rw [hnone]
  dsimp only
  rw [hwalk]
  dsimp only
  rw [if_pos (by simp [hparked, hgood, hkey, hstate])]
  exact migrStart_begins h

theorem remoteRequest_answers (hhere : leafSTATE e ≠ 1) (hkept : leafSTATE e ≠ 2) :
    remoteRequest t va s = { s with answers := s.answers ++ [⟨t, va / 65536, some (putFld e 35 0 (leafPA e g va / 65536))⟩] } := by
  unfold remoteRequest
  dsimp only
  rw [hnone]
  dsimp only
  rw [hwalk]
  dsimp only
  rw [if_neg (by simp [hgood, hkey]), if_neg hhere, if_neg hkept]
  rfl

end Requests

theorem remoteRequest_refuses {t va l : Nat} {s : State} (hnone : findMigr s t (va / 65536) = none) (hwalk : homeWalk s t va = .invalid l) :
    remoteRequest t va s = { s with answers := s.answers ++ [⟨t, va / 65536, none⟩] } := by
  unfold remoteRequest
  dsimp only
  rw [hnone]
  dsimp only
  rw [hwalk]
  rfl

/-! Remote homes (R306, R374). -/

section Remotes
variable {t va : Nat} {s : State} {r : Remote} (hfound : s.remotes.find? (fun r => r.tenant == t && r.page == va / 65536) = some r)
include hfound

theorem remoteReply_refused (leaf : DWord) : remoteReply t va false leaf s = remoteFail s t (va / 65536) r.dev 1 := by
  unfold remoteReply
  dsimp only
  rw [hfound]
  rfl

theorem remoteReply_installs {k a : Nat} {g : Bool} (leaf : DWord) (hslot : slotOf s r.shelf r.dev = some k)
    (haddr : leafAddr s r.shelf t va = some (a, g)) :
    remoteReply t va true leaf s = markReady
      (applyWrite (reachHome { s with remotes := s.remotes.filter fun r => r.tenant != t || r.page != va / 65536 } a 8)
        (atAddr a (bytesOf 8 (peerLeaf leaf k).toNat))) t (· == va / 65536) := by
  unfold remoteReply
  dsimp only
  rw [hfound]
  dsimp only
  rw [hslot, haddr]
  rfl

theorem remoteTimeout_fails (hlate : r.at0 + 1000 * Config.clkPerUs ≤ s.clk) :
    remoteTimeout t va s = remoteFail s t (va / 65536) r.dev 2 := by
  unfold remoteTimeout
  dsimp only
  rw [hfound]
  exact if_pos hlate

end Remotes

/-! Retired frames (R377, R398). -/

/-- A frame that asks to be retired, is not yet, and READY is set. -/
def Retirable (s : State) (pfn : Nat) : Prop := s.boot.ready = true ∧ s.retired.contains pfn = false ∧ s.failing.contains pfn = true

theorem Retirable.unguarded {s : State} {pfn : Nat} (h : Retirable s pfn) :
    ¬ (!s.boot.ready || s.retired.contains pfn || !s.failing.contains pfn) = true := by
  obtain ⟨hready, hnew, hfailing⟩ := h
  rw [hready, hnew, hfailing]
  decide

theorem frameRetire_moves {pfn a k : Nat} {s u : State} {m : Migr} (hretire : Retirable s pfn)
    (hfound : s.migrs.find? (fun m => m.kind == 4 && m.frame == pfn) = some m) (h : MayMove s m a k u) :
    frameRetire pfn s = migrMoved s m a k u := by
  unfold frameRetire
  rw [if_neg hretire.unguarded, hfound]
  dsimp only
  rw [if_neg (ne_true_of_eq_false h.1), migrFinish_moves h]

section Retiring
variable {pfn : Nat} {s : State} (hretire : Retirable s pfn) (hnone : s.migrs.find? (fun m => m.kind == 4 && m.frame == pfn) = none)
include hretire hnone

theorem frameRetire_unmapped (hmap : frameMapping s pfn = none) :
    frameRetire pfn s = retireReport { s with retired := s.retired ++ [pfn] } pfn none 0 := by
  unfold frameRetire
  rw [if_neg hretire.unguarded, hnone]
  dsimp only
  rw [hmap]

theorem frameRetire_begins {t va a : Nat} {e : DWord} (hmap : frameMapping s pfn = some (t, va)) (hwalk : homeWalk s t va = .leaf e false)
    (hidle : findMigr s t (va / 65536) = none) (h : MayBegin s { moveOf t va 4 e with frame := pfn } a) :
    frameRetire pfn s = migrBegun s { moveOf t va 4 e with frame := pfn } a := by
  unfold frameRetire
  rw [if_neg hretire.unguarded, hnone]
  dsimp only
  rw [hmap]
  dsimp only
  rw [hwalk]
  dsimp only
  rw [if_neg (by simp [hidle])]
  exact migrStart_begins h

/-- The frame of a 1 GiB page is reported and its page stays (log entry 144). -/
theorem frameRetire_reports {t va : Nat} {e : DWord} (hmap : frameMapping s pfn = some (t, va)) (hwalk : homeWalk s t va = .leaf e true) :
    frameRetire pfn s = retireReport { s with retired := s.retired ++ [pfn] } pfn (some t) pfn := by
  unfold frameRetire
  rw [if_neg hretire.unguarded, hnone]
  dsimp only
  rw [hmap]
  dsimp only
  rw [hwalk]

end Retiring

theorem pageEvents_hold : pageEvents := by
  refine ⟨?shoot, ?shot, ?replay, ?store, ?move, ?request, ?refuse, ?remote, ?retire, ?retireMove⟩
  case shoot => exact fun v s hgo hidle => congrArg Host.Outcome.next (tlbinvWrite_starts hgo hidle)
  case shot =>
    intro s x hshoot ten rs hbusy t u
    exact congrArg Host.Outcome.next (tlbinvComplete_drops hshoot hbusy)
  case replay => exact fun c q n s w e hat hready => congrArg Host.Outcome.next (logReplay_replays hat hready)
  case store =>
    intro s e loc u hop w0 it v lanes hxlate x hroom
    exact (replayEntry_stg hop).trans (replayStg_stages hxlate hroom)
  case move =>
    exact fun t va s m a pfn u hfound h => ⟨congrArg Host.Outcome.next (faultUnit_moves hfound h),
      congrArg Host.Outcome.next (remoteRequest_moves hfound h), fun hkind => congrArg Host.Outcome.next (pageRevive_moves hfound h hkind)⟩
  case request =>
    exact fun t va s e g a hnone hwalk hgood hkey =>
      ⟨fun hparked hstate h => congrArg Host.Outcome.next (faultUnit_begins hnone hwalk hgood hkey hparked hstate h),
        fun hparked hstate h => congrArg Host.Outcome.next (pageRevive_begins hnone hwalk hgood hkey hparked hstate h),
        fun hhere hkept => congrArg Host.Outcome.next (remoteRequest_answers hnone hwalk hgood hkey hhere hkept)⟩
  case refuse => exact fun t va s l hnone hwalk => congrArg Host.Outcome.next (remoteRequest_refuses hnone hwalk)
  case remote =>
    exact fun t va s r k a g leaf hfound => ⟨congrArg Host.Outcome.next (remoteReply_refused hfound leaf),
      fun hslot haddr => congrArg Host.Outcome.next (remoteReply_installs hfound leaf hslot haddr),
      fun hlate => congrArg Host.Outcome.next (remoteTimeout_fails hfound hlate)⟩
  case retire =>
    intro pfn s hready hnew hfailing hnone
    have hretire : Retirable s pfn := ⟨hready, hnew, hfailing⟩
    exact ⟨fun hmap => congrArg Host.Outcome.next (frameRetire_unmapped hretire hnone hmap),
      fun t va e a hmap hwalk hidle h => congrArg Host.Outcome.next (frameRetire_begins hretire hnone hmap hwalk hidle h),
      fun t va e hmap hwalk => congrArg Host.Outcome.next (frameRetire_reports hretire hnone hmap hwalk)⟩
  case retireMove =>
    exact fun pfn s m a k u hready hnew hfailing hfound h =>
      congrArg Host.Outcome.next (frameRetire_moves ⟨hready, hnew, hfailing⟩ hfound h)

end Sys2Proof.Machine
end

section
/-! SUPPORT. A frame of a 1 GiB page that asks to be retired (R377, log entry 144). -/

namespace Sys2Proof.Tests
open Sys2Proof.Machine

/-- The machine whose first 1 GiB of tenant 0 is one page from frame 2 on, with frame 2 failing. -/
def failingGig : State := { here with dram := dramWord here.dram 0x18000 (2 ^ 63 + 2 ^ 62 + 2), failing := [2] }

theorem failingGig_walk : homeWalk failingGig 0 0 = .leaf (dw (2 ^ 63 + 2 ^ 62 + 2)) true := by decide +kernel

theorem failingGig_reports : frameRetire 2 failingGig = retireReport { failingGig with retired := [2] } 2 (some 0) 2 :=
  frameRetire_reports ⟨by decide +kernel, by decide +kernel, by decide +kernel⟩ (by decide +kernel) (by decide +kernel) failingGig_walk

end Sys2Proof.Tests
end

section
/-! SUPPORT. WCTL's actions on the warp in the slot that they name (R317, R318, R375). -/

namespace Sys2Proof.Machine

section Acting
variable {c n : Nat} {s : State} {w : Warp} (hslot : wctlSlot s c (actedFields s c) = some w) (hstopped : w.trap.isSome = true)
  (hunder : nget 0 s.wctl c = 0 ∨ nget 0 s.wctl c / 2 ^ 24 = n)
include hslot hstopped hunder

/-- An action on a stopped warp, where no other is under way, is what it tries; BUSY shows whether it is done. -/
theorem wctlAct_tries (act : State → Warp → State × Bool) :
    wctlAct act n c s = wctlPending (act s w).1 c (if (act s w).2 then 0 else n) (actedFields s c) := by
  have hfree : ¬ (decide (nget 0 s.wctl c ≠ 0) && decide (nget 0 s.wctl c / 2 ^ 24 ≠ n)) = true := by
    rw [Bool.and_eq_true, decide_eq_true_eq, decide_eq_true_eq]
    exact fun h => hunder.elim h.1 h.2
  have htrap : ¬ w.trap.isNone = true := by simpa using Option.isSome_iff_ne_none.mp hstopped
  unfold actedFields at hslot ⊢
  unfold wctlAct
  dsimp only
  rw [if_neg hfree, hslot]
  dsimp only
  rw [if_neg htrap]

theorem wctlAct_done {act : State → Warp → State × Bool} {t : State} (h : act s w = (t, true)) :
    wctlAct act n c s = wctlPending t c 0 (actedFields s c) := by
  rw [wctlAct_tries hslot hstopped hunder, h]
  rfl

end Acting

/-- Resume where what it and the stop release is published: the handler ends and the lanes go on (R314). -/
theorem resumeTry_resumes {s u : State} {w : Warp} {t : Trap} (htrap : w.trap = some t)
    (hraised : u = raiseEntries s w.core (scopeLevel s w 2)) (hwait : waitingEntries u w.core (scopeLevel s w 2) = false)
    (hready : stopReady u w t = true) :
    let x := released t.stopped [2] u.order w
    resumeTry s w = (retryParks (resumeTrap (endHandler u x) x) x.uid, true) := by
  unfold resumeTry
  dsimp only
  rw [← hraised, if_neg (by simp [hwait, htrap, hready])]
  simp only [htrap]

/-- Kill where every live thread may exit: the handler ends, watches go, tiles of the log are released (R375). -/
theorem killTry_kills {s t : State} {w w' : Warp} (hexit : exitLanes s w w.live = some t) :
    let u := releaseTiles ((lanesOf w.live).foldl (fun s l => leaveWatch s w.uid l) (endHandler t w)) (w.olog.flatMap (·.tiles))
    findWarp u w.uid = some w' →
    killTry s w = (putWarp (dropParked u w.uid) { w' with
      trap := none, run := none, paused := [], olog := [], halt := false
      pend := w'.pend.filter fun p => !w.olog.any fun e => e.src == p.src }, true) := by
  intro u hfound
  unfold killTry
  rw [hexit]
  dsimp only
  rw [hfound]

theorem wctlHalt_halts {c : Nat} {s : State} {w : Warp} (hslot : wctlSlot s c (coreReg s c 0x44 0) = some w) :
    wctlHalt c s = putWarp s { w with halt := true } := by
  unfold wctlHalt
  rw [hslot]

theorem wctlStepOn_steps {c : Nat} {s : State} {w : Warp} (hslot : wctlSlot s c (coreReg s c 0x44 0) = some w) (hcfg : trapCfg s w 18 = true) :
    wctlStepOn c s = putWarp s { w with step := true, stepm := BitVec.ofNat 2 (fld (coreReg s c 0x44 0) 13 12), depth := [] } := by
  unfold wctlStepOn
  dsimp only
  rw [hslot]
  dsimp only
  rw [hcfg]
  rfl

theorem wctlStepOff_ends {c : Nat} {s : State} {w : Warp} (hslot : wctlSlot s c (coreReg s c 0x44 0) = some w) :
    wctlStepOff c s = putWarp s { w with step := false } := by
  unfold wctlStepOff
  rw [hslot]

theorem debugEvents_hold : debugEvents := by
  refine ⟨fun c s w hslot => ⟨?resume, ?kill⟩, fun c s w hslot => ⟨?halt, ?stepOn, ?stepOff⟩⟩
  case resume =>
    intro t u htrap hunder hwait hready
    exact congrArg Host.Outcome.next
      (wctlAct_done hslot (Option.isSome_iff_exists.mpr ⟨t, htrap⟩) hunder (resumeTry_resumes htrap rfl hwait hready))
  case kill =>
    intro t w' hstopped hunder hexit u hfound
    exact congrArg Host.Outcome.next (wctlAct_done hslot hstopped hunder (killTry_kills hexit hfound))
  case halt => exact congrArg Host.Outcome.next (wctlHalt_halts hslot)
  case stepOn => exact fun hcfg => congrArg Host.Outcome.next (wctlStepOn_steps hslot hcfg)
  case stepOff => exact congrArg Host.Outcome.next (wctlStepOff_ends hslot)

end Sys2Proof.Machine
end

section
/-! SUPPORT. Tarsor Links: cells that are sent, accepted, discarded and replayed; links that train, retrain and fail (R321 to R325, R385). -/

namespace Sys2Proof.Machine

section Cells
variable {l : Nat} {c : Cell} {s : State} (hup : (linkAt s l).st = 2) (hcell : isCell c = true)
include hup hcell

/-! Sending (R321 to R323). -/

/-- What a data cell does at a link that is up: what is to be sent again goes first; else it goes where its channel has room. -/
theorem cellSend_data (hkind : c.kind.toNat = 0) :
    cellSend l c s =
      if sendsAgain (linkAt s l) then sendAgain l s
      else if !roomFor (linkAt s l) c then s else putLink s l (pushCell s.clk (linkAt s l) c) := by
  have hzero : c.kind = 0 := BitVec.eq_of_toNat_eq hkind
  unfold cellSend
  dsimp only
  rw [if_neg (by simp [hup, hcell]), hkind, if_pos hzero]
  rfl

theorem cellSend_pushes (hkind : c.kind.toNat = 0) (hagain : sendsAgain (linkAt s l) = false) (hallowed : allowed (linkAt s l) c.vc.toNat = true)
    (hroom : (linkAt s l).unacked.length < 2048) : cellSend l c s = putLink s l (pushCell s.clk (linkAt s l) c) := by
  rw [cellSend_data hup hcell hkind, if_neg (ne_true_of_eq_false hagain), if_neg (by simp [roomFor, hallowed, hroom])]

theorem cellSend_again (hkind : c.kind.toNat = 0) (hagain : sendsAgain (linkAt s l) = true) : cellSend l c s = sendAgain l s := by
  rw [cellSend_data hup hcell hkind, if_pos hagain]

theorem cellSend_replayRequest (hkind : c.kind.toNat = 2) (hwant : (linkAt s l).wantReplay = true) :
    cellSend l c s = putLink s l { linkAt s l with wantReplay := false, ctl := some (sealCell (linkAt s l) c) } := by
  unfold cellSend
  dsimp only
  rw [if_neg (by simp [hup, hcell]), hkind]
  exact if_pos hwant

/-! Receiving (R323, R324). -/

theorem dataCell_accepts (hkind : c.kind = 0) (hgood : cellGood c = true) (hseq : c.seq = (linkAt s l).expect) :
    dataCell l c s = putLink s l (acceptCell (takeHeader s.clk (linkAt s l) c) c c.payload) := by
  unfold dataCell
  dsimp only
  rw [if_neg (by simp [hup, hkind, hcell]), if_pos (by simp [hgood, hseq])]

theorem dataCell_discards (hkind : c.kind = 0) (hbad : (cellGood c && c.seq == (linkAt s l).expect) = false) :
    dataCell l c s = discardCell s l c := by
  unfold dataCell
  dsimp only
  rw [if_neg (by simp [hup, hkind, hcell]), if_neg (ne_true_of_eq_false hbad)]

theorem dedupCell_delivers {b : List Byte} (hkind : c.kind = 1) (hgood : cellGood c = true) (hseq : c.seq = (linkAt s l).expect)
    (hblock : refBlock (linkAt s l).rx c.payload = some b) :
    dedupCell l c s = setCount (putLink s l (acceptCell (takeHeader s.clk (linkAt s l) c) c b)) l 31 16 (linkCount s l 31 16 + 1) := by
  unfold dedupCell
  dsimp only
  rw [if_neg (by simp [hup, hkind, hcell]), if_pos (by simp [hgood, hseq]), hblock]

theorem replayRequest_replays (hkind : c.kind = 2) (hgood : cellGood c = true) :
    replayRequest l c s = bumpCount (putLink s l (replayFrom (takeHeader s.clk (linkAt s l) c))) l 47 32 := by
  unfold replayRequest
  dsimp only
  rw [if_neg (by simp [hup, hkind, hcell]), if_pos hgood]

theorem idleCell_takesHeader (hkind : c.kind = 3) (hgood : cellGood c = true) :
    idleCell l c s = putLink s l (takeHeader s.clk (linkAt s l) c) := by
  unfold idleCell
  dsimp only
  rw [if_neg (by simp [hup, hkind, hcell]), if_pos hgood]

end Cells

/-- A sealed cell's CRC covers the header and payload that it is sent with, not itself (R321). -/
theorem sealCell_good (k : Link) (c : Cell) : cellGood (sealCell k c) = true := beq_self_eq_true _

/-! Retraining and training (R385). -/

section Training
variable {l : Nat} {s : State}

theorem replayLimit_retrains (hup : (linkAt s l).st = 2)
    (hlimit : ((linkAt s l).unacked.any fun c => decide (16 ≤ (linkAt s l).replaysOf c)) = true) : replayLimit l s = retrain s l :=
  if_pos ⟨hup, hlimit⟩

theorem ackTimeout_retrains (hup : (linkAt s l).st = 2) (hsent : (linkAt s l).unacked ≠ [])
    (hlate : (linkAt s l).ackClk + 100 * Config.clkPerUs ≤ s.clk) : ackTimeout l s = retrain s l :=
  if_pos ⟨hup, by simpa using hsent, hlate⟩

theorem tlctlRetrain_retrains (hst : (linkAt s l).st = 2 ∨ (linkAt s l).st = 3) : tlctlRetrain l s = retrain s l := by
  unfold tlctlRetrain
  obtain h | h := hst
  · rw [h]
    rfl
  · rw [h]
    rfl

theorem trainingDone_up (htrain : (linkAt s l).st = 1) :
    trainingDone l true s = (linkEnds l).foldl (fun t e => putLink t e (resend { linkAt t e with
      st := 2, sent := [], allow := [], freed := (freshLink 2).freed, fails := 0, ackClk := t.clk }))
      { s with lostTold := s.lostTold.filter fun e => e.1 != linkPort l } := by
  unfold trainingDone
  dsimp only
  rw [if_neg (by simp [htrain]), if_pos rfl]

/-- A training that fails counts, until the third in a row fails the link. -/
theorem trainingDone_fails (htrain : (linkAt s l).st = 1) :
    trainingDone l false s =
      if (linkAt s l).fails + 1 < 3 then putLink s l { linkAt s l with fails := (linkAt s l).fails + 1 } else linkFailed s l := by
  unfold trainingDone
  dsimp only
  rw [if_neg (by simp [htrain]), if_neg Bool.false_ne_true]

end Training

/-! TLCTL (R325, R327). -/

section Enabling
variable {l : Nat} {v : DWord} {s : State} (hport : l < 16) (hretrain : fbit v 2 = false)
include hport hretrain

theorem tlctlWrite_enables (hready : s.boot.ready = true) (hon : fbit v 0 = true) (hwas : fbit (mget s (linkReg l 0x06)) 0 = false) :
    let t := mput s (linkReg l 0x06) (dw (fld v 1 1 * 2 + 1))
    tlctlWrite l v s = putLink t l (trainEnd (linkAt t l)) := by
  unfold tlctlWrite
  rw [decide_eq_false (Nat.not_le.mpr hport), hon, hwas, hretrain]
  simp only [Bool.or_false, Bool.not_false, Bool.and_true, Bool.false_eq_true, if_true, if_false]
  rw [mput_boot, if_pos hready]
  rfl

theorem tlctlWrite_disables (hoff : fbit v 0 = false) (hwas : fbit (mget s (linkReg l 0x06)) 0 = true) :
    let t := mput s (linkReg l 0x06) (dw (fld v 1 1 * 2))
    tlctlWrite l v s = putLink t l { linkAt t l with st := 0 } := by
  unfold tlctlWrite
  rw [decide_eq_false (Nat.not_le.mpr hport), hoff, hwas, hretrain]
  simp only [Bool.or_false, Bool.not_false, Bool.and_true, Bool.false_and, Bool.false_eq_true, if_true, if_false]
  rfl

end Enabling

theorem linkEvents_hold : linkEvents := by
  refine ⟨?send, ?accept, ?discard, ?control, ?retrain, ?failed, ?training, ?enable, ?disable⟩
  case send =>
    intro l c s k hup hcell
    exact ⟨fun hkind hagain hallowed hroom => congrArg Host.Outcome.next (cellSend_pushes hup hcell hkind hagain hallowed hroom),
      fun hkind hagain => congrArg Host.Outcome.next (cellSend_again hup hcell hkind hagain),
      fun hkind hwant => congrArg Host.Outcome.next (cellSend_replayRequest hup hcell hkind hwant), rfl, rfl, rfl, sealCell_good _ _⟩
  case accept =>
    intro l c s k hup hcell hgood hseq
    exact ⟨fun hkind => congrArg Host.Outcome.next (dataCell_accepts hup hcell hkind hgood hseq),
      fun b hkind hblock => congrArg Host.Outcome.next (dedupCell_delivers hup hcell hkind hgood hseq hblock)⟩
  case discard =>
    intro l c s k hup hcell hkind hbad
    exact congrArg Host.Outcome.next (dataCell_discards hup hcell hkind hbad)
  case control =>
    intro l c s k hup hcell hgood
    exact ⟨fun hkind => congrArg Host.Outcome.next (replayRequest_replays hup hcell hkind hgood),
      fun hkind => congrArg Host.Outcome.next (idleCell_takesHeader hup hcell hkind hgood)⟩
  case retrain =>
    intro l s k hup
    exact ⟨fun hlimit => congrArg Host.Outcome.next (replayLimit_retrains hup hlimit),
      fun hsent hlate => congrArg Host.Outcome.next (ackTimeout_retrains hup hsent hlate),
      congrArg Host.Outcome.next (tlctlRetrain_retrains (.inl hup))⟩
  case failed => exact fun l s hst => congrArg Host.Outcome.next (tlctlRetrain_retrains (.inr hst))
  case training =>
    intro l s k htrain
    have hfails := trainingDone_fails htrain
    exact ⟨congrArg Host.Outcome.next (trainingDone_up htrain),
      fun hfew => congrArg Host.Outcome.next (hfails.trans (if_pos hfew)),
      fun hmany => congrArg Host.Outcome.next (hfails.trans (if_neg (Nat.not_lt.mpr hmany)))⟩
  case enable =>
    exact fun l v s hport hready hon hretrain hwas => congrArg Host.Outcome.next (tlctlWrite_enables hport hretrain hready hon hwas)
  case disable => exact fun l v s hport hoff hretrain hwas => congrArg Host.Outcome.next (tlctlWrite_disables hport hretrain hoff hwas)

end Sys2Proof.Machine
end

section
/-! SUPPORT. The host mailbox: MBHEAD, and each operation that is well formed and next in its ring (R326, R400, Table 16.7). -/

namespace Sys2Proof.Machine

/-! MBHEAD. -/

section Announcing
variable {v : DWord} {s : State} {n : Nat} (hslots : mbSlots s = some n)
include hslots

theorem mbheadWrite_within (hfits : (v.setWidth 16 - s.boot.mbtail).toNat ≤ n) :
    mbheadWrite v s = { s with boot := { s.boot with mbhead := v.setWidth 16, mbovr := false } } := by
  unfold mbheadWrite
  rw [hslots]
  exact if_neg (Nat.not_lt.mpr hfits)

theorem mbheadWrite_beyond (hover : n < (v.setWidth 16 - s.boot.mbtail).toNat) :
    mbheadWrite v s = { s with boot := { s.boot with mbovr := true } } := by
  unfold mbheadWrite
  rw [hslots]
  exact if_pos hover

end Announcing

/-! The operations. -/

/-- The next command, of the operation and well formed, is done where it is not refused. -/
theorem mbStep_does {op : Nat} {c : MbCmd} {s : State} {f : State → State} (hnext : mbNext s = some c) (hop : mbOp c = op)
    (hrefused : mbRefused s c = false) (hformed : mbMalformed c = false) : mbStep op c s f = f s := by
  unfold mbStep
  rw [if_neg (by simp [hnext, hop]), if_neg (ne_true_of_eq_false hrefused), if_neg (ne_true_of_eq_false hformed)]

theorem mbRefused_ready {s : State} (c : MbCmd) (hready : s.boot.ready = true) : mbRefused s c = false := by
  simp [mbRefused, hready]

section Memory
variable {c : MbCmd} {s : State} (hrange : mbRange c.w1.toNat (mbLen c) = true) (hlocked : anyLocked s (addrsOf c.w1.toNat (mbLen c)) = false)
include hrange hlocked

theorem mbWriteDo_writes (hheld : anyHeld s (addrsOf c.w1.toNat (mbLen c)) = false) :
    mbWriteDo c s = mbComplete ((List.range ((mbLen c + 7) / 8)).foldl
      (fun t k => applyWrite t (atAddr (c.w1.toNat + 8 * k) (((ngetRange 0 s.host c.w2.toNat (mbLen c)).drop (8 * k)).take 8))) s) c 0 := by
  unfold mbWriteDo
  dsimp only
  rw [if_neg (by simp [hrange]), if_neg (by simp [hlocked, hheld])]

theorem mbReadDo_reads (hpoison : poisonedAt s c.w1.toNat (mbLen c) = false) :
    mbReadDo c s = mbComplete { fillBytes s c.w1.toNat (mbLen c) with
      host := nsetRange 0 s.host c.w2.toNat (homeBytes s c.w1.toNat (mbLen c)) } c 0 := by
  unfold mbReadDo
  dsimp only
  rw [if_neg (by simp [hrange]), if_neg (ne_true_of_eq_false hlocked), if_neg (ne_true_of_eq_false hpoison)]

end Memory

section Registers
variable {c : MbCmd} {s : State}

theorem mbRegwrDo_writes {t : State} (h : regWrite s c.w1.toNat c.w2 = some t) : mbRegwrDo c s = mbComplete t c 0 := by
  unfold mbRegwrDo
  rw [h]

theorem mbRegwrDo_unnamed (h : regOk c.w1.toNat = false) : mbRegwrDo c s = mbComplete s c 3 := by
  unfold mbRegwrDo
  rw [regWrite_none s _ _ h]

theorem mbRegrdDo_reads {x : DWord} (h : regRead s c.w1.toNat = some x) :
    mbRegrdDo c s = mbComplete { s with host := nsetRange 0 s.host c.w2.toNat (bytesOf 8 x.toNat) } c 0 := by
  unfold mbRegrdDo
  rw [h]

theorem mbRegrdDo_unnamed (h : regOk c.w1.toNat = false) : mbRegrdDo c s = mbComplete s c 3 := by
  have hnone : regRead s c.w1.toNat = none := if_pos (by simp [h])
  unfold mbRegrdDo
  rw [hnone]

/-- A register that is written by storing reads as what it holds (R408). -/
theorem regRead_plain {num : Nat} (h : PlainWrite s num) :
    regRead s num = some (mget s (mnum (numDom num) (numFam num) (numIdx num))) := by
  obtain ⟨hok, hdom, -, hfam⟩ := h
  unfold regRead
  rw [if_neg (by simp [hok])]
  dsimp only
  rw [if_neg hdom]
  congr 1
  simp only [List.mem_cons, List.not_mem_nil, or_false] at hfam
  split
  iterate 5 · omega
  · rfl

end Registers

/-! MIGRATE, SAVE and IMAGE. -/

section Migrating
variable {c : MbCmd} {s : State} {e : DWord} (hnone : findMigr s (fld c.w2 3 0) (c.w1.toNat / 65536) = none)
  (hleaf : homeWalk s (fld c.w2 3 0) c.w1.toNat = .leaf e false) (hdiscarded : leafSTATE e ≠ 2) (hreserved : leafSTATE e ≠ 3)
include hnone hleaf hdiscarded hreserved

/-- A page that no request covers: nothing to move where it lies in the tier asked for. -/
theorem mbMigrateDo_decides :
    mbMigrateDo c s = if inTier c e then mbComplete s c 0 else migrStart s
      { tenant := fld c.w2 3 0, page := c.w1.toNat / 65536, kind := mbKind c, leaf := e, failed := false, mb := true } := by
  unfold mbMigrateDo
  dsimp only
  rw [hnone]
  dsimp only
  rw [hleaf]
  exact if_neg (by simp [hdiscarded, hreserved])

end Migrating

theorem mbSaveDo_starts {c : MbCmd} {s : State} (hidle : s.boot.mbSave = false)
    (hsome : queueClusters s (fld c.w2 3 0) (fld c.w2 6 4) ≠ [])
    (hfits : saveFits s (fld c.w2 3 0) ((queueClusters s (fld c.w2 3 0) (fld c.w2 6 4)).filter fun k => k.saving.isNone) = true) :
    mbSaveDo c s = onBoot (startSave s ((queueClusters s (fld c.w2 3 0) (fld c.w2 6 4)).filter fun k => k.saving.isNone))
      fun b => { b with mbSave := true } := by
  unfold mbSaveDo
  dsimp only
  rw [if_neg (ne_true_of_eq_false hidle), if_neg (by simpa using hsome), if_neg (by simp [hfits])]

/-- A chunk that is not the last is placed (R329). -/
theorem mbImageDo_places {c : MbCmd} {s : State} (hstage : s.boot.stage = 8) (hmore : fbit c.w2 0 = false)
    (hfits : c.w1.toNat + mbLen c ≤ Config.recoveryBytes) :
    mbImageDo c s = mbComplete
      { s with sram := nsetRange 0 s.sram c.w1.toNat (ngetRange 0 s.host (c.w2.toNat / 2 * 2) (mbLen c)) } c 0 := by
  unfold mbImageDo
  dsimp only
  rw [if_neg (by simp [hstage, Nat.not_lt.mpr hfits]), if_pos (by simp [hmore])]

theorem mailboxEvents_hold : mailboxEvents := by
  refine ⟨fun v s n hslots => ⟨?within, ?beyond⟩, fun c s hnext hready hformed => ?ready, ?image⟩
  case within => exact fun hfits => congrArg Host.Outcome.next (mbheadWrite_within hslots hfits)
  case beyond => exact fun hover => congrArg Host.Outcome.next (mbheadWrite_beyond hslots hover)
  case image =>
    intro c s hnext hready hstage hformed hop hmore hfits
    have hrefused : mbRefused s c = false := by simp [mbRefused, hstage, hop]
    exact congrArg Host.Outcome.next ((mbStep_does hnext hop hrefused hformed).trans (mbImageDo_places hstage hmore hfits))
  case ready =>
    have hdoes : ∀ {op : Nat} {f : State → State} {t : State}, mbOp c = op → f s = t →
        (Host.Outcome.next (mbStep op c s f) : Out) = .next t :=
      fun hop hf => congrArg Host.Outcome.next ((mbStep_does hnext hop (mbRefused_ready c hready) hformed).trans hf)
    exact ⟨fun hop hrange hlocked hheld => hdoes hop (mbWriteDo_writes hrange hlocked hheld),
      fun hop hrange hlocked hpoison => hdoes hop (mbReadDo_reads hrange hlocked hpoison),
      fun t hop hwrite => hdoes hop (mbRegwrDo_writes hwrite),
      fun hop hplain => hdoes hop (mbRegwrDo_writes (regWrite_plain s _ _ hplain)),
      fun hop hok => hdoes hop (mbRegwrDo_unnamed hok),
      fun hop hok => hdoes hop (mbRegrdDo_unnamed hok),
      fun hop hplain => hdoes hop (mbRegrdDo_reads (regRead_plain hplain)),
      fun x hop hread => hdoes hop (mbRegrdDo_reads hread),
      fun e hop hnone hleaf hdiscarded hreserved htier =>
        hdoes hop ((mbMigrateDo_decides hnone hleaf hdiscarded hreserved).trans (if_neg (ne_true_of_eq_false htier))),
      fun e hop hnone hleaf hdiscarded hreserved htier =>
        hdoes hop ((mbMigrateDo_decides hnone hleaf hdiscarded hreserved).trans (if_pos htier)),
      fun hop hidle hsome hfits => hdoes hop (mbSaveDo_starts hidle hsome hfits)⟩

end Sys2Proof.Machine
end

section
/-! SUPPORT. Bring-up stage by stage, and its failures (R327 to R330, R397, R398); thermal trips, passes of power tokens and changes of the coolant
(R331 to R333). -/

namespace Sys2Proof.Machine

/-! The stages (R327 to R330). -/

theorem romAndFuses_begins {s : State} (hstage : s.boot.stage = 0) : romAndFuses none s = enterStage s 1 := by
  unfold romAndFuses
  rw [hstage]
  rfl

theorem romAndFuses_ends {s : State} (hstage : s.boot.stage = 1) : romAndFuses none s = enterStage s 2 := by
  unfold romAndFuses
  rw [hstage]
  rfl

theorem calibration_ends {s : State} (hstage : s.boot.stage = 2) :
    calibration none s = enterStage { s with links := nset {} (nset {} s.links 16 (freshLink 2)) 17 (freshLink 2) } 3 :=
  if_neg (by simp [hstage])

theorem calibration_fails {s : State} {d : Diag} (hstage : s.boot.stage = 2) (hfits : diagFits d = true)
    (hcode : d.errc.toNat = 2 ∨ d.errc.toNat = 3 ∨ d.errc.toNat = 4 ∨ d.errc.toNat = 5) : calibration (some d) s = bringFail s d := by
  have hown : (([0x02, 0x03, 0x04, 0x05] : List Nat).contains d.errc.toNat && diagFits d) = true := by
    simpa [hfits] using hcode
  unfold calibration
  rw [if_neg (by simp [hstage])]
  exact if_pos hown

section Election
variable {die src : Nat} {s : State} (hstage : s.boot.stage = 3) (hother : die ≠ src) (hdie : die < 6) (hsrc : src < 6)
  (hsoon : s.clk ≤ s.boot.stageClk + 50000 * Config.clkPerUs)
include hstage hother hdie hsrc hsoon

/-- An identifier that is its sender's own, within 50 ms, and equal to no other: the die is the headland where it has the lowest of six. -/
theorem electionIdentifier_receives :
    let t := { s with boot := { s.boot with ids := nset none s.boot.ids (8 * die + src) (some (Config.dieId src)) } }
    (Config.dieId die :: received t die).countP (· == Config.dieId src) = 1 →
    electionIdentifier die src (Config.dieId src) s =
      if (received t die).length = 5 ∧ (received t die).all fun x => decide ((Config.dieId die).toNat < x.toNat) then
        enterStage { t with boot := { t.boot with head := die } } 4
      else t := by
  intro t hone
  unfold electionIdentifier
  rw [if_neg (by simp [hstage, hother, hdie, hsrc, hsoon])]
  exact if_neg (not_not_intro hone)

end Election

theorem electionTimeout_fails {die : Nat} {s : State} (hstage : s.boot.stage = 3) (hlate : s.boot.stageClk + 50000 * Config.clkPerUs ≤ s.clk)
    (hmissing : ∃ k < 6, k ≠ die ∧ nget none s.boot.ids (8 * k + die) = none) : electionTimeout die s = bringFail s (dieDiag 0x06 die) := by
  refine if_pos ⟨hstage, hlate, ?_⟩
  simpa using hmissing

theorem verification_passes {s : State} (hstage : s.boot.stage = 4) (hpass : imageCheck s.flash = none) :
    verification s = enterStage { s with boot := { s.boot with fwsv := imgSvn s.flash } } 5 := by
  unfold verification
  rw [if_neg (not_not_intro hstage), hpass]
  rfl

theorem verification_fails {s : State} {k : BitVec 8} (hstage : s.boot.stage = 4) (hfail : imageCheck s.flash = some k) :
    verification s = bringFail s (dieDiag k s.boot.head) := by
  unfold verification
  rw [if_neg (not_not_intro hstage), hfail]

/-! MEMORY_INITIALISATION (R330). -/

/-- A state with other management registers and nothing else changed. -/
def Rewritten (s u : State) : Prop := ∃ m, u = { s with mreg := m }

theorem Rewritten.trans {s t u : State} (h : Rewritten s t) (k : Rewritten t u) : Rewritten s u := by
  obtain ⟨m, rfl⟩ := h
  obtain ⟨m', rfl⟩ := k
  exact ⟨m', rfl⟩

theorem mput_rewritten (s : State) (n : Nat) (v : DWord) : Rewritten s (mput s n v) := ⟨_, rfl⟩

theorem foldl_mput_rewritten (num : Nat → Nat) (val : Nat → DWord) (l : List Nat) (s : State) :
    Rewritten s (l.foldl (fun s d => mput s (num d) (val d)) s) := by
  induction l generalizing s with
  | nil => exact ⟨s.mreg, rfl⟩
  | cons d l ih => exact (mput_rewritten s _ _).trans (ih _)

/-- The fw fields are management registers. -/
theorem fwFields_rewritten (s : State) : Rewritten s (fwFields s) :=
  ((((foldl_mput_rewritten _ _ _ s).trans (foldl_mput_rewritten _ _ _ _)).trans (mput_rewritten ..)).trans (mput_rewritten ..)).trans
    (mput_rewritten ..)

theorem trainEnabled_links (s : State) : ∃ k, trainEnabled s = { s with links := k } := by
  unfold trainEnabled
  generalize List.range 16 = l
  induction l generalizing s with
  | nil => exact ⟨s.links, rfl⟩
  | cons p l ih =>
    rw [List.foldl_cons]
    split
    · obtain ⟨k, hk⟩ := ih { s with links := nset {} s.links p (freshLink 1) }
      exact ⟨k, hk⟩
    · exact ih s

theorem trainEnabled_fwFields (s : State) : ∃ m k, trainEnabled (fwFields s) = { s with mreg := m, links := k } := by
  obtain ⟨m, hm⟩ := fwFields_rewritten s
  obtain ⟨k, hk⟩ := trainEnabled_links { s with mreg := m }
  exact ⟨m, k, hm ▸ hk⟩

theorem memoryInit_readies {s : State} (hstage : s.boot.stage = 6) :
    let t := memoryInit none s
    t.boot.ready = true ∧ t.boot.stage = 7 ∧ t.dram = [] ∧ t.l2b = [] ∧ t.poison = [] ∧ t.fmeta = [] ∧ t.readyClk = s.clk ∧
      t.retired = [] ∧ t.boot.bdiag = 0 := by
  unfold memoryInit
  rw [if_neg (not_not_intro hstage)]
  dsimp -zeta only [stageEnd]
  extract_lets z u t
  obtain ⟨m, k, h⟩ := trainEnabled_fwFields z
  dsimp only [t, u]
  rw [h]
  exact ⟨rfl, rfl, rfl, rfl, rfl, rfl, rfl, rfl, rfl⟩

/-! Heat and power (R331 to R333). -/

theorem thermalTrip_stops {s : State} (die : Nat) (hstage : s.boot.stage = 7) :
    let t := thermalTrip die s
    t.boot.ready = false ∧ t.boot.stage = 9 ∧ t.boot.errc = 0x10 ∧ t.warps = [] ∧ t.ctxs = [] ∧ t.clusters = [] := by
  unfold thermalTrip bringFail
  rw [if_pos hstage, if_pos hstage]
  exact ⟨rfl, rfl, rfl, rfl, rfl, rfl⟩

/-- A launch that is alone on a die gets the die's whole share. -/
theorem powerPass_sole {die k : Nat} {s : State} {c : Ctx} (hdue : passesDue s die = k) (hsome : k ≠ 0) (hsole : ctxsOn s die = [c])
    (hweight : dieWeight s die c ≠ 0) :
    powerPass die s = putCtx { s with ring := nset 0 s.ring die (nget 0 s.ring die + k) }
      { c with budget := min (c.budget + k * dieTok s die) (64 * dieTok s die) } := by
  unfold powerPass catchUp
  dsimp only
  rw [hdue, if_neg hsome]
  unfold passes
  extract_lets cs total tok
  have hcs : cs = [c] := hsole
  have htotal : total = dieWeight s die c := by
    change (cs.map (dieWeight s die)).sum = _
    rw [hcs, List.map_singleton, List.sum_singleton]
  have hshare : tok * dieWeight s die c / total = tok := by
    rw [htotal]
    exact Nat.mul_div_cancel _ (Nat.pos_of_ne_zero hweight)
  rw [if_neg (htotal ▸ hweight), hcs, List.foldl_cons, List.foldl_nil]
  change putCtx _ { c with budget := min (c.budget + k * (tok * dieWeight s die c / total)) (64 * tok) } = _
  rw [hshare]
  rfl

theorem powerPass_none {die : Nat} {s : State} (hdue : passesDue s die = 0) : powerPass die s = s := if_pos hdue

/-! COOLANT_OR_DIE_TEMPERATURE_CHANGE (R333). -/

/-- The number of PWRDIE of a die. -/
def dieReg (d : Nat) : Nat := mnum (d / 2) 0x05 d

theorem dieReg_injective {d e : Nat} (h : dieReg d = dieReg e) : d = e := by
  simp only [dieReg, mnum] at h
  omega

/-- PWRSTAT is no die's PWRDIE. -/
theorem pwrstat_ne_dieReg {d : Nat} (hd : d < 4) : mnum 0 0x2C 0 ≠ dieReg d := by
  simp only [dieReg, mnum]
  omega

theorem foldl_putCtx_ctxs (f : Ctx → Ctx) (l : List Ctx) (s : State) : ∃ cs, l.foldl (fun s c => putCtx s (f c)) s = { s with ctxs := cs } := by
  induction l generalizing s with
  | nil => exact ⟨s.ctxs, rfl⟩
  | cons c l ih =>
    obtain ⟨cs, h⟩ := ih (putCtx s (f c))
    exact ⟨cs, h⟩

/-- A die's new TOK is its PWRDIE's and bounds budgets of launches. -/
theorem setTok_ctxs (s : State) (d tok : Nat) : ∃ cs, setTok s d tok = { mput s (dieReg d) (dw tok) with ctxs := cs } :=
  foldl_putCtx_ctxs (fun c => { c with budget := min c.budget (64 * tok) }) _ _

/-- One die's TOK after a change of the coolant, `tok` by die and free value. -/
def coolDie (tok : Nat → Nat → Nat) (s : State) (d : Nat) : State := setTok (draw s).2 d (tok d (draw s).1.toNat)

/-- What the dies' new TOK leave, and what PWRDIE of each of the dies holds then. -/
structure Cooled (tok : Nat → Nat → Nat) (dies : List Nat) (s u : State) : Prop where
  warps : u.warps = s.warps
  dram : u.dram = s.dram
  boot : u.boot = s.boot
  others : ∀ n, (∀ d ∈ dies, n ≠ dieReg d) → mget u n = mget s n
  toks : ∀ d ∈ dies, ∃ v, mget u (dieReg d) = dw (tok d v)

theorem coolDie_cooled (tok : Nat → Nat → Nat) (s : State) (d : Nat) : Cooled tok [d] s (coolDie tok s d) := by
  obtain ⟨cs, h⟩ := setTok_ctxs (draw s).2 d (tok d (draw s).1.toNat)
  unfold coolDie
  rw [h]
  generalize hword : dw (tok d (draw s).1.toNat) = v
  refine ⟨mput_warps (draw s).2 (dieReg d) v, mput_dram (draw s).2 (dieReg d) v, mput_boot (draw s).2 (dieReg d) v, fun n hn => ?_,
    fun e he => ⟨(draw s).1.toNat, ?_⟩⟩
  · exact (mget_mput (draw s).2 (dieReg d) n v).trans (if_neg (hn d List.mem_cons_self))
  · rw [List.mem_singleton.mp he, hword]
    exact (mget_mput (draw s).2 (dieReg d) (dieReg d) v).trans (if_pos rfl)

theorem Cooled.cons {tok : Nat → Nat → Nat} {d : Nat} {l : List Nat} {s t u : State} (h : Cooled tok [d] s t) (k : Cooled tok l t u)
    (hd : d ∉ l) : Cooled tok (d :: l) s u where
  warps := k.warps.trans h.warps
  dram := k.dram.trans h.dram
  boot := k.boot.trans h.boot
  others n hn := by
    rw [List.forall_mem_cons] at hn
    exact (k.others n hn.2).trans (h.others n (List.forall_mem_singleton.mpr hn.1))
  toks := by
    rw [List.forall_mem_cons]
    refine ⟨?_, k.toks⟩
    obtain ⟨v, hv⟩ := h.toks d List.mem_cons_self
    have hkept := k.others (dieReg d) fun e he hde => hd (dieReg_injective hde ▸ he)
    exact ⟨v, hkept.trans hv⟩

theorem foldl_coolDie_cooled (tok : Nat → Nat → Nat) {dies : List Nat} (hdies : dies.Nodup) (s : State) :
    Cooled tok dies s (dies.foldl (coolDie tok) s) := by
  induction dies generalizing s with
  | nil => exact ⟨rfl, rfl, rfl, fun _ _ => rfl, nofun⟩
  | cons d l ih =>
    obtain ⟨hd, hl⟩ := List.nodup_cons.mp hdies
    exact (coolDie_cooled tok s d).cons (ih hl _) hd

/-- PWRSTAT as firmware sees it and the dies' TOK, before any trip. -/
def cooled (flow tin tmax : Nat) (s : State) : State :=
  (List.range 4).foldl (coolDie (coolTok s flow tin tmax))
    (pkgPut s 0x2C 0 (putFld (putFld (putFld (pkgReg s 0x2C 0) 47 32 flow) 31 16 tin) 15 0 tmax))

theorem cooled_cools (flow tin tmax : Nat) (s : State) :
    Cooled (coolTok s flow tin tmax) (List.range 4)
      (pkgPut s 0x2C 0 (putFld (putFld (putFld (pkgReg s 0x2C 0) 47 32 flow) 31 16 tin) 15 0 tmax)) (cooled flow tin tmax s) :=
  foldl_coolDie_cooled _ List.nodup_range _

theorem cooled_boot (flow tin tmax : Nat) (s : State) : (cooled flow tin tmax s).boot = s.boot :=
  (cooled_cools flow tin tmax s).boot.trans (mput_boot s _ _)

theorem coolantChange_unready {flow tin tmax : Nat} {s : State} (hready : s.boot.ready = false) : coolantChange flow tin tmax s = s :=
  if_pos (by simp [hready])

theorem coolantChange_cools {flow tin tmax : Nat} {s : State} (hready : s.boot.ready = true) (hcool : tmax < 1050) :
    coolantChange flow tin tmax s = cooled (flow % 65536) (tin % 65536) tmax s := by
  have htmax : tmax % 65536 = tmax := Nat.mod_eq_of_lt (by omega)
  unfold coolantChange
  rw [if_neg (by simp [hready]), htmax]
  exact if_pos hcool

theorem coolantChange_trips {flow tin tmax : Nat} {s : State} (hready : s.boot.ready = true) (hhot : 1050 ≤ tmax) (htmax : tmax < 65536) :
    let u := cooled (flow % 65536) (tin % 65536) tmax s
    coolantChange flow tin tmax s = thermalTrip ((draw u).1.toNat % 6) (draw u).2 := by
  unfold coolantChange
  rw [if_neg (by simp [hready]), Nat.mod_eq_of_lt htmax]
  exact if_neg (Nat.not_lt.mpr hhot)

/-- At full power or below it no die's TOK is more than in proportion to the flow. -/
theorem coolTok_le (s : State) (flow tin tmax d v : Nat) : coolTok s flow tin tmax d v ≤ (Config.fwTok d).toNat * min flow 400 / 400 := by
  unfold coolTok
  extract_lets full low
  have hlow : low ≤ full := by
    have := Nat.mod_lt v (show 0 < max 1 full by omega)
    omega
  split
  · exact le_rfl
  split
  · exact (Nat.min_le_left _ _).trans hlow
  · exact hlow

theorem coolTok_full {s : State} {flow tin tmax d v : Nat} (htin : tin ≤ 350) (hlimit : Config.nearLimit tmax = false) :
    coolTok s flow tin tmax d v = (Config.fwTok d).toNat * min flow 400 / 400 :=
  if_pos (by simp [htin, hlimit])

/-- A TOK fits its field. -/
theorem fld_tok {x : Nat} (hx : x < 2 ^ 32) : fld (dw x) 31 0 = x := by
  simp only [fld, dw, bitsN, BitVec.toNat_ofNat]
  omega

/-- The tokens of a die after the change: what `coolTok` gives for some free value. -/
theorem cooled_dieTok (flow tin tmax : Nat) (s : State) {d : Nat} (hd : d < 4) :
    ∃ v, dieTok (cooled flow tin tmax s) d = coolTok s flow tin tmax d v := by
  obtain ⟨v, hv⟩ := (cooled_cools flow tin tmax s).toks d (List.mem_range.mpr hd)
  refine ⟨v, ?_⟩
  have hfull : (Config.fwTok d).toNat * min flow 400 / 400 ≤ (Config.fwTok d).toNat :=
    Nat.div_le_of_le_mul (by rw [Nat.mul_comm]; exact Nat.mul_le_mul_right _ (Nat.min_le_right _ _))
  have hword := (Config.fwTok d).isLt
  have hle := coolTok_le s flow tin tmax d v
  change fld (mget (cooled flow tin tmax s) (dieReg d)) 31 0 = _
  rw [hv, fld_tok (by omega)]

theorem cooled_pwrstat (flow tin tmax : Nat) (s : State) :
    pkgReg (cooled flow tin tmax s) 0x2C 0 = putFld (putFld (putFld (pkgReg s 0x2C 0) 47 32 flow) 31 16 tin) 15 0 tmax := by
  have hkept := (cooled_cools flow tin tmax s).others (mnum 0 0x2C 0) fun d hd => pwrstat_ne_dieReg (List.mem_range.mp hd)
  exact hkept.trans ((mget_mput ..).trans (if_pos rfl))

theorem bringUpEvents_hold : bringUpEvents := by
  refine ⟨fun _ => rfl, ?begins, ?ends, ?calibrated, ?calibrationFails, ?elects, ?electionTimeout, ?verifies, ?starts, ?late, ?memory, ?trip,
    ?pass, ?noPass, ?unready, ?cools, ?trips⟩
  case begins => exact fun s hstage => congrArg Host.Outcome.next (romAndFuses_begins hstage)
  case ends => exact fun s hstage => congrArg Host.Outcome.next (romAndFuses_ends hstage)
  case calibrated => exact fun s hstage => congrArg Host.Outcome.next (calibration_ends hstage)
  case calibrationFails => exact fun s d hstage hfits hcode => congrArg Host.Outcome.next (calibration_fails hstage hfits hcode)
  case elects =>
    intro die src id s hstage hother hdie hsrc hid hsoon t hone
    subst hid
    have helect := electionIdentifier_receives hstage hother hdie hsrc hsoon hone
    refine ⟨fun ⟨hfive, hlowest⟩ => congrArg Host.Outcome.next (helect.trans (if_pos ⟨hfive, ?_⟩)),
      fun hfew => congrArg Host.Outcome.next (helect.trans (if_neg fun h => hfew h.1))⟩
    simpa using hlowest
  case electionTimeout => exact fun die s hstage hlate hmissing => congrArg Host.Outcome.next (electionTimeout_fails hstage hlate hmissing)
  case verifies =>
    exact fun s hstage => ⟨fun hpass => congrArg Host.Outcome.next (verification_passes hstage hpass),
      fun k hfail => congrArg Host.Outcome.next (verification_fails hstage hfail)⟩
  case starts => exact fun s hstage hsoon => congrArg Host.Outcome.next (if_pos ⟨hstage, hsoon⟩)
  case late => exact fun s hstage hlate => congrArg Host.Outcome.next (if_pos ⟨hstage, hlate⟩)
  case memory => exact fun s hstage => ⟨_, rfl, memoryInit_readies hstage⟩
  case trip => exact fun die s hstage => ⟨_, rfl, thermalTrip_stops die hstage⟩
  case pass =>
    exact fun die s c k hdue hsome hsole hweight => congrArg Host.Outcome.next (powerPass_sole hdue hsome hsole hweight)
  case noPass => exact fun die s hdue => congrArg Host.Outcome.next (powerPass_none hdue)
  case unready => exact fun flow tin tmax s hready => congrArg Host.Outcome.next (coolantChange_unready hready)
  case cools =>
    intro flow tin tmax s hready hflow htin htmax
    have hchange := coolantChange_cools (flow := flow) (tin := tin) hready htmax
    rw [Nat.mod_eq_of_lt hflow, Nat.mod_eq_of_lt htin] at hchange
    have h := cooled_cools flow tin tmax s
    refine ⟨_, congrArg Host.Outcome.next hchange, h.warps.trans (mput_warps s _ _), h.dram.trans (mput_dram s _ _), cooled_boot ..,
      cooled_pwrstat .., fun d hd => ?_, fun d hd hinlet hlimit => ?_⟩
    · obtain ⟨v, hv⟩ := cooled_dieTok flow tin tmax s hd
      exact hv ▸ coolTok_le ..
    · obtain ⟨v, hv⟩ := cooled_dieTok flow tin tmax s hd
      exact hv.trans (coolTok_full hinlet hlimit)
  case trips =>
    intro flow tin tmax s hready hstage hhot htmax
    have hstage' : (cooled (flow % 65536) (tin % 65536) tmax s).boot.stage = 7 := by rw [cooled_boot, hstage]
    obtain ⟨hunready, -, herrc, hwarps, -⟩ := thermalTrip_stops (s := (draw (cooled (flow % 65536) (tin % 65536) tmax s)).2) _ hstage'
    exact ⟨_, congrArg Host.Outcome.next (coolantChange_trips hready hhot htmax), hunready, herrc, hwarps⟩

end Sys2Proof.Machine
end

section
/-! The obligations on translation and migration, on traps and debugging, and on the package, the host and bring-up. -/

namespace Sys2Proof.Settled
open Sys2Proof.Machine

/-- Settles O54: each event's function takes the branch that its conditions select; the steps of a request are `migrBegun` and `migrMoved`. -/
theorem pageEvents : Obligations.PageEvents := pageEvents_hold

/-- Settles O43: reading the vector entry and appending the record leave the warp as the stop has left it. -/
theorem takingATrap : Obligations.TakingATrap := trapTaken_holds

/-- Settles O55: each action on a slot that holds a warp is tried at once, and BUSY clears where it is done. -/
theorem debugEvents : Obligations.DebugEvents := debugEvents_hold

/-- Settles O27: after reset no memory lists a byte. -/
theorem resetMemoryIsCanonical : Obligations.ResetMemoryIsCanonical := by
  obtain ⟨hpool, hdram, hl2b, hcstore⟩ := reset_pool_wf
  exact (memWf_iff State.reset).mpr ⟨hpool, hcstore, hdram, hl2b, rfl, rfl⟩

/-- Settles O56: each cell and link event takes the branch that its conditions select; a sealed cell's CRC is over what it is sent with. -/
theorem linkEvents : Obligations.LinkEvents := linkEvents_hold

/-- Settles O57: a command that is next in its ring, not refused and well formed is done by its operation. -/
theorem mailboxEvents : Obligations.MailboxEvents := mailboxEvents_hold

/-- Settles O58: each stage's event goes on or fails as its conditions say; the dies' tokens follow the coolant one die after another. -/
theorem bringUpEvents : Obligations.BringUpEvents := bringUpEvents_hold

end Sys2Proof.Settled
end
